-- ==== Sys2Proof/Word.lean ====
section
/-!
DEFINITION. The plainest types of the model: bytes, 64-bit words and tables held as plain data.
-/

namespace Sys2Proof

/-- One byte, as host memory, the Cistern and packets hold it. -/
abbrev Byte := BitVec 8

/-- One 64-bit word: a microregister, a fault message, an action word, a TICKS value. -/
abbrev Word64 := BitVec 64

/-- A table keyed by numbers, held as data: keys strictly rising, and no entry equal to what an
unlisted key reads as (`Machine.tput` keeps that form). -/
abbrev Tbl (α : Type) := List (Nat × α)

end Sys2Proof
end

