-- ==== Sys2Proof/Syntax.lean ====
section
/-!
DEFINITION. The commands of the YLS-5120, one constructor for each row of spec/opcode_table.json, and the plain
structures their operands are made of.

The spec's table gives the rows no bits. A row's operands are what the row's rule says comes from outside the
device: the mailbox and its request bytes, the bytes read from host memory, the bytes of a frame, the body of a
message from another device, and what a measurement, a check or a physical medium answered. The operand `t` is the
instant of the step, in ticks of 1/16 ns elapsed since power was applied (assumption log 1).
-/

namespace Sys2Proof

/-- A stamp (R105): TICKS, BOUND, QUAL and PLANE. -/
structure Stamp where
  ticks : Nat := 0
  bound : Nat := 0
  qual : Nat := 0
  plane : Nat := 0
  deriving DecidableEq, Repr

/-- A command submitted through a mailbox (R410, R411): the instant, the device mailbox number 0 to 15, the TAG,
and the bytes of the request area that REQ_LEN covers. -/
structure Cmd where
  t : Nat
  box : Nat
  tag : Nat
  req : List Byte
  deriving DecidableEq, Repr

/-- A Cascade message as it travels (R389): the header's fields and the body. -/
structure CMsg where
  etherType : Nat := 0x88B5
  version : Nat := 1
  subtype : Nat
  cascadeId : Nat
  src : Nat
  srcUnit : Nat
  dst : Nat
  dstUnit : Nat
  seq : Nat
  body : List Byte
  deriving DecidableEq, Repr

/-- A Tether message as it arrives (R299): subtype, MSG_SEQ, SENT_TICKS and body. -/
structure TMsg where
  subtype : Nat
  seq : Nat
  sent : Nat
  body : List Byte
  /-- Its frame passes the FCS on the Tether; R299 -/
  fcs : Bool := true
  deriving DecidableEq, Repr

/-- A period of the manager as Witness (R401): its instant, and what has been heard of the worker Pairs' units since the one before: member,
unit, and whether the unit showed itself as sending. -/
structure Heard where
  t : Nat
  units : List (Nat × Nat × Bool)
  deriving DecidableEq, Repr

/-- One slot of a stream's permitted egress set (R37, R40). -/
structure Slot where
  port : Nat
  queue : Nat
  lastSent : Nat
  deriving DecidableEq, Repr

/-- One entry of the stream table (R38); no slots: unconfigured. -/
structure Stream where
  /-- Permitted egress set with stream queues and last-sent values; 1 to 4 slots; R37, R40; reset none -/
  slots : List Slot := []
  /-- Ingress Port; 9 bits; R37; reset 0 -/
  ingress : Nat := 0
  /-- Next sequence; 32 bits; R39; reset 0 -/
  next : Nat := 0
  /-- Diverged; 1 bit; R43; reset 0 -/
  diverged : Bool := false
  /-- Cut of a resynchronisation, once aligned; R319; reset none -/
  cut : Option Nat := none
  deriving DecidableEq, Repr

/-- A Confluence group (R255, R272). -/
structure ConfGroup where
  /-- ENABLE; R272; reset 0 (DESIGN CHOICE, log 6) -/
  enabled : Bool := false
  /-- RECIRC_ALLOW; R260; reset 0 (DESIGN CHOICE, log 6) -/
  recirc : Bool := false
  /-- PORT and local QUEUE; R255; reset 0 (DESIGN CHOICE, log 6) -/
  port : Nat := 0
  queue : Nat := 0
  /-- W, ns; R255; reset 40 (DESIGN CHOICE, log 6) -/
  window : Nat := 40
  /-- Members: ingress Port and offset; up to 512; R255; reset none -/
  members : List (Nat × Int) := []
  /-- Offsets before a member's latest change, for frames whose stamp is not after it: Port, offset and tick; R262; reset none -/
  earlier : List (Nat × Int × Nat) := []
  /-- UNSAFE; R261; reset 0 -/
  unsafe_ : Bool := false
  /-- Held copies in the order they entered: copy, key, ingress Port; R256; reset none -/
  held : List (Nat × Nat × Nat) := []
  /-- conf-late count of the group; 64 bits; R275; reset 0 -/
  late : Nat := 0
  deriving DecidableEq, Repr

/-- A Level Release group (R264, R274). -/
structure LevelGroup where
  /-- ENABLE; R274; reset 0 (DESIGN CHOICE, log 6) -/
  enabled : Bool := false
  /-- MARGIN, ns; R264; reset 20 (DESIGN CHOICE, log 6) -/
  margin : Nat := 20
  /-- Members: egress Port and offset; up to 512; R264; reset none -/
  members : List (Nat × Int) := []
  /-- REACH_W and REACH_E, ticks; R265; reset 0 -/
  reachW : Int := 0
  reachE : Int := 0
  /-- lr-unequal count of the group; 64 bits; R275; reset 0 -/
  unequal : Nat := 0
  deriving DecidableEq, Repr

/-- A parse graph (R133): node images of 256 bytes each. -/
structure Graph where
  root : Nat
  crc : Nat
  label : List Byte
  nodes : List (List Byte)
  deriving DecidableEq, Repr

/-- A valid TCAM entry (R154): 40 or 80 bytes of key and of mask, and the RESULT. -/
structure Tcam where
  wide : Bool
  key : List Byte
  mask : List Byte
  result : Nat
  deriving DecidableEq, Repr

/-- One generation of the programmed table set, as all eight Basins hold it (R138; log 27). -/
structure Gen where
  /-- Parse graph; R119, R134; reset none -/
  graph : Option Graph := none
  /-- Lookup profiles 0 to 15 that differ from the cold-reset content; 32 bytes; R140; reset that content -/
  profiles : Tbl (Option (List Byte)) := []
  /-- Action entries 0 to 65,535, four words of 64 bits each, bit 63 even parity; R170; reset DROP, TRAILER_MODE 1 -/
  actions : Tbl (Option (List Nat)) := []
  /-- Rewrite data entries 0 to 8,191; 128 bytes; R182; reset zeros (DESIGN CHOICE, log 6) -/
  rewrites : Tbl (Option (List Byte)) := []
  /-- Widths of TCAM blocks 0 to 15: 640-bit; R154; reset 320-bit -/
  wideBlocks : Tbl Bool := []
  /-- TCAM entries 0 to 16,383; R154; reset none valid -/
  tcam : Tbl (Option Tcam) := []
  /-- LPM prefixes, keyed by family, VRF, address and length in the order of R164, with their action index; R151; reset none -/
  lpm : Tbl (Option Nat) := []
  /-- The LPM's root nodes in the node store, by family × 4096 + VRF; R138, R151; reset none -/
  roots : Tbl (Option Nat) := []
  /-- INCOMPLETE; R371, R372; reset 0 -/
  incomplete : Bool := false
  /-- Instant at which the in-flight count last became 0; R158, R384; reset none -/
  zeroAt : Option Nat := none
  deriving DecidableEq, Repr

/-- A table definition (R142, R165). -/
structure EmDef where
  /-- KIND: 0 none, 1 programmed, 2 learned; reset 0 -/
  kind : Nat := 0
  /-- WIDTH wide; reset 0 -/
  wide : Bool := false
  keyBytes : Nat := 0
  first : Nat := 0
  count : Nat := 0
  /-- KEY_SEGMENTS: four pairs as written -/
  segments : List Byte := []
  seed0 : Nat := 0
  seed1 : Nat := 0
  deriving DecidableEq, Repr

/-- An exact-match entry (R146). -/
structure Em where
  key : List Byte
  genA : Bool
  genB : Bool
  result : Nat
  pinned : Bool := false
  age : Nat := 0
  deriving DecidableEq, Repr

/-- What a snapshot brings a STALE unit (R319 step 2), as one transfer: the programmed table set of both generations, the
multicast groups, the Confluence and Level Release configuration, the stream table, the published digests, and the sender's digests
of both generations (log 16). -/
structure Snapshot where
  current : Nat
  genA : Gen
  genB : Gen
  defs : Tbl EmDef
  em : Tbl (Tbl (Option (List Nat)))
  mcast : Tbl (List Nat)
  conf : Tbl ConfGroup
  level : Tbl LevelGroup
  streams : Tbl Stream
  digestsA : List (List Byte)
  digestsB : List (List Byte)
  digestA : List Byte
  digestB : List Byte
  deriving DecidableEq, Repr

/-- The commands of the block: one constructor for each row of spec/opcode_table.json. -/
inductive Instr where
  /-- DEVICE_IDENTIFY (R420). -/
  | deviceIdentify (c : Cmd)
  /-- EVENT_CONFIGURE (R421). -/
  | eventConfigure (c : Cmd)
  /-- FIRMWARE_UPDATE (R422). -/
  | firmwareUpdate (c : Cmd)
  /-- TICKET_STATUS (R423). -/
  | ticketStatus (c : Cmd)
  /-- UNKNOWN_OPCODE (R411). -/
  | unknownOpcode (c : Cmd) (opcode : Nat)
  /-- PORT_CONFIGURE (R83). -/
  | portConfigure (c : Cmd)
  /-- PORT_DISABLE (R84). -/
  | portDisable (c : Cmd)
  /-- PORT_STATUS (R84). -/
  | portStatus (c : Cmd)
  /-- MODULE_MAP (R85). -/
  | moduleMap (c : Cmd)
  /-- MODULE_ACCESS (R81). -/
  | moduleAccess (c : Cmd)
  /-- GUARD_SAFE_EXIT (R58). -/
  | guardSafeExit (c : Cmd)
  /-- GUARD_STREAM (R38). -/
  | guardStream (c : Cmd)
  /-- TIME_CONFIGURE (R113). -/
  | timeConfigure (c : Cmd)
  /-- TIME_SOURCE (R114). -/
  | timeSource (c : Cmd)
  /-- TIME_STATUS (R114). -/
  | timeStatus (c : Cmd)
  /-- TIME_STEP (R115). -/
  | timeStep (c : Cmd)
  /-- PTP_PORT (R116). -/
  | ptpPort (c : Cmd)
  /-- PARSE_LOAD (R135). -/
  | parseLoad (c : Cmd) (host : Option (List Byte))
  /-- PARSE_OUTCOME (R136). -/
  | parseOutcome (c : Cmd)
  /-- PARSE_INFO (R137). -/
  | parseInfo (c : Cmd)
  /-- TABLE_DEFINE (R165). -/
  | tableDefine (c : Cmd)
  /-- TABLE_WRITE (R166). -/
  | tableWrite (c : Cmd)
  /-- TABLE_SWAP (R160). -/
  | tableSwap (c : Cmd)
  /-- TABLE_SYNC (R167). -/
  | tableSync (c : Cmd)
  /-- TABLE_STATUS (R168). -/
  | tableStatus (c : Cmd)
  /-- ACTION_WRITE (R191). -/
  | actionWrite (c : Cmd)
  /-- MCAST_WRITE (R192). -/
  | mcastWrite (c : Cmd) (host : Option (List Byte))
  /-- MIRROR_CONFIGURE (R193). -/
  | mirrorConfigure (c : Cmd)
  /-- LEARN_CONFIGURE (R194). -/
  | learnConfigure (c : Cmd)
  /-- LEARN_FLUSH (R195). -/
  | learnFlush (c : Cmd)
  /-- SPEC_CONFIGURE (R213). -/
  | specConfigure (c : Cmd)
  /-- QUEUE_ALLOCATE (R243). -/
  | queueAllocate (c : Cmd)
  /-- QUEUE_FREE (R244). -/
  | queueFree (c : Cmd)
  /-- QUEUE_CONFIGURE (R245). -/
  | queueConfigure (c : Cmd)
  /-- GROUP_CONFIGURE (R246). -/
  | groupConfigure (c : Cmd)
  /-- SHAPER_SET (R247). -/
  | shaperSet (c : Cmd)
  /-- BUFFER_CONFIGURE (R248). -/
  | bufferConfigure (c : Cmd)
  /-- POLICER_CONFIGURE (R249). -/
  | policerConfigure (c : Cmd)
  /-- POLICER_MAP (R250). -/
  | policerMap (c : Cmd)
  /-- GATE_LIST (R239). -/
  | gateList (c : Cmd)
  /-- SAMPLE_CONFIGURE (R252). -/
  | sampleConfigure (c : Cmd)
  /-- QUEUE_HISTOGRAM (R253). -/
  | queueHistogram (c : Cmd)
  /-- CONFLUENCE_CONFIGURE (R272). -/
  | confluenceConfigure (c : Cmd)
  /-- CONFLUENCE_MEMBER (R273). -/
  | confluenceMember (c : Cmd)
  /-- LEVEL_CONFIGURE (R274). -/
  | levelConfigure (c : Cmd) (host : Option (List Byte))
  /-- RELEASE_STATUS (R275). -/
  | releaseStatus (c : Cmd)
  /-- LEDGER_CONFIGURE (R292). -/
  | ledgerConfigure (c : Cmd)
  /-- LEDGER_STATUS (R293). -/
  | ledgerStatus (c : Cmd)
  /-- LEDGER_CERTS (R294). -/
  | ledgerCerts (c : Cmd)
  /-- PAIR_CONFIGURE (R321). -/
  | pairConfigure (c : Cmd)
  /-- PAIR_STATUS (R323). -/
  | pairStatus (c : Cmd)
  /-- PAIR_TAKEOVER (R322). -/
  | pairTakeover (c : Cmd)
  /-- PAIR_DIGEST (R324). -/
  | pairDigest (c : Cmd)
  /-- PAIR_RESYNC (R324). -/
  | pairResync (c : Cmd)
  /-- CISTERN_REGIONS (R348). -/
  | cisternRegions (c : Cmd)
  /-- CISTERN_STATUS (R349). -/
  | cisternStatus (c : Cmd)
  /-- CISTERN_FENCE (R350). -/
  | cisternFence (c : Cmd)
  /-- CISTERN_RETRAIN (R351). -/
  | cisternRetrain (c : Cmd)
  /-- COLLECTOR_MODE (R368). -/
  | collectorMode (c : Cmd)
  /-- COLLECTOR_GUARD (R369). -/
  | collectorGuard (c : Cmd)
  /-- COLLECTOR_THRESHOLD (R370). -/
  | collectorThreshold (c : Cmd)
  /-- STEWARD_OPS (R385). -/
  | stewardOps (c : Cmd)
  /-- STEWARD_ABORT (R386). -/
  | stewardAbort (c : Cmd)
  /-- CASCADE_CONFIGURE (R402). -/
  | cascadeConfigure (c : Cmd)
  /-- CASCADE_ALLOW (R403). -/
  | cascadeAllow (c : Cmd)
  /-- CASCADE_STATUS (R405). -/
  | cascadeStatus (c : Cmd)
  /-- CASCADE_EXPEL (R404). -/
  | cascadeExpel (c : Cmd)
  /-- CASCADE_RESYNC (R404). -/
  | cascadeResync (c : Cmd)
  /-- DMA_RING (R447). -/
  | dmaRing (c : Cmd) (reread : Option (List Byte))
  /-- DMA_CQ (R448). -/
  | dmaCq (c : Cmd)
  /-- DMA_PUNT (R449). -/
  | dmaPunt (c : Cmd)
  /-- COUNTER_PROGRAM (R462). -/
  | counterProgram (c : Cmd)
  /-- COUNTER_SNAPSHOT (R463). -/
  | counterSnapshot (c : Cmd)
  /-- COUNTER_WINDOW (R464). -/
  | counterWindow (c : Cmd)
  /-- POWER_STEP (R481). -/
  | powerStep (c : Cmd)
  /-- DEVICE_RESET (R482). -/
  | deviceReset (c : Cmd)
  /-- DEVICE_BRINGUP (R479). -/
  | deviceBringup (c : Cmd)
  /-- REGISTER_WRITE (R11). -/
  | registerWrite (t : Nat) (fn : Nat) (off : Nat) (value : BitVec 32)
  /-- TIME_LATCH (R112). -/
  | timeLatch (t : Nat) (fn : Nat) (sel : Nat)
  /-- STATUS_CLEAR (R365). -/
  | statusClear (t : Nat) (fn : Nat) (word : Nat) (bits : BitVec 32) (msgs : List Word64)
  /-- INT_PENDING_CLEAR (R362). -/
  | intPendingClear (t : Nat) (fn : Nat) (msgs : List Word64)
  /-- FIRST_VALID_CLEAR (R358). -/
  | firstValidClear (t : Nat) (fn : Nat) (msgs : List Word64)
  /-- CLASS_COUNT_READ (R11). -/
  | classCountRead (t : Nat) (fn : Nat) (cls : Nat) (msgs : List Word64)
  /-- COUNTER_READ (R454). -/
  | counterRead (t : Nat) (fn : Nat) (off : Nat) (len : Nat)
  /-- RING_DOORBELL (R438). -/
  | ringDoorbell (t : Nat) (fn : Nat) (ring : Nat) (tail : Nat) (reread : Option (List Byte))
  /-- CQ_ARM_WRITE (R436). -/
  | cqArmWrite (t : Nat) (fn : Nat) (cq : Nat) (value : BitVec 32)
  /-- FRAME_ARRIVAL (R30). -/
  | frameArrival (t : Nat) (port : Nat) (bytes : List Byte) (fcs : Nat)
  /-- PARSE_WALK (R119). -/
  | parseWalk (t : Nat) (frame : Nat) (early : Nat) (parity : List Nat)
  /-- ENQUEUE (R217). -/
  | enqueue (t : Nat) (frame : Nat)
  /-- RECIRCULATION (R174). -/
  | recirculation (t : Nat) (frame : Nat)
  /-- CONFIRMATION (R198). -/
  | confirmation (t : Nat) (frame : Nat) (cellErr : Bool) (storeErr : Bool) (reread : Option (List Byte))
  /-- VERDICT_ARRIVAL (R199). -/
  | verdictArrival (t : Nat) (copy : Nat)
  /-- VERDICT_LATE (R200). -/
  | verdictLate (t : Nat) (copy : Nat)
  /-- RECEIPT_DEADLINE (R42). -/
  | receiptDeadline (t : Nat) (frame : Nat)
  /-- RETENTION_DEADLINE (R42). -/
  | retentionDeadline (t : Nat) (frame : Nat)
  /-- RETENTION_WRITE_DONE (R41). -/
  | retentionWriteDone (t : Nat) (frame : Nat) (good : Bool)
  /-- DET_LAUNCH (R209). -/
  | detLaunch (t : Nat) (copy : Nat) (marker : Bool)
  /-- PORT_SELECTION (R224). -/
  | portSelection (t : Nat) (port : Nat)
  /-- MEMBER_ELIGIBLE (R226). -/
  | memberEligible (t : Nat) (port : Nat)
  /-- COPY_END (R40). -/
  | copyEnd (t : Nat) (copy : Nat) (crcOk : Bool)
  /-- LEARN_RELEASE (R185). -/
  | learnRelease (t : Nat) (basin : Nat)
  /-- LEARN_ABANDON (R188). -/
  | learnAbandon (t : Nat) (basin : Nat)
  /-- CONF_RELEASE (R256). -/
  | confRelease (t : Nat) (group : Nat)
  /-- LR_ELIGIBLE (R268). -/
  | lrEligible (t : Nat) (copy : Nat)
  /-- LR_LAUNCH (R266). -/
  | lrLaunch (t : Nat) (copy : Nat) (marker : Bool)
  /-- GATE_CHANGE (R236). -/
  | gateChange (t : Nat) (port : Nat)
  /-- GATE_LIST_START (R239). -/
  | gateListStart (t : Nat) (port : Nat)
  /-- SAMPLE_INSTANT (R240). -/
  | sampleInstant (t : Nat)
  /-- SAMPLE_CLOSE (R241). -/
  | sampleClose (t : Nat)
  /-- WINDOW_CLOSE (R460). -/
  | windowClose (t : Nat) (port : Nat) (dir : Nat)
  /-- COUNTER_EPOCH_BOUNDARY (R455). -/
  | counterEpochBoundary (t : Nat)
  /-- PUNT_DELIVERY (R441). -/
  | puntDelivery (t : Nat) (desc : Option (List Byte)) (reread : Option (List Byte))
  /-- INJECT_FRAME (R442). -/
  | injectFrame (t : Nat) (ring : Nat) (desc : Option (List Byte)) (data : Option (List Byte)) (reread : Option (List Byte))
  /-- GATHER_DESCRIPTOR (R431). -/
  | gatherDescriptor (t : Nat) (ring : Nat) (desc : Option (List Byte)) (index : Option (List Byte)) (reread : Option (List Byte))
  /-- RECORD_FILL (R429). -/
  | recordFill (t : Nat) (ring : Nat) (desc : Option (List Byte)) (reread : Option (List Byte))
  /-- RECORD_PARTIAL_TIMEOUT (R429). -/
  | recordPartialTimeout (t : Nat) (ring : Nat) (reread : Option (List Byte))
  /-- CQ_SIGNAL (R436). -/
  | cqSignal (t : Nat) (cq : Nat)
  /-- FUNCTION_LEVEL_RESET (R446). -/
  | functionLevelReset (t : Nat) (fn : Nat) (reading : List Nat)
  /-- TIME_BEAT (R91). -/
  | timeBeat (t : Nat) (east : Bool) (corrections : List (Nat × Int))
  /-- BEAT_MISSING (R93). -/
  | beatMissing (t : Nat) (isl : Nat)
  /-- CORE_CROSS_CHECK (R88). -/
  | coreCrossCheck (t : Nat) (measured : Int)
  /-- SERVO_UPDATE (R87): `seen` is the parent's accuracy, and what each core measures of 10MHZ_IN. -/
  | servoUpdate (t : Nat) (frac : Int) (slew : Int) (offset : Int) (ten : Option Int × Option Int)
  /-- CORE_NO_UPDATE (R87). -/
  | coreNoUpdate (t : Nat) (east : Bool)
  /-- PPS_EDGE (R94). -/
  | ppsEdge (t : Nat) (errWest : Int) (errEast : Int)
  /-- TOD_MESSAGE (R94). -/
  | todMessage (t : Nat) (msg : List Byte)
  /-- SOURCE_QUALIFIED (R95). -/
  | sourceQualified (t : Nat) (index : Nat)
  /-- SOURCE_LOST (R96): `seen` is the entry of the list, and what each core has measured of 10MHZ_IN. -/
  | sourceLost (t : Nat) (seen : Nat × (Option Int × Option Int))
  /-- SOURCE_RESTORE (R96). -/
  | sourceRestore (t : Nat) (index : Nat)
  /-- MISMATCH_TIMEOUT (R89). -/
  | mismatchTimeout (t : Nat) (refs : Option (Int × Int))
  /-- STEP_APPLY (R99). -/
  | stepApply (t : Nat)
  /-- PPS_OUT (R111). -/
  | ppsOut (t : Nat)
  /-- TOD_TX (R111). -/
  | todTx (t : Nat)
  /-- PTP_PENDING_EXPIRE (R103). -/
  | ptpPendingExpire (t : Nat)
  /-- AN_RESOLUTION (R68): the partner's abilities in its base page and in its next pages, and between them its FEC requests. -/
  | anResolution (t : Nat) (port : Nat) (base : Nat) (fec : Nat) (ability : Nat)
  /-- AN_RESTART (R68). -/
  | anRestart (t : Nat) (port : Nat)
  /-- TRAINING_COMPLETE (R69). -/
  | trainingComplete (t : Nat) (port : Nat)
  /-- TRAINING_TIMEOUT (R69). -/
  | trainingTimeout (t : Nat) (port : Nat) (lanes : Nat)
  /-- ALIGNMENT_ACHIEVED (R70). -/
  | alignmentAchieved (t : Nat) (port : Nat) (inVar : Nat) (egVar : Nat)
  /-- UP_HOLD_ELAPSED (R70). -/
  | upHoldElapsed (t : Nat) (port : Nat)
  /-- LINK_LOSS (R71). -/
  | linkLoss (t : Nat) (port : Nat) (cause : Nat)
  /-- PORT_DRAIN_END (R84). -/
  | portDrainEnd (t : Nat) (port : Nat)
  /-- MODULE_POLL (R79). -/
  | modulePoll (t : Nat) (lane : Nat) (reply : Option (Nat × Nat × List Nat))
  /-- MODULE_INT (R79). -/
  | moduleInt (t : Nat) (i2c : Nat) (replies : List (Nat × (Nat × Nat × List Nat)))
  /-- MODULE_MONITOR (R80). -/
  | moduleMonitor (t : Nat) (lane : Nat) (flags : List (Nat × Nat)) (cause : Option Nat)
  /-- MODULE_STATE_READY (R80). -/
  | moduleStateReady (t : Nat) (lane : Nat)
  /-- I2C_TRANSACTION_DONE (R81). -/
  | i2cTransactionDone (t : Nat) (i2c : Nat) (ok : Bool) (data : List Byte)
  /-- TETHER_LINK_UP (R301). -/
  | tetherLinkUp (t : Nat)
  /-- TETHER_LINK_DOWN (R317). -/
  | tetherLinkDown (t : Nat) (lane : Nat)
  /-- HELLO_SEND (R299). -/
  | helloSend (t : Nat)
  /-- HELLO_RECEIVE (R301). -/
  | helloReceive (t : Nat) (body : List Byte) (latency : Nat)
  /-- HEARTBEAT_SEND (R299). -/
  | heartbeatSend (t : Nat)
  /-- HEARTBEAT_RECEIVE (R307). -/
  | heartbeatReceive (t : Nat) (msg : TMsg)
  /-- CONTACT_LOST (R313). -/
  | contactLost (t : Nat)
  /-- SENT_REPORT_SEND (R49). -/
  | sentReportSend (t : Nat)
  /-- SENT_RECEIVE (R306). -/
  | sentReceive (t : Nat) (msg : TMsg)
  /-- SENT_REPORT_TIMEOUT (R306). -/
  | sentReportTimeout (t : Nat)
  /-- RECEIPT_RECEIVE (R308). -/
  | receiptReceive (t : Nat) (msg : TMsg)
  /-- DISPUTE_WINDOW_CLOSE (R308). -/
  | disputeWindowClose (t : Nat)
  /-- DISPUTE_RECEIVE (R309). -/
  | disputeReceive (t : Nat) (msg : TMsg)
  /-- MIRROR_RECEIVE (R305). -/
  | mirrorReceive (t : Nat) (msg : TMsg)
  /-- MIRROR_TIMEOUT (R305). -/
  | mirrorTimeout (t : Nat)
  /-- CONTROL_RECEIVE (R306). -/
  | controlReceive (t : Nat) (msg : TMsg)
  /-- HEALTH_SEND (R311). -/
  | healthSend (t : Nat) (corrected : Nat) (uncorrectable : Nat)
  /-- HEALTH_RECEIVE (R311). -/
  | healthReceive (t : Nat) (msg : TMsg)
  /-- SNAPSHOT_RECEIVE (R319). -/
  | snapshotReceive (t : Nat) (seq : Nat) (data : Snapshot)
  /-- TETHER_ECHO (R298). -/
  | tetherEcho (t : Nat) (latency : Nat)
  /-- PULSE_PATTERN (R302). -/
  | pulsePattern (t : Nat) (pattern : Nat)
  /-- PULSE_TIMEOUT (R302). -/
  | pulseTimeout (t : Nat)
  /-- WITNESS_VERDICT (R303). -/
  | witnessVerdict (t : Nat) (grant : Bool)
  /-- WITNESS_ABSENT (R303). -/
  | witnessAbsent (t : Nat)
  /-- START_WAIT_EXPIRY (R313). -/
  | startWaitExpiry (t : Nat)
  /-- TAKEOVER_DECISION (R316). -/
  | takeoverDecision (t : Nat)
  /-- PLANNED_SWAP_BEAT (R316). -/
  | plannedSwapBeat (t : Nat)
  /-- REVERTIVE_SWAP (R322). -/
  | revertiveSwap (t : Nat)
  /-- RESYNC_START (R319). -/
  | resyncStart (t : Nat)
  /-- STREAM_ALIGN_TIMEOUT (R319). -/
  | streamAlignTimeout (t : Nat)
  /-- SYNCHRONOUS (R319). -/
  | synchronous (t : Nat)
  /-- VIN_LOW (R52). -/
  | vinLow (t : Nat)
  /-- FINAL_REPORT_SEND (R50). -/
  | finalReportSend (t : Nat)
  /-- FREEZE_STORE_DONE (R50). -/
  | freezeStoreDone (t : Nat)
  /-- VIN_RECOVER (R52). -/
  | vinRecover (t : Nat)
  /-- VIN_FAIL (R465). -/
  | vinFail (t : Nat)
  /-- VIN_RISE (R465). -/
  | vinRise (t : Nat)
  /-- REGULATOR_GROUP_UP (R467). -/
  | regulatorGroupUp (t : Nat)
  /-- POWER_ON_RESET_RELEASE (R478). -/
  | powerOnResetRelease (t : Nat) (rolePref : Bool) (bifurcated : Bool) (patch : Option (List Byte))
  /-- PERST_ASSERT (R474). -/
  | perstAssert (t : Nat)
  /-- PERST_DEASSERT (R478). -/
  | perstDeassert (t : Nat)
  /-- SENSOR_READ (R498). -/
  | sensorRead (t : Nat) (readings : List (Option Nat))
  /-- THERMAL_POWER_OFF (R4). -/
  | thermalPowerOff (t : Nat)
  /-- COLD_RESET_START (R474). -/
  | coldResetStart (t : Nat) (rolePref : Bool) (bifurcated : Bool) (patch : Option (List Byte))
  /-- WARM_RESET_START (R475). -/
  | warmResetStart (t : Nat) (placed : Nat) (patch : Option (List Byte))
  /-- BASIN_RESET (R476). -/
  | basinReset (t : Nat) (basin : Nat)
  /-- PORT_RESET (R476). -/
  | portReset (t : Nat) (port : Nat)
  /-- INGRESS_OPEN (R480). -/
  | ingressOpen (t : Nat)
  /-- AUTO_RIPPLE_IDLE (R469). -/
  | autoRippleIdle (t : Nat) (unit : Nat)
  /-- UNIT_WAKE (R471). -/
  | unitWake (t : Nat) (unit : Nat)
  /-- UNIT_RETURN (R471). -/
  | unitReturn (t : Nat) (unit : Nat)
  /-- STEP_REACHED (R481). -/
  | stepReached (t : Nat) (unit : Nat)
  /-- CISTERN_WAKE (R473). -/
  | cisternWake (t : Nat)
  /-- CISTERN_IDLE (R473). -/
  | cisternIdle (t : Nat)
  /-- REFRESH_INTERVAL (R338). -/
  | refreshInterval (t : Nat) (channel : Nat) (slots : Nat)
  /-- MR4_READ (R339). -/
  | mr4Read (t : Nat) (channel : Nat) (rates : Nat × Nat)
  /-- OSCILLATOR_READ (R345). -/
  | oscillatorRead (t : Nat) (channel : Nat) (dqi : Nat) (dqo : Nat)
  /-- TRAINING_DONE (R343). -/
  | trainingDone (t : Nat) (channel : Nat) (ok : Bool)
  /-- FENCE_HOLDS (R350). -/
  | fenceHolds (t : Nat) (op : Nat)
  /-- FAULT_MESSAGE (R358). -/
  | faultMessage (t : Nat) (msgs : List Word64)
  /-- COALESCED (R353). -/
  | coalesced (t : Nat) (source : Nat)
  /-- DUPLICATE_MISMATCH (R366). -/
  | duplicateMismatch (t : Nat)
  /-- RECOVERY_TIME_EXPIRY (R356). -/
  | recoveryTimeExpiry (t : Nat)
  /-- LEDGER_RECORD_WRITE (R280). -/
  | ledgerRecordWrite (t : Nat)
  /-- RECORD_PENDING_TIMEOUT (R279). -/
  | recordPendingTimeout (t : Nat) (frame : Nat)
  /-- BLOCK_TIME_CLOSE (R284). -/
  | blockTimeClose (t : Nat)
  /-- SEAL_WRITE (R285). -/
  | sealWrite (t : Nat) (signed : Bool)
  /-- SEAL_DEADLINE (R285). -/
  | sealDeadline (t : Nat)
  /-- LEDGER_EXPORT (R289). -/
  | ledgerExport (t : Nat) (ring : Nat) (bad : List Nat) (desc : Option (List Byte)) (reread : Option (List Byte))
  /-- CASCADE_BEAT_SEND (R392). -/
  | cascadeBeatSend (t : Nat)
  /-- CASCADE_BEAT_RECEIVE (R392). -/
  | cascadeBeatReceive (t : Nat) (port : Nat) (msg : CMsg)
  /-- BEAT_ECHO (R392). -/
  | beatEcho (t : Nat) (roundTrip : Nat)
  /-- DISCOVER_SEND (R390). -/
  | discoverSend (t : Nat)
  /-- DISCOVER_RECEIVE (R390). -/
  | discoverReceive (t : Nat) (port : Nat) (msg : CMsg)
  /-- JOIN_RECEIVE (R390). -/
  | joinReceive (t : Nat) (port : Nat) (msg : CMsg) (certOk : Bool) (signOk : Bool)
  /-- ACCEPT_RECEIVE (R390). -/
  | acceptReceive (t : Nat) (port : Nat) (msg : CMsg) (certOk : Bool) (signOk : Bool)
  /-- REFUSE_RECEIVE (R390). -/
  | refuseReceive (t : Nat) (port : Nat) (msg : CMsg)
  /-- PUSH_RECEIVE (R395). -/
  | pushReceive (t : Nat) (port : Nat) (msg : CMsg) (data : Option Snapshot)
  /-- ACK_RECEIVE (R396). -/
  | ackReceive (t : Nat) (port : Nat) (msg : CMsg)
  /-- PUSH_RETRANSMIT (R389). -/
  | pushRetransmit (t : Nat)
  /-- PUSH_ACK_TIMEOUT (R397). -/
  | pushAckTimeout (t : Nat)
  /-- VERDICT_SEND (R401). -/
  | verdictSend (v : Heard)
  /-- VERDICT_RECEIVE (R303). -/
  | verdictReceive (t : Nat) (port : Nat) (msg : CMsg)
  /-- CASCADE_STATUS_SEND (R391). -/
  | cascadeStatusSend (t : Nat)
  /-- CASCADE_STATUS_RECEIVE (R397). -/
  | cascadeStatusReceive (t : Nat) (port : Nat) (msg : CMsg)
  /-- MEMBER_TIMEOUT (R391). -/
  | memberTimeout (t : Nat)
  /-- MANAGER_TIMEOUT (R391). -/
  | managerTimeout (t : Nat)
  /-- SEAL_NOTE_RECEIVE (R399). -/
  | sealNoteReceive (t : Nat) (port : Nat) (msg : CMsg)
  /-- CASCADE_LINK_CLOSE (R399). -/
  | cascadeLinkClose (t : Nat)
  /-- LEAVE_RECEIVE (R391). -/
  | leaveReceive (t : Nat) (port : Nat) (msg : CMsg)
  /-- STEWARD_OP_START (R383). -/
  | stewardOpStart (t : Nat) (op : Nat) (toEnd : Bool)
  /-- STEWARD_RESUME (R381). -/
  | stewardResume (t : Nat) (op : Nat)
  /-- STEWARD_WAIT_END (R374). -/
  | stewardWaitEnd (t : Nat)
  /-- POLL_OVERDUE (R379). -/
  | pollOverdue (t : Nat)
  /-- TABLE_SCRUB_TIMER (R155). -/
  | tableScrubTimer (t : Nat) (found : List (Nat × Nat × Nat × Nat))
  /-- PARITY_REREAD (R156). -/
  | parityReread (t : Nat) (basin : Nat) (addr : Nat) (again : Bool)
  /-- AGE_SWEEP (R187). -/
  | ageSweep (t : Nat) (table : Nat)
  /-- PIN_CHECK (R186). -/
  | pinCheck (t : Nat)
  /-- PATROL_SCRUB_TIMER (R346). -/
  | patrolScrubTimer (t : Nat) (groups : Nat) (data : List (Nat × Nat)) (check : List (Nat × Nat)) (toEnd : Bool)
  /-- SWAP_FLIP (R160). -/
  | swapFlip (t : Nat)
  /-- SWAP_DRAIN_DONE (R160). -/
  | swapDrainDone (t : Nat)
  /-- HELM_WATCHDOG (R424). -/
  | helmWatchdog (t : Nat) (cpu : Nat)
  /-- HELM_READY (R424). -/
  | helmReady (t : Nat)
  /-- HELM_HEARTBEAT (R409). -/
  | helmHeartbeat (t : Nat)
  /-- EVENT_VECTOR (R417). -/
  | eventVector (t : Nat) (fn : Nat)
  /-- NOP (R374). -/
  | nop (t : Nat) (ok : Bool)
  /-- MOV (R374). -/
  | mov (t : Nat) (a : BitVec 6) (b : BitVec 6) (ok : Bool)
  /-- ADD (R374). -/
  | add (t : Nat) (a : BitVec 6) (b : BitVec 6) (c : BitVec 6) (ok : Bool)
  /-- SUB (R374). -/
  | sub (t : Nat) (a : BitVec 6) (b : BitVec 6) (c : BitVec 6) (ok : Bool)
  /-- AND (R374). -/
  | and (t : Nat) (a : BitVec 6) (b : BitVec 6) (c : BitVec 6) (ok : Bool)
  /-- OR (R374). -/
  | or (t : Nat) (a : BitVec 6) (b : BitVec 6) (c : BitVec 6) (ok : Bool)
  /-- XOR (R374). -/
  | xor (t : Nat) (a : BitVec 6) (b : BitVec 6) (c : BitVec 6) (ok : Bool)
  /-- SHL (R374). -/
  | shl (t : Nat) (a : BitVec 6) (b : BitVec 6) (c : BitVec 6) (ok : Bool)
  /-- SHR (R374). -/
  | shr (t : Nat) (a : BitVec 6) (b : BitVec 6) (c : BitVec 6) (ok : Bool)
  /-- CMP (R374). -/
  | cmp (t : Nat) (b : BitVec 6) (c : BitVec 6) (ok : Bool)
  /-- LDI (R374). -/
  | ldi (t : Nat) (a : BitVec 6) (imm : BitVec 12) (ok : Bool)
  /-- ADDI (R374). -/
  | addi (t : Nat) (a : BitVec 6) (imm : BitVec 12) (ok : Bool)
  /-- SHLI (R374). -/
  | shli (t : Nat) (a : BitVec 6) (imm : BitVec 12) (ok : Bool)
  /-- CMPI (R374). -/
  | cmpi (t : Nat) (a : BitVec 6) (imm : BitVec 12) (ok : Bool)
  /-- BR (R374). -/
  | br (t : Nat) (a : BitVec 6) (imm : BitVec 12) (ok : Bool)
  /-- JMP (R374). -/
  | jmp (t : Nat) (b : BitVec 6) (ok : Bool)
  /-- CALL (R374). -/
  | call (t : Nat) (b : BitVec 6) (ok : Bool)
  /-- RET (R374). -/
  | ret (t : Nat) (ok : Bool)
  /-- CRC (R374). -/
  | crc (t : Nat) (a : BitVec 6) (b : BitVec 6) (c : BitVec 6) (ok : Bool)
  /-- TRD (R374). -/
  | trd (t : Nat) (a : BitVec 6) (b : BitVec 6) (c : BitVec 6) (ok : Bool)
  /-- TWR (R374). -/
  | twr (t : Nat) (a : BitVec 6) (b : BitVec 6) (c : BitVec 6) (ok : Bool)
  /-- TWAIT (R374). -/
  | twait (t : Nat) (ok : Bool)
  /-- CRD (R374). -/
  | crd (t : Nat) (a : BitVec 6) (b : BitVec 6) (ok : Bool)
  /-- CWR (R374). -/
  | cwr (t : Nat) (a : BitVec 6) (b : BitVec 6) (ok : Bool)
  /-- CWAIT (R374). -/
  | cwait (t : Nat) (ok : Bool)
  /-- RRD (R374). -/
  | rrd (t : Nat) (a : BitVec 6) (b : BitVec 6) (ok : Bool)
  /-- RWR (R374). -/
  | rwr (t : Nat) (a : BitVec 6) (b : BitVec 6) (ok : Bool)
  /-- RELOOK (R374). -/
  | relook (t : Nat) (a : BitVec 6) (b : BitVec 6) (c : BitVec 6) (ok : Bool)
  /-- SHA (R374). -/
  | sha (t : Nat) (a : BitVec 6) (b : BitVec 6) (ok : Bool)
  /-- EVWAIT (R374). -/
  | evwait (t : Nat) (a : BitVec 6) (imm : BitVec 12) (ok : Bool)
  /-- POLL (R381). -/
  | poll (t : Nat) (ok : Bool)
  /-- TOKEN (R374). -/
  | token (t : Nat) (imm : BitVec 12) (ok : Bool)
  /-- UNDO (R374). -/
  | undo (t : Nat) (imm : BitVec 12) (ok : Bool)
  /-- DONE (R374). -/
  | done (t : Nat) (a : BitVec 6) (imm : BitVec 12) (ok : Bool)
  /-- FAULT (R374). -/
  | fault (t : Nat) (a : BitVec 6) (imm : BitVec 12) (ok : Bool)
  /-- HOLD_POOL_SCRUB (R48). -/
  | holdPoolScrub (t : Nat) (stream : Nat) (seq : Nat)
  /-- PTP_MESSAGE_SEND (R104). -/
  | ptpMessageSend (t : Nat) (port : Nat) (queue : Nat) (since : Nat) (bytes : List Byte)
  /-- HEARTBEAT_TIMEOUT (R313). -/
  | heartbeatTimeout (t : Nat)
  /-- TETHER_RETRANSMIT (R299). -/
  | tetherRetransmit (t : Nat)
  /-- SEAL_NOTE_RETRANSMIT (R389). -/
  | sealNoteRetransmit (t : Nat)
  /-- CONDITION_END (R355). -/
  | conditionEnd (t : Nat) (source : Nat) (kind : Nat)
  /-- HELM_BOOT_DONE (R477). -/
  | helmBootDone (t : Nat) (markedReads : Bool) (otherReads : Bool) (release : Nat)
  /-- SERDES_CALIBRATION_DONE (R478). -/
  | serdesCalibrationDone (t : Nat)
  /-- FLASH_WRITE_DONE (R422). -/
  | flashWriteDone (t : Nat) (image : Option (List Byte)) (good : Bool) (left : List Byte)
  /-- TEST_HEADER (R312). -/
  | testHeader (t : Nat) (basin : Nat) (good : Bool)
  deriving DecidableEq, Repr

end Sys2Proof
end

