-- ==== Sys2Proof/Decode.lean ====
section
/-!
DEFINITION. Decoding. No row of spec/opcode_table.json gives bits, so no word spells a command; the Steward's microwords have their
own encoding (R373), which a patch image carries (R377), and it is written here.
-/

namespace Sys2Proof

/-- The command that a word spells by the table's bits: the table gives no row any. -/
def decodeTableWord (_nbits _w : Nat) : Option Instr := none

/-- The Steward's microwords with their fields, as the control store holds them (R374). -/
inductive Micro where
  | nop
  | mov (a : BitVec 6) (b : BitVec 6)
  | add (a : BitVec 6) (b : BitVec 6) (c : BitVec 6)
  | sub (a : BitVec 6) (b : BitVec 6) (c : BitVec 6)
  | and (a : BitVec 6) (b : BitVec 6) (c : BitVec 6)
  | or (a : BitVec 6) (b : BitVec 6) (c : BitVec 6)
  | xor (a : BitVec 6) (b : BitVec 6) (c : BitVec 6)
  | shl (a : BitVec 6) (b : BitVec 6) (c : BitVec 6)
  | shr (a : BitVec 6) (b : BitVec 6) (c : BitVec 6)
  | cmp (b : BitVec 6) (c : BitVec 6)
  | ldi (a : BitVec 6) (imm : BitVec 12)
  | addi (a : BitVec 6) (imm : BitVec 12)
  | shli (a : BitVec 6) (imm : BitVec 12)
  | cmpi (a : BitVec 6) (imm : BitVec 12)
  | br (a : BitVec 6) (imm : BitVec 12)
  | jmp (b : BitVec 6)
  | call (b : BitVec 6)
  | ret
  | crc (a : BitVec 6) (b : BitVec 6) (c : BitVec 6)
  | trd (a : BitVec 6) (b : BitVec 6) (c : BitVec 6)
  | twr (a : BitVec 6) (b : BitVec 6) (c : BitVec 6)
  | twait
  | crd (a : BitVec 6) (b : BitVec 6)
  | cwr (a : BitVec 6) (b : BitVec 6)
  | cwait
  | rrd (a : BitVec 6) (b : BitVec 6)
  | rwr (a : BitVec 6) (b : BitVec 6)
  | relook (a : BitVec 6) (b : BitVec 6) (c : BitVec 6)
  | sha (a : BitVec 6) (b : BitVec 6)
  | evwait (a : BitVec 6) (imm : BitVec 12)
  | poll
  | token (imm : BitVec 12)
  | undo (imm : BitVec 12)
  | done (a : BitVec 6) (imm : BitVec 12)
  | fault (a : BitVec 6) (imm : BitVec 12)
  deriving DecidableEq, Repr

/-- The register form of a microword: OP, A, B and C from bit 23 down (R373). -/
def formR (op : BitVec 6) (a b c : BitVec 6) : BitVec 24 := op ++ a ++ b ++ c

/-- The immediate form: OP, A and the 12 bits of IMM (R373). -/
def formI (op : BitVec 6) (a : BitVec 6) (imm : BitVec 12) : BitVec 24 := op ++ a ++ imm

def fieldOp (w : BitVec 24) : BitVec 6 := w.extractLsb' 18 6
def fieldA (w : BitVec 24) : BitVec 6 := w.extractLsb' 12 6
def fieldB (w : BitVec 24) : BitVec 6 := w.extractLsb' 6 6
def fieldC (w : BitVec 24) : BitVec 6 := w.extractLsb' 0 6
def fieldImm (w : BitVec 24) : BitVec 12 := w.extractLsb' 0 12

/-- A microword's 24 bits, with the fields it has no use for 0 (R373, R374). -/
def encodeMicro (m : Micro) : BitVec 24 :=
  match m with
  | .nop => formR 0x00 0 0 0
  | .mov a b => formR 0x01 a b 0
  | .add a b c => formR 0x02 a b c
  | .sub a b c => formR 0x03 a b c
  | .and a b c => formR 0x04 a b c
  | .or a b c => formR 0x05 a b c
  | .xor a b c => formR 0x06 a b c
  | .shl a b c => formR 0x07 a b c
  | .shr a b c => formR 0x08 a b c
  | .cmp b c => formR 0x09 0 b c
  | .ldi a imm => formI 0x0a a imm
  | .addi a imm => formI 0x0b a imm
  | .shli a imm => formI 0x0c a imm
  | .cmpi a imm => formI 0x0d a imm
  | .br a imm => formI 0x0e a imm
  | .jmp b => formR 0x0f 0 b 0
  | .call b => formR 0x10 0 b 0
  | .ret => formR 0x11 0 0 0
  | .crc a b c => formR 0x12 a b c
  | .trd a b c => formR 0x13 a b c
  | .twr a b c => formR 0x14 a b c
  | .twait => formR 0x15 0 0 0
  | .crd a b => formR 0x16 a b 0
  | .cwr a b => formR 0x17 a b 0
  | .cwait => formR 0x18 0 0 0
  | .rrd a b => formR 0x19 a b 0
  | .rwr a b => formR 0x1a a b 0
  | .relook a b c => formR 0x1b a b c
  | .sha a b => formR 0x1c a b 0
  | .evwait a imm => formI 0x1d a imm
  | .poll => formI 0x1e 0 0
  | .token imm => formI 0x1f 0 imm
  | .undo imm => formI 0x20 0 imm
  | .done a imm => formI 0x21 a imm
  | .fault a imm => formI 0x22 a imm

/-- The microword that 24 bits hold; none where the opcode is invalid (R374). -/
def decodeMicro (w : BitVec 24) : Option Micro :=
  match (fieldOp w).toNat with
  | 0x00 => some .nop
  | 0x01 => some (.mov (fieldA w) (fieldB w))
  | 0x02 => some (.add (fieldA w) (fieldB w) (fieldC w))
  | 0x03 => some (.sub (fieldA w) (fieldB w) (fieldC w))
  | 0x04 => some (.and (fieldA w) (fieldB w) (fieldC w))
  | 0x05 => some (.or (fieldA w) (fieldB w) (fieldC w))
  | 0x06 => some (.xor (fieldA w) (fieldB w) (fieldC w))
  | 0x07 => some (.shl (fieldA w) (fieldB w) (fieldC w))
  | 0x08 => some (.shr (fieldA w) (fieldB w) (fieldC w))
  | 0x09 => some (.cmp (fieldB w) (fieldC w))
  | 0x0a => some (.ldi (fieldA w) (fieldImm w))
  | 0x0b => some (.addi (fieldA w) (fieldImm w))
  | 0x0c => some (.shli (fieldA w) (fieldImm w))
  | 0x0d => some (.cmpi (fieldA w) (fieldImm w))
  | 0x0e => some (.br (fieldA w) (fieldImm w))
  | 0x0f => some (.jmp (fieldB w))
  | 0x10 => some (.call (fieldB w))
  | 0x11 => some .ret
  | 0x12 => some (.crc (fieldA w) (fieldB w) (fieldC w))
  | 0x13 => some (.trd (fieldA w) (fieldB w) (fieldC w))
  | 0x14 => some (.twr (fieldA w) (fieldB w) (fieldC w))
  | 0x15 => some .twait
  | 0x16 => some (.crd (fieldA w) (fieldB w))
  | 0x17 => some (.cwr (fieldA w) (fieldB w))
  | 0x18 => some .cwait
  | 0x19 => some (.rrd (fieldA w) (fieldB w))
  | 0x1a => some (.rwr (fieldA w) (fieldB w))
  | 0x1b => some (.relook (fieldA w) (fieldB w) (fieldC w))
  | 0x1c => some (.sha (fieldA w) (fieldB w))
  | 0x1d => some (.evwait (fieldA w) (fieldImm w))
  | 0x1e => some .poll
  | 0x1f => some (.token (fieldImm w))
  | 0x20 => some (.undo (fieldImm w))
  | 0x21 => some (.done (fieldA w) (fieldImm w))
  | 0x22 => some (.fault (fieldA w) (fieldImm w))
  | _ => none

end Sys2Proof
end

