-- ==== Sys2Proof/Config.lean ====
section
/-!
DEFINITION. What a particular device fixes, and the free values: constants without a body, so that nothing can be
proved about which value they have (assumption log 7).
-/

namespace Sys2Proof.Config

/-- A free value: the spec gives the effect and leaves this value open. Each use reads the next index. -/
opaque freeValue : Nat → Word64

/-- SERIAL of `device.identify`: 16 bytes, ASCII, zero-padded (R420). -/
opaque serial : Nat → Byte

/-- PACKING of `device.identify`, "T" or "S": true for "T" (R3, R420). -/
opaque packingTray : Bool

/-- The Steward's ROM: 16,384 words of 24 bits (R375). -/
opaque rom : Nat → BitVec 24

/-- The Hold address at which the Field Vector of a stream's frame stands, by stream and sequence (R374). -/
opaque holdAddress : Nat → Nat → Word64

/-- ROM_ID, the Steward ROM identifier (R420). -/
opaque romId : BitVec 32

/-- BOOT_COUNT kept in flash: cold boots since manufacture, at the reset the model starts from (R285). -/
opaque bootCount : BitVec 32

/-- Whether a punt that comes before its turn at 20 Mpps, by some ticks, is within the rate still: the spec names no window (R443). -/
opaque puntFits : Nat → Bool

/-- LPM nodes that the node store of a Basin has room for (R151, R152). -/
opaque lpmRoom : BitVec 24

/-- The Grotto's ECDSA P-256 signature r and s over a message (R286, R288); the private key never leaves the
Grotto, so the values are unknown. -/
opaque signR : List Byte → BitVec 256
opaque signS : List Byte → BitVec 256

/-- Whether a firmware or patch image carries a valid signature of the key in ROM (R377, R422). -/
opaque imageSigned : List Byte → Bool

/-- What the certificates of the device chain hold that the spec does not give, by certificate (0 device, 1 intermediate, 2 root):
serial number, start of validity, the rest of the subject's name, public key, extensions, signature (R288). -/
opaque certSerial : Nat → BitVec 64
opaque certFrom : Nat → List Byte
opaque certName : Nat → List Byte
opaque certUntil : Nat → List Byte
opaque certKey : Nat → BitVec 512
opaque certMore : Nat → List Byte
opaque certSignR : Nat → BitVec 256
opaque certSignS : Nat → BitVec 256

/-- The 16-bit check word of a 64-bit data word under the DEC-TED code, whose equations the spec does not give (R26, R328). -/
opaque checkWord : Word64 → BitVec 16

/-- What the code makes of a stored data word in which four or more of the 80 bits have flipped, by the word and the flips: another word, or
none where it detects them (R347). -/
opaque misread : Word64 → Nat → Option Word64

/-- What a master gets with the mark "uncorrectable" for a byte of the Cistern, by usable address (R331). -/
opaque unreadable : Nat → Byte

/-- How far a device's fused ingress and egress fixed delays of a mode and FEC lie from the typical value: ticks plus 16,
so never more than 16 either way (R76). -/
opaque fuseIn : Nat → Nat → Fin 33
opaque fuseEg : Nat → Nat → Fin 33

end Sys2Proof.Config
end

