-- ==== Sys2Proof/Machine/Operands.lean ====
section
/-!
DEFINITION. How the fields of requests, descriptors, images, records and frames are read from bytes and
written to bytes: little-endian in host memory and the Cistern, network order inside a packet (R6).
-/

namespace Sys2Proof.Machine

/-- The byte at an offset, as a number; bytes past the end read 0 (R411, R12). -/
def byteAt (bs : List Byte) (o : Nat) : Nat := (bs.getD o 0).toNat

/-- `n` bytes from an offset, the least significant first (R6). -/
def leAt (bs : List Byte) (o : Nat) : Nat → Nat
  | 0 => 0
  | n + 1 => byteAt bs o + 256 * leAt bs (o + 1) n

def u8 (bs : List Byte) (o : Nat) : Nat := byteAt bs o
def u16 (bs : List Byte) (o : Nat) : Nat := leAt bs o 2
def u32 (bs : List Byte) (o : Nat) : Nat := leAt bs o 4
def u64 (bs : List Byte) (o : Nat) : Nat := leAt bs o 8

/-- `n` bytes of `v`, the least significant first (R6). -/
def le : (n : Nat) → Nat → List Byte
  | 0, _ => []
  | n + 1, v => BitVec.ofNat 8 v :: le n (v / 256)

/-- `n` bytes of `v` in network order (R6). -/
def be (n v : Nat) : List Byte := (le n v).reverse

/-- The number that bytes spell in network order. -/
def beNat (bs : List Byte) : Nat := bs.foldl (fun a b => a * 256 + b.toNat) 0

/-- `n` bytes from an offset; bytes past the end are 0. -/
def slice (bs : List Byte) (o n : Nat) : List Byte :=
  let s := (bs.drop o).take n
  s ++ List.replicate (n - s.length) 0

/-- `n` bytes from an offset in network order. -/
def beAt (bs : List Byte) (o n : Nat) : Nat := beNat (slice bs o n)

/-- Bytes padded with zeros, or cut, to a length. -/
def padTo (n : Nat) (bs : List Byte) : List Byte := slice bs 0 n

/-- All `n` bytes from an offset are 0 (a field marked Reserved or "Must be 0", R503). -/
def zerosAt (bs : List Byte) (o n : Nat) : Bool := leAt bs o n == 0

/-- A field of `w` bits read as two's complement. -/
def signed (w n : Nat) : Int := if n % 2 ^ w < 2 ^ (w - 1) then (n % 2 ^ w : Nat) else ((n % 2 ^ w : Nat) : Int) - (2 ^ w : Nat)

/-- The `w`-bit two's complement code of a number. -/
def unsigned (w : Nat) (i : Int) : Nat := (i % ((2 ^ w : Nat) : Int)).toNat

/-- Bits [hi:lo] of a number (R6). -/
def bitsOf (n hi lo : Nat) : Nat := n / 2 ^ lo % 2 ^ (hi + 1 - lo)

/-- Bit `i` of a number (R6). -/
def bitOf (n i : Nat) : Bool := n / 2 ^ i % 2 == 1

/-- A flag as a number. -/
def b2n (b : Bool) : Nat := if b then 1 else 0

/-- A field whose range excludes 0 and that states a default: 0 means the default (R502). -/
def orDefault (v dflt : Nat) : Nat := if v == 0 then dflt else v

/-- `lo ≤ v ≤ hi`. -/
def within (v lo hi : Nat) : Bool := decide (lo ≤ v) && decide (v ≤ hi)

/-- A bytes list with the bytes from an offset replaced (the list grows with zeros where needed). -/
def overwrite (bs : List Byte) (o : Nat) (new : List Byte) : List Byte :=
  padTo (max bs.length o) bs |>.take o |> (· ++ new ++ bs.drop (o + new.length))

/-- Ceiling division. -/
def ceilDiv (a b : Nat) : Nat := (a + b - 1) / b

/-- Insert into a list sorted by a key, after equal keys. -/
def insertBy {α : Type} (key : α → Nat) (x : α) : List α → List α
  | [] => [x]
  | y :: ys => if key x < key y then x :: y :: ys else y :: insertBy key x ys

/-- A list sorted by a key; equal keys keep their order. -/
def sortBy {α : Type} (key : α → Nat) (xs : List α) : List α := xs.foldl (fun acc x => insertBy key x acc) []

end Sys2Proof.Machine
end

