-- ==== Sys2Proof/Machine/Crypto.lean ====
section
/-!
DEFINITION. The standard functions the spec names: CRC-32 of IEEE 802.3 and CRC-32C, CRC-16/CCITT-FALSE, SHA-256 and
SipHash-2-4; and the certificates of the device chain (R288).
-/

namespace Sys2Proof.Machine

-- CRC -----------------------------------------------------------------------------------------------------------

/-- One bit of a reflected CRC. -/
def crcBit (poly c : Nat) : Nat := if c % 2 = 1 then (c / 2) ^^^ poly else c / 2

/-- One byte of a reflected 32-bit CRC. -/
def crcByte (poly c b : Nat) : Nat :=
  crcBit poly (crcBit poly (crcBit poly (crcBit poly (crcBit poly (crcBit poly (crcBit poly (crcBit poly (c ^^^ b))))))))

/-- Bytes through a reflected CRC, without the final complement. -/
def crcRun (poly c : Nat) (bs : List Byte) : Nat := bs.foldl (fun c b => crcByte poly c b.toNat) c

/-- The reflected polynomials of CRC-32 and CRC-32C. -/
def polyIeee : Nat := 0xEDB88320
def polyCast : Nat := 0x82F63B78

/-- CRC-32 of IEEE 802.3: a frame's FCS (R300). -/
def crc32 (bs : List Byte) : Nat := crcRun polyIeee 0xFFFFFFFF bs ^^^ 0xFFFFFFFF

/-- CRC-32C (R144, R300). -/
def crc32c (bs : List Byte) : Nat := crcRun polyCast 0xFFFFFFFF bs ^^^ 0xFFFFFFFF

/-- One bit of CRC-16/CCITT-FALSE. -/
def crc16Bit (c : Nat) : Nat := if c / 0x8000 % 2 = 1 then (c * 2 % 0x10000) ^^^ 0x1021 else c * 2 % 0x10000

/-- CRC-16/CCITT-FALSE (R94). -/
def crc16 (bs : List Byte) : Nat :=
  bs.foldl (fun c b => (fun f x => f (f (f (f (f (f (f (f x)))))))) crc16Bit (c ^^^ (b.toNat * 256))) 0xFFFF

-- SHA-256 (FIPS 180-4) -----------------------------------------------------------------------------------------------

def w32 (n : Nat) : Nat := n % 4294967296

/-- A right rotation of a 32-bit word. -/
def rotr (n x : Nat) : Nat := (x / 2 ^ n) ||| w32 (x * 2 ^ (32 - n))

def shaK : List Nat :=
  [0x428A2F98, 0x71374491, 0xB5C0FBCF, 0xE9B5DBA5, 0x3956C25B, 0x59F111F1, 0x923F82A4, 0xAB1C5ED5,
   0xD807AA98, 0x12835B01, 0x243185BE, 0x550C7DC3, 0x72BE5D74, 0x80DEB1FE, 0x9BDC06A7, 0xC19BF174,
   0xE49B69C1, 0xEFBE4786, 0x0FC19DC6, 0x240CA1CC, 0x2DE92C6F, 0x4A7484AA, 0x5CB0A9DC, 0x76F988DA,
   0x983E5152, 0xA831C66D, 0xB00327C8, 0xBF597FC7, 0xC6E00BF3, 0xD5A79147, 0x06CA6351, 0x14292967,
   0x27B70A85, 0x2E1B2138, 0x4D2C6DFC, 0x53380D13, 0x650A7354, 0x766A0ABB, 0x81C2C92E, 0x92722C85,
   0xA2BFE8A1, 0xA81A664B, 0xC24B8B70, 0xC76C51A3, 0xD192E819, 0xD6990624, 0xF40E3585, 0x106AA070,
   0x19A4C116, 0x1E376C08, 0x2748774C, 0x34B0BCB5, 0x391C0CB3, 0x4ED8AA4A, 0x5B9CCA4F, 0x682E6FF3,
   0x748F82EE, 0x78A5636F, 0x84C87814, 0x8CC70208, 0x90BEFFFA, 0xA4506CEB, 0xBEF9A3F7, 0xC67178F2]

def shaInit : List Nat :=
  [0x6A09E667, 0xBB67AE85, 0x3C6EF372, 0xA54FF53A, 0x510E527F, 0x9B05688C, 0x1F83D9AB, 0x5BE0CD19]

/-- The message schedule, newest word first, extended by `n` words. -/
def shaExtend : Nat → List Nat → List Nat
  | 0, w => w
  | n + 1, w =>
    let w2 := w.getD 1 0; let w7 := w.getD 6 0; let w15 := w.getD 14 0; let w16 := w.getD 15 0
    let s0 := rotr 7 w15 ^^^ rotr 18 w15 ^^^ (w15 / 8)
    let s1 := rotr 17 w2 ^^^ rotr 19 w2 ^^^ (w2 / 1024)
    shaExtend n (w32 (w16 + s0 + w7 + s1) :: w)

/-- The rounds over the schedule and the constants. -/
def shaRounds : List Nat → List Nat → Nat → Nat → Nat → Nat → Nat → Nat → Nat → Nat → List Nat
  | w :: ws, k :: ks, a, b, c, d, e, f, g, h =>
    let t1 := w32 (h + (rotr 6 e ^^^ rotr 11 e ^^^ rotr 25 e) + ((e &&& f) ^^^ ((e ^^^ 0xFFFFFFFF) &&& g)) + k + w)
    let t2 := w32 ((rotr 2 a ^^^ rotr 13 a ^^^ rotr 22 a) + ((a &&& b) ^^^ (a &&& c) ^^^ (b &&& c)))
    shaRounds ws ks (w32 (t1 + t2)) a b c (w32 (d + t1)) e f g
  | _, _, a, b, c, d, e, f, g, h => [a, b, c, d, e, f, g, h]

/-- Sixteen 32-bit words of a 64-byte block. -/
def shaWords (b : List Byte) : List Nat := (List.range 16).map fun i => beAt b (4 * i) 4

/-- One compression: the eight chaining words and a 64-byte block. -/
def shaCompress (h : List Nat) (block : List Byte) : List Nat :=
  let ws := (shaExtend 48 (shaWords block).reverse).reverse
  let r := shaRounds ws shaK (h.getD 0 0) (h.getD 1 0) (h.getD 2 0) (h.getD 3 0) (h.getD 4 0) (h.getD 5 0) (h.getD 6 0) (h.getD 7 0)
  (h.zip r).map fun (x, y) => w32 (x + y)

/-- Blocks of 64 bytes through the compression; `n` bounds their number. -/
def shaBlocks : Nat → List Nat → List Byte → List Nat
  | 0, h, _ => h
  | n + 1, h, b => shaBlocks n (shaCompress h (b.take 64)) (b.drop 64)

/-- SHA-256 of a byte string, 32 bytes. -/
def sha256 (m : List Byte) : List Byte :=
  let len := m.length
  let pad := (119 - len % 64) % 64
  let full := m ++ [0x80#8] ++ List.replicate pad 0 ++ be 8 (8 * len)
  (shaBlocks (full.length / 64) shaInit full).flatMap fun x => be 4 x

-- SipHash-2-4 ----------------------------------------------------------------------------------------------------------

def w64 (n : Nat) : Nat := n % 18446744073709551616

/-- A left rotation of a 64-bit word. -/
def rotl64 (n x : Nat) : Nat := w64 (x * 2 ^ n) ||| (x / 2 ^ (64 - n))

/-- One SipRound over the four words. -/
def sipRound (v : Nat × Nat × Nat × Nat) : Nat × Nat × Nat × Nat :=
  let (v0, v1, v2, v3) := v
  let v0 := w64 (v0 + v1); let v1 := rotl64 13 v1 ^^^ v0; let v0 := rotl64 32 v0
  let v2 := w64 (v2 + v3); let v3 := rotl64 16 v3 ^^^ v2
  let v0 := w64 (v0 + v3); let v3 := rotl64 21 v3 ^^^ v0
  let v2 := w64 (v2 + v1); let v1 := rotl64 17 v1 ^^^ v2; let v2 := rotl64 32 v2
  (v0, v1, v2, v3)

def sipWord (v : Nat × Nat × Nat × Nat) (m : Nat) : Nat × Nat × Nat × Nat :=
  let (v0, v1, v2, v3) := sipRound (sipRound (v.1, v.2.1, v.2.2.1, v.2.2.2 ^^^ m))
  (v0 ^^^ m, v1, v2, v3)

/-- Whole 8-byte words of a message; `n` of them. -/
def sipWords : Nat → Nat × Nat × Nat × Nat → List Byte → Nat × Nat × Nat × Nat
  | 0, v, _ => v
  | n + 1, v, b => sipWords n (sipWord v (leAt b 0 8)) (b.drop 8)

/-- SipHash-2-4 under a 16-byte key. -/
def sipHash (key m : List Byte) : Nat :=
  let k0 := leAt key 0 8; let k1 := leAt key 8 8
  let v := (k0 ^^^ 0x736F6D6570736575, k1 ^^^ 0x646F72616E646F6D, k0 ^^^ 0x6C7967656E657261, k1 ^^^ 0x7465646279746573)
  let n := m.length / 8
  let v := sipWords n v m
  let last := leAt (m.drop (8 * n)) 0 7 + m.length % 256 * 2 ^ 56
  let v := sipWord v last
  let (v0, v1, v2, v3) := v
  let v := sipRound (sipRound (sipRound (sipRound (v0, v1, v2 ^^^ 0xFF, v3))))
  v.1 ^^^ v.2.1 ^^^ v.2.2.1 ^^^ v.2.2.2

-- The device chain (R288, R294; X.509 v3 in DER, log 113) --------------------------------------------------------------------

/-- A DER element: its tag, its length and its contents. -/
def der (tag : Nat) (body : List Byte) : List Byte :=
  let n := body.length
  (if n < 128 then [BitVec.ofNat 8 tag, BitVec.ofNat 8 n] else if n < 256 then [BitVec.ofNat 8 tag, 0x81#8, BitVec.ofNat 8 n]
    else [BitVec.ofNat 8 tag, 0x82#8] ++ be 2 n) ++ body

/-- A DER integer of at most 32 bytes that is not negative. -/
def derInt (n : Nat) : List Byte :=
  let bs := (be 33 n).dropWhile (· == 0)
  der 0x02 (match bs with
    | [] => [0#8]
    | b :: _ => if b.toNat < 128 then bs else 0#8 :: bs)

/-- The algorithm ecdsa-with-SHA256 (R288). -/
def derEcdsa : List Byte := der 0x30 (der 0x06 [0x2A, 0x86, 0x48, 0xCE, 0x3D, 0x04, 0x03, 0x02])

/-- The subject of a certificate: the device's has the serial number that `device.identify` reports (R288). -/
def certSubject (i : Nat) : List Byte :=
  let serial := ((List.range 16).map Config.serial).takeWhile (· != 0)
  der 0x30 ((if i = 0 then der 0x31 (der 0x30 (der 0x06 [0x55, 0x04, 0x05] ++ der 0x13 serial)) else []) ++ Config.certName i)

/-- 99991231235959Z, the end of the device certificate's validity (R288, RFC 5280). -/
def noExpiry : List Byte := [0x39, 0x39, 0x39, 0x39, 0x31, 0x32, 0x33, 0x31, 0x32, 0x33, 0x35, 0x39, 0x35, 0x39, 0x5A]

/-- A public key of the curve P-256 (R288). -/
def derKey (xy : BitVec 512) : List Byte :=
  der 0x30 (der 0x30 (der 0x06 [0x2A, 0x86, 0x48, 0xCE, 0x3D, 0x02, 0x01] ++ der 0x06 [0x2A, 0x86, 0x48, 0xCE, 0x3D, 0x03, 0x01, 0x07])
    ++ der 0x03 ([0x00, 0x04] ++ be 64 xy.toNat))

/-- What a certificate's issuer signs: it names the next of the chain as its issuer, the root itself (R288). -/
def certBody (i : Nat) : List Byte :=
  der 0x30 (der 0xA0 (derInt 2) ++ derInt (Config.certSerial i).toNat ++ derEcdsa ++ certSubject (min 2 (i + 1))
    ++ der 0x30 (Config.certFrom i ++ (if i = 0 then der 0x18 noExpiry else Config.certUntil i))
    ++ certSubject i ++ derKey (Config.certKey i) ++ der 0xA3 (Config.certMore i))

/-- The certificates of the device chain in DER form: 0 device, 1 intermediate, 2 root (R288, R294). -/
def certificate (i : Nat) : List Byte :=
  der 0x30 (certBody i ++ derEcdsa
    ++ der 0x03 (0x00 :: der 0x30 (derInt (Config.certSignR i).toNat ++ derInt (Config.certSignS i).toNat)))

end Sys2Proof.Machine
end

