-- ==== Sys2Proof/Machine/State.lean ====
section
/-!
DEFINITION. The state of the YLS-5120: every register, table, queue, buffer, counter, mode and pin the spec gives
it, as plain data. Each field's docstring names its width, the rule of spec/ that gives it and its reset value; a
structure's default values are its values after a cold reset, so that `{}` is that part of the device at reset.
-/

namespace Sys2Proof.Machine

-- HELM, MAILBOXES, EVENTS, TICKETS --------------------------------------------------------------------------

/-- One mailbox (R410, R411; 17_helm_mailboxes.md). -/
structure Box where
  /-- MBOX.CMD; 32 bits: OPCODE [15:0], TAG [31:16]; R410; reset 0 -/
  cmd : Nat := 0
  /-- MBOX.LEN.REQ_LEN; 13 bits; R410; reset 0 -/
  len : Nat := 0
  /-- MBOX.STATE.STATE: 0 IDLE, 1 BUSY, 2 DONE; 2 bits; R410; reset 0 -/
  state : Nat := 0
  /-- MBOX.STATE.DB_IGNORED; 1 bit; R410; reset 0 -/
  dbIgnored : Bool := false
  /-- MBOX.STATE.TAG; 16 bits; R410; reset 0 -/
  tag : Nat := 0
  /-- OPCODE as Helm copied it at the doorbell; 16 bits; R411; reset 0 (DESIGN CHOICE, log 6) -/
  opcode : Nat := 0
  /-- MBOX.RESULT.RESP_LEN; 13 bits; R410; reset 0 -/
  respLen : Nat := 0
  /-- MBOX.RESULT.STATUS; 16 bits; R410; reset 0 -/
  status : Nat := 0
  /-- Request area; 4 KiB; R410; reset zeros (DESIGN CHOICE, log 6) -/
  reqArea : List Byte := []
  /-- The request as Helm took it: REQ_LEN bytes of the request area, locked from the doorbell on; R411; reset empty -/
  req : List Byte := []
  /-- Response area; 4 KiB; R410; reset zeros (bytes beyond RESP_LEN read 0, R411) -/
  respArea : List Byte := []
  /-- The command of a BUSY mailbox was taken before Helm stopped (R425); 1 bit; reset 0 -/
  taken : Bool := false
  /-- When the doorbell of a BUSY mailbox arrived, which orders its command among those that change state; the clock; R412; reset 0 -/
  rang : Nat := 0
  deriving DecidableEq, Repr

/-- An event record before Helm gives it its SEQ (R416; 17_helm_mailboxes.md). -/
structure EvRec where
  code : Nat
  subject : Nat
  stamp : Stamp
  detail : Nat
  ext : List Byte
  deferred : Bool
  deriving DecidableEq, Repr

/-- What one PCIe function holds (R408, R416 to R418; 17_helm_mailboxes.md). -/
structure Fn where
  /-- RING of `event.configure`; 16 bits, none = 0xFFFF; R421; reset none -/
  evRing : Option Nat := none
  /-- Queue of event records not yet written, oldest first; up to 4,096 records; R417; reset empty -/
  evq : List EvRec := []
  /-- Event records discarded and not yet reported by EVENTS_LOST; R417; reset 0 -/
  evLost : Nat := 0
  /-- SEQ of the next event record of this ring; 32 bits; R416; reset 0 -/
  evSeq : Nat := 0
  /-- Records written and not yet told by the EVENT vector; R417; reset 0 -/
  evWritten : Nat := 0
  /-- Instant of the latest EVENT vector; R417; reset none -/
  evTold : Option Nat := none
  /-- TIME.SNAP_CTRL.SEL; 1 bit; R112, 04_time.md; reset 0 -/
  snapSel : Nat := 0
  /-- TIME.SNAP_CTRL.VALID; 1 bit; R112; reset 0 -/
  snapValid : Bool := false
  /-- TIME.SNAP_TICKS, _BQP: the latched stamp; 96 bits; R112; reset TICKS 0, BOUND 0xFFFF, QUAL 0x04, PLANE 0x4A -/
  snap : Stamp := { ticks := 0, bound := 0xFFFF, qual := 0x04, plane := 0x4A }
  /-- TIME.SNAP_SEQ.COUNT; 32 bits; R112; reset 0, kept across a warm reset -/
  snapSeq : Nat := 0
  /-- The pair latch of the BAR2 window; 32 bits; R454, 19_counters.md; reset 0 -/
  pairLatch : Nat := 0
  deriving DecidableEq, Repr

/-- A ticket (R415; 17_helm_mailboxes.md). -/
structure Ticket where
  num : Nat
  fn : Nat
  deriving DecidableEq, Repr

/-- A completed ticket: its number and 32 completion bytes (R415, R423). -/
structure DoneTicket where
  num : Nat
  bytes : List Byte
  deriving DecidableEq, Repr

/-- One flash bank (R422, R490): the image written to it, none for the image it left the factory with. -/
structure Bank where
  image : Option (List Byte) := none
  deriving DecidableEq, Repr

/-- Helm (17_helm_mailboxes.md). -/
structure Helm where
  /-- HELM.STATUS.STATE: 0 BOOTING, 1 READY, 2 RESTARTING, 3 HALTED; 3 bits; R409; reset 0 -/
  state : Nat := 0
  /-- HELM.STATUS.BIFURCATED, the strap; 1 bit; R408, R409; reset "Strap": 0 (DESIGN CHOICE, log 6) -/
  bifurcated : Bool := false
  /-- HELM.STATUS.RESTARTS; 8 bits, saturating; R409; reset 0, kept across a warm reset -/
  restarts : Nat := 0
  /-- HELM.STATUS.FW_RELEASE; 16 bits; R1, R409; reset 0, 0x0301 once release 3.1 runs -/
  fwRelease : Nat := 0
  /-- HELM.HEARTBEAT.COUNT; 32 bits; R409; reset 0 -/
  heartbeat : Nat := 0
  /-- Cold boots counted since the model's start, added to the flash's BOOT_COUNT; R285; reset 0 -/
  boots : Nat := 0
  /-- Flash bank 0; 30 MiB; R422, R490; kept across resets -/
  bank0 : Bank := {}
  /-- Flash bank 1; 30 MiB; R422, R490; kept across resets -/
  bank1 : Bank := {}
  /-- Bank that runs; 1 bit; R422; reset 0 (DESIGN CHOICE, log 6) -/
  running : Nat := 0
  /-- Bank marked for the next reset; 1 bit; R422; reset 0 (DESIGN CHOICE, log 6) -/
  marked : Nat := 0
  /-- Open `firmware.update`: ticket, address and length; R422; reset none -/
  update : Option (Nat × Nat × Nat) := none
  /-- Instants of watchdog expiries within the last 600 s; R424; reset none -/
  expiries : List Nat := []
  /-- Next ticket number; 32 bits; R415; reset 1 -/
  nextTicket : Nat := 1
  /-- Open tickets; up to 1,024; R415; reset empty -/
  open_ : List Ticket := []
  /-- The latest completed tickets, newest first; up to 4,096; R415; reset empty -/
  done : List DoneTicket := []
  deriving DecidableEq, Repr

-- WHAT LEAVES THE DEVICE --------------------------------------------------------------------------------------

/-- What the device sends out in a step (assumption log 3). -/
inductive Emission where
  /-- an MSI-X message of a function and vector (R418) -/
  | msix (fn vector : Nat)
  /-- a write to host memory by function, address, attributes and bytes (R432, R435, R439) -/
  | hostWrite (fn addr : Nat) (relaxed noSnoop : Bool) (bytes : List Byte)
  /-- the data a register or counter read returned (R11) -/
  | readData (fn off : Nat) (bytes : List Byte)
  /-- a frame, or the part of a stomped frame, on a Port's wire: bytes from DA, the FCS as sent, and whether it ends stomped (R204) -/
  | wire (port : Nat) (bytes : List Byte) (fcs : Nat) (stomped : Bool)
  /-- the part of a frame that had left when its link was lost, which ends in an error control block (R72), or when its transmitter was
  switched off (R50); no FCS -/
  | cut (port : Nat) (bytes : List Byte) (block : Bool)
  /-- a Tether message: subtype, number, SENT_TICKS and body (R299) -/
  | tether (subtype seq sent : Nat) (body : List Byte)
  /-- a snapshot on the Tether: its number, SENT_TICKS and data (R319) -/
  | snapshot (seq sent : Nat) (data : Snapshot)
  /-- a Cascade message on a FABRIC Port (R389) -/
  | cascade (port : Nat) (msg : CMsg)
  /-- a PUSH that carries the programmed table set: its message, whose body is empty, and the data (R397) -/
  | pushTables (port : Nat) (msg : CMsg) (data : Snapshot)
  /-- an I2C transaction on a master: cage, bank, page, offset, and the bytes written or the count read (R79, R81, R85) -/
  | i2c (master cage bank page offset : Nat) (write : List Byte) (read : Nat)
  /-- a byte string on TOD_TX (R111) -/
  | tod (bytes : List Byte)
  /-- an edge of PPS_OUT at a tick of device time (R111) -/
  | pps (rise : Nat) (fall : Nat)
  deriving DecidableEq, Repr

-- THE COLLECTOR (14_collector.md) -----------------------------------------------------------------------------

/-- One fault reporter (R353). -/
structure Reporter where
  /-- Messages waiting, oldest first; 16 and the kept first of each kind; R353; reset empty -/
  queue : List Word64 := []
  /-- Messages counted while full; R353; reset 0 -/
  dropped : Nat := 0
  deriving DecidableEq, Repr

/-- One class's threshold and window (R357). -/
structure Class where
  /-- CLASS_CFG.N; 8 bits; R370; reset 1, kept across a warm reset -/
  n : Nat := 1
  /-- CLASS_CFG.W_US; 24 bits; R370; reset 1,000,000, kept across a warm reset -/
  w : Nat := 1000000
  /-- CLASS_COUNT.COUNT; 32 bits, saturating; R358; reset 0 -/
  count : Nat := 0
  /-- Opening instant of the open window; R357; reset none -/
  openAt : Option Nat := none
  /-- Messages counted in the open window; R357; reset 0 -/
  seen : Nat := 0
  deriving DecidableEq, Repr

/-- SRC_INFO of one source (14_collector.md, register map). -/
structure SrcInfo where
  /-- COUNT; 16 bits, saturating; R358; reset 0 -/
  count : Nat := 0
  /-- REFUSED; 8 bits, saturating; R365; reset 0 -/
  refused : Nat := 0
  /-- LAST_KIND; 6 bits; R358; reset 0 -/
  lastKind : Nat := 0
  deriving DecidableEq, Repr

/-- The Collector (14_collector.md). -/
structure Collector where
  /-- MODE.MODE: 0 SERVICE, 1 STARTUP, 2 TEST, 3 RECOVERY; 2 bits; R356; reset 1, RECOVERY at a warm reset -/
  mode : Nat := 1
  /-- MODE.PROFILE: 0 standard, 1 largest; 1 bit; R363; reset 0 -/
  profile : Nat := 0
  /-- MODE.SELF_OK; 1 bit; R366; reset 1 -/
  selfOk : Bool := true
  /-- INT.INT_PENDING; 1 bit; R358, R362; reset 0 -/
  intPending : Bool := false
  /-- REFUSED.COUNT; 32 bits, wrapping; R365; reset 0 -/
  refused : Nat := 0
  /-- FIRST_MSG; 64 bits; R358; reset 0 -/
  firstMsg : Word64 := 0
  /-- FIRST_TICK; 64 bits; R358; reset 0 -/
  firstTick : Nat := 0
  /-- FIRST_CTRL.FIRST_VALID; 1 bit; R358; reset 0 -/
  firstValid : Bool := false
  /-- CLASS_CFG, CLASS_COUNT and windows of classes 0 to 15; R357, R370 -/
  classes : Tbl Class := []
  /-- HIST_COUNT.COUNT; 32 bits, wrapping; R364; reset 0 -/
  histCount : Nat := 0
  /-- HIST[i]: stored message and tick; 32 entries of 128 bits; R364; reset 0 -/
  hist : Tbl (Word64 × Nat) := []
  /-- STATUS bits, the sources whose bit is set; 4,096 bits; R365; reset 0 -/
  status : Tbl Bool := []
  /-- GUARD bits; 4,096 bits; R359, R361; reset 0, kept across a warm reset -/
  guard : Tbl Bool := []
  /-- PRESENT lines: the condition kinds that last at each source; 4,096 lines; R355; reset 0 -/
  present : Tbl (List Nat) := []
  /-- SRC_INFO of sources 0 to 4,095; R358; reset 0 -/
  info : Tbl SrcInfo := []
  /-- The reporters of the sources; R353; reset empty -/
  reporters : Tbl Reporter := []
  /-- RECOVERY_TIME, s; 16 bits; R356, R368; reset 10 (its stated default, R502) -/
  recoveryTime : Nat := 10
  /-- Instant at which warm-reset replay completed; R356; reset none -/
  replayDone : Option Nat := none
  deriving DecidableEq, Repr

-- FRAMES AND COPIES (01_architecture.md, 08_speculation.md) ---------------------------------------------------

/-- A frame inside the device. -/
structure Frame where
  /-- Ingress Port; 9 bits; R30 -/
  port : Nat := 0
  /-- Ingress stamp (second pass's for a recirculated frame, R31); 96 bits; R105 -/
  stamp : Stamp := {}
  /-- Capture tick before the delay subtraction; R209 -/
  cap : Nat := 0
  /-- Bytes as received from the destination address to the last byte before the FCS; R24 -/
  bytes : List Byte := []
  /-- FCS as received; 32 bits; R300 -/
  fcs : Nat := 0
  /-- Clock instant of the first bit at the MDI -/
  arrived : Nat := 0
  /-- Ticks from the MDI to the Basin: the Port's ingress delay and the crossing's 2.5 ns; R28, R74, R122; reset 0 -/
  lag : Nat := 0
  /-- Clock instant at which the start-of-frame block passes the capture point; R74, R77, R213 -/
  capAt : Nat := 0
  /-- Epoch, the generation taken at the first parse: 0 A, 1 B; R31, R161 -/
  gen : Nat := 0
  /-- Tables, graph and other copies of a recirculated frame are of the second pass; R31 -/
  pass : Nat := 1
  /-- 0 arriving, 1 walked, 2 committed, 3 failed; R198 -/
  state : Nat := 0
  /-- A second pass is due, or has begun and has not yet been walked; R129, R174 -/
  again : Bool := false
  /-- First failure that ends the frame at confirmation, as its ingress counter code; R198 -/
  doomed : Option Nat := none
  /-- Parse outcome: 0 ACCEPT, 1 EXHAUSTED, 2 MALFORMED, 3 TRUNCATED; R125 -/
  parse : Nat := 0
  /-- Deferred length checks: node, check, h and the length stated; R122 -/
  pendingChecks : List (Nat × Nat × Nat × Nat) := []
  /-- First cause of a failed confirmation, as its counter code; R198 -/
  failCode : Option Nat := none
  /-- Field Vector; 96 bytes; R118 -/
  fv : List Byte := []
  /-- Merged action: four 64-bit words; R170 -/
  action : List Nat := []
  /-- Layers the walk marked: (layer code, byte offset); R120 -/
  layers : List (Nat × Nat) := []
  /-- Policer that metered the frame and its colour: 0 green, 1 yellow, 2 red; R233 -/
  policer : Option Nat := none
  colour : Nat := 0
  /-- The frame was committed with more than one copy; R281 -/
  multi : Bool := false
  /-- Guarded stream assigned; R36 -/
  stream : Option Nat := none
  /-- Stream that a programmed action sets, configured or not; R36, R38 -/
  wants : Option Nat := none
  /-- Admitted to the guarded reserve at enqueue (false: refused at the Weir); R44, R220 -/
  reserve : Bool := true
  /-- Enqueue has been decided for the frame; R217 -/
  enqueued : Bool := false
  /-- Cells taken in the buffer of the ingress die; R214 -/
  cells : Nat := 0
  /-- Sequence assigned at the Weir; 32 bits; R39 -/
  seq : Option Nat := none
  /-- Acceptance outcome of R42 -/
  outcome : Option Nat := none
  /-- Clock instant of confirmation; R41 -/
  confirmed : Option Nat := none
  /-- Acceptance condition in force at its confirmation, on which it is judged: 1 solo, 2 pair; R41, R314 -/
  cond : Nat := 0
  /-- Hold copy written; R46 -/
  held : Bool := false
  /-- Retention write completed; R41 -/
  retained : Bool := false
  /-- DECISION digest; 32 bits; R300 -/
  decision : Nat := 0
  /-- Header digest of the ledger, none for NO_DIGEST; 48 bits; R282 -/
  digest : Option Nat := none
  /-- DIGEST_BYTES when the digest was taken, at confirmation; R282; reset 0 -/
  digestLen : Nat := 0
  /-- A FRAME record is due (R277) and the clock instant at which the outcome was known (R279) -/
  recordDue : Bool := false
  outcomeAt : Option Nat := none
  /-- FRAME record written: 0 no, 1 whole, 2 with PENDING; R279 -/
  recorded : Nat := 0
  /-- Copies of the frame: copy numbers in enqueue order -/
  copies : List Nat := []
  /-- A learn request waits on the frame's cells; R185 -/
  learning : Bool := false
  /-- Injected by an INJECT descriptor: ring and its descriptor; R442 -/
  injected : Option (Nat × Nat) := none
  /-- DET_HEADER and SPEC_OFF as its capture found them; R213 -/
  detHeader : Nat := 64
  specOff : Bool := false
  /-- Bytes of the second pass of a recirculated frame, as rewritten by the first; R174 -/
  second : Option (List Byte) := none
  /-- Deferred length checks of the first pass, which its second pass's confirmation still judges; R174 -/
  firstChecks : List (Nat × Nat × Nat × Nat) := []
  /-- MALFORMED and TRUNCATED actions of its Basin as the walk started: 0 DROP, 1 L2_ONLY, 2 PUNT; R128, R136 -/
  malAct : Nat := 0
  truncAct : Nat := 0
  /-- A drop that the frame's commit counts, as its ingress counter code, 0 where its outcome's own count says it; R128, R173,
  R177, R180, R189, R235 -/
  drop : Option Nat := none
  /-- PUNT_RATE as its walk found it: with 0 its parse punt is dropped; R130, R136 -/
  puntRate : Nat := 0
  /-- Reason of a punt that the frame's commit makes; R130, R175 -/
  punt : Option Nat := none
  /-- Counter events that only the frame's commit counts: event and instance; R173, R177, R180, R202 -/
  notes : List (Nat × Nat) := []
  /-- Classified under L2_ONLY; R129 -/
  l2 : Bool := false
  /-- A MAC control frame, which no Port forwards; R66 -/
  mac : Bool := false
  /-- A PTP message for the unit's own clock, or one that Helm sends; R103, R104 -/
  forClock : Bool := false
  /-- Refused at the Weir: no sequence and no record; R44 -/
  refused : Bool := false
  /-- Copies that are not its action's: its mirror copy (R176), and those of a lookup that a deferred check made void (R129) -/
  gone : List Nat := []
  /-- Clock instant at which the latest lookup completed; R174 -/
  lookedAt : Option Nat := none
  deriving DecidableEq, Repr

/-- A copy of a frame at the traffic manager (R24, R217). -/
structure Copy where
  /-- Frame it is a copy of -/
  frame : Nat := 0
  /-- Egress Port; 9 bits -/
  port : Nat := 0
  /-- Queue number; 16 bits; R21 -/
  queue : Nat := 0
  /-- Slot of the stream's permitted egress set; R40 -/
  slot : Option Nat := none
  /-- 0 ordinary, 1 mirror, 2 punt, 3 learn-failure flood, 4 Hold copy, 5 replay, 6 release; R201 -/
  kind : Nat := 0
  /-- 0 held, 1 released, 2 transmitting, 3 sent, 4 stomped, 5 discarded -/
  state : Nat := 0
  /-- Cut-through copy: R73 and R201 held at enqueue -/
  cut : Bool := false
  /-- Committed verdict has arrived at the egress Basin; R199 -/
  verdict : Bool := false
  /-- Enqueue tick of device time; R240 -/
  enqAt : Nat := 0
  /-- Clock instant of enqueue -/
  enqClock : Nat := 0
  /-- Egress stamp TICKS once departed; R30 step 14 -/
  departed : Option Nat := none
  /-- Clock instant of its launch at the Nozzle PCS, once started; R74, R77; reset 0 -/
  startAt : Nat := 0
  /-- Bytes as they leave, without trailer and FCS (R179) -/
  out : List Byte := []
  /-- Guard trailer flags LATE, UNEQUAL, REPLAY; R109 -/
  late : Bool := false
  unequal : Bool := false
  replay : Bool := false
  /-- Confluence group and release key of a held copy; R255 -/
  conf : Option (Nat × Nat) := none
  /-- Level Release group and due tick; R266 -/
  level : Option (Nat × Nat) := none
  /-- Counted against: 0 minimum, 1 shared, 2 guarded reserve, 3 none, its bytes coming from the Hold Pool; R46, R218, R220 -/
  part : Nat := 1
  /-- Action index of the copy's rewrite and trailer mode; R177 -/
  rewrite : Nat := 0
  trailerMode : Nat := 1
  /-- Gate list in force at the start; R238 -/
  gateStart : Nat := 0
  /-- Two-step PTP residence was taken for it; R103 -/
  residence : Option Nat := none
  /-- Launch tick T of a cut-through copy on a DETERMINISTIC Port; R209, R213 -/
  launch : Option Nat := none
  /-- The Port's transmit drivers were on when it started; R57, R297; reset 1 -/
  driven : Bool := true
  /-- Of a lookup that L2_ONLY has replaced: it is never sent; R129 -/
  void : Bool := false
  /-- Its Port was a listed member of its Level Release group at its frame's commit; R269, R274 -/
  listed : Bool := true
  /-- Step of device time between its frame's ingress stamp and its departure, which differences leave out; R99 -/
  shift : Int := 0
  /-- Not yet in its queue, which it joins at its verdict: of a frame whose ingress Port is no member of the Confluence group; R259 -/
  aside : Bool := false
  deriving DecidableEq, Repr

-- GUARDED DELIVERY (02_guarded_delivery.md) -------------------------------------------------------------------

/-- What a Hold or Retained copy needs for one slot it targets: the copy's bytes after the rewrite, its trailer mode,
and whether a Confluence or a Level Release group would hold it (R46, R315). -/
structure HoldSlot where
  slot : Nat
  out : List Byte
  trailerMode : Nat
  rewrite : Nat
  conf : Bool
  level : Option Nat
  deriving DecidableEq, Repr

/-- A Hold copy (R46): the frame as held, with the slots it targets. -/
structure Hold where
  stream : Nat
  seq : Nat
  frame : Frame
  slots : List HoldSlot
  lost : Bool := false
  deriving DecidableEq, Repr

/-- A Retained copy (R46): written once `done`. -/
structure Retain where
  stream : Nat
  seq : Nat
  frame : Frame
  slots : List HoldSlot
  /-- Offset of its first byte in the retention ring -/
  pos : Nat := 0
  done : Bool := false
  lost : Bool := false
  deriving DecidableEq, Repr

/-- Guarded delivery (02_guarded_delivery.md). -/
structure Guard where
  /-- Stream table; 65,536 streams; R37, R38; reset unconfigured -/
  streams : Tbl Stream := []
  /-- Hold Pool: Hold copies in the order written; 8 MiB; R46; reset empty -/
  holds : List Hold := []
  /-- Bytes of the Hold Pool in use; R46; reset 0 -/
  holdUsed : Nat := 0
  /-- Retention region: Retained copies in the order written; R46, R332; reset empty -/
  retains : List Retain := []
  /-- Bytes written to the retention ring since the chain start; R332; reset 0 -/
  retainUsed : Nat := 0
  /-- Guarded load bucket, bytes in 1/16 byte; burst 64 KiB; R41; reset full -/
  gbTokens : Nat := 65536 * 16
  /-- Guarded load bucket, frames in 1/40 frame; R41; reset full (log 12) -/
  ppTokens : Nat := 0
  /-- Whether the frame bucket has been filled to its burst since reset; log 12 -/
  ppPrimed : Bool := false
  /-- Clock instant of the buckets' latest update -/
  tokensAt : Nat := 0
  /-- Guarded egress frozen (SAFE_STATUS.FROZEN); 1 bit; R50; reset 0 -/
  frozen : Bool := false
  /-- Instant of the latest freeze; R50; reset none -/
  frozenAt : Option Nat := none
  /-- Acceptance suspended by a freeze, the safe state or a role; R41; reset 0 -/
  suspended : Bool := false
  /-- Last-sent table closed; R50 step 3; reset 0 -/
  closed : Bool := false
  /-- Closed table and next sequences in the retained region: stream, next, slot values; R50 step 5; reset none -/
  stored : Option (List (Nat × Nat × List Nat)) := none
  /-- The freeze's table is still being written to the Cistern; R50 step 5; reset 0 -/
  storing : Bool := false
  /-- The FINAL report of the latest freeze is still to be sent; R50 step 4; reset 0 -/
  finalDue : Bool := false
  /-- FINAL_SENT of SAFE_STATUS; 1 bit; 02_guarded_delivery.md; reset 0 -/
  finalSent : Bool := false
  /-- The freeze was caused by the supply (R52), a reset, or neither; LEAVING is driven (R302); reset 0 -/
  leaving : Bool := false
  /-- SAFE_STATUS.CAUSE, 0 when not in the safe state; 4 bits; R56; reset 0 -/
  cause : Nat := 0
  /-- SAFE_STATUS.MORE_CAUSES: causes that occurred since entry; 5 bits; R56; reset 0 -/
  more : List Nat := []
  /-- Sources whose guard-bit fault started cause 1; R365; reset none -/
  starters : List Nat := []
  /-- Slots changed since the last sent report: stream × 4 + slot; R49; reset none -/
  changed : List Nat := []
  /-- Ingress open (warm-reset replay or bring-up done); R480; reset 0 -/
  ingressOpen : Bool := false
  deriving DecidableEq, Repr

-- TIME (04_time.md) -------------------------------------------------------------------------------------------

/-- A Time Core (R86, R87). -/
structure Core where
  /-- Count, in 1/(20 × 2^40) ticks; the 64-bit count of ticks is its whole part; R86; reset 0 (DESIGN CHOICE, log 5) -/
  acc : Nat := 0
  /-- Increment fraction; signed 40 bits, 2^-40 ticks per cycle; R86; reset 0 (DESIGN CHOICE, log 6) -/
  frac : Int := 0
  /-- Phase slew, 2^-40 ticks per cycle; R87; reset 0 (DESIGN CHOICE, log 6) -/
  slew : Int := 0
  /-- Servo term of BOUND, ticks; R87, R107; reset 0 (DESIGN CHOICE, log 6) -/
  servoTerm : Nat := 0
  /-- Instant of the latest update; R87; reset 0 -/
  updated : Nat := 0
  /-- Holdover entered by the hardware (HW_HOLDOVER); R87; reset 0 -/
  hwHoldover : Bool := false
  /-- Measured deviation of 10MHZ_IN, ppb, none where absent; R94; reset none -/
  tenMhz : Option Int := none
  /-- Instant since which 10MHZ_IN has stayed within ±10 ppm; R95; reset none -/
  tenGoodSince : Option Nat := none
  deriving DecidableEq, Repr

/-- The time receiver of an island (R91 to R93). -/
structure Island where
  /-- Local counter minus the core's count, ticks, but for the slew; R92; reset 0 (DESIGN CHOICE, log 8) -/
  offset : Int := 0
  /-- Correction slewed over 256 ns, ticks; R92; reset 0 -/
  slewBy : Int := 0
  /-- Instant at which the slew began; R92; reset 0 -/
  slewFrom : Nat := 0
  /-- Instant of the latest beat; R91; reset 0 -/
  beatAt : Nat := 0
  /-- Servo term carried by the latest beat; R91, R107; reset 0 -/
  servoTerm : Nat := 0
  /-- Holdover growth carried by the latest beat, none for saturated; R100; reset none (FREERUN) -/
  growth : Option Nat := none
  /-- SUSPECT from a fault until the first good beat; R93; reset 0 -/
  suspect : Bool := false
  /-- The unit has slept since the latest beat: the next one is a full correction without BEAT_STEP; R471; reset 0 -/
  slept : Bool := false
  deriving DecidableEq, Repr

/-- One entry of the time source list (R114). -/
structure Source where
  kind : Nat
  qualify : Nat
  port : Nat
  resolve : Nat
  refAccuracy : Nat
  asymmetry : Nat
  domain : Nat
  /-- qualified; R95; reset 0 -/
  qualified : Bool := false
  /-- instant since which it has stayed qualified; R96 -/
  since : Nat := 0
  /-- it has been qualified and lost before; R96 -/
  again : Bool := false
  deriving DecidableEq, Repr

/-- A scheduled step of device time (R99, R115). -/
structure Step where
  beat : Nat
  amount : Int
  ticket : Option Nat
  /-- cores and islands that have applied it: 0, 1 for the cores -/
  appliedAt : Option Nat := none
  deriving DecidableEq, Repr

/-- Time (04_time.md). -/
structure Time where
  /-- Time Core West; R86 -/
  west : Core := {}
  /-- Time Core East; R86 -/
  east : Core := {}
  /-- Islands 0x00 to 0x4E; R27, R91 -/
  islands : Tbl Island := []
  /-- TIME.STATUS.SERVO: 0 FREERUN, 1 ACQUIRING, 2 LOCKED, 3 HOLDOVER; 2 bits; R97; reset 0 -/
  servo : Nat := 0
  /-- TIME.STATUS.SRC, the source kind in use; 3 bits; R95; reset 0 -/
  src : Nat := 0
  /-- Index of the source in use; R114; reset none -/
  entry : Option Nat := none
  /-- Time source list; up to 4; R95, R114; reset empty -/
  sources : List Source := []
  /-- A new list waits for the next servo update; R114; reset none -/
  newSources : Option (List Source) := none
  /-- WAIT_TO_RESTORE, s; 16 bits; R96, R114; reset 0 -/
  waitRestore : Nat := 0
  newWait : Nat := 0
  /-- Filtered offsets of the last 16 updates, newest first; R97; reset empty -/
  offsets : List Int := []
  /-- Updates in a row within LOCK_THRESHOLD; R97; reset 0 -/
  okRun : Nat := 0
  /-- Updates in this acquisition; R97; reset 0 -/
  updates : Nat := 0
  /-- The acquisition may still step; R98; reset 0 -/
  mayStep : Bool := false
  /-- OSC_FREQ, 0.001 ppb; none unstated; R100, R113; reset none -/
  oscFreq : Option Nat := none
  /-- OSC_AGING, 0.000001 ppb/s; none unstated; R100, R113; reset none -/
  oscAging : Option Nat := none
  /-- LOCK_THRESHOLD, ticks; R113; reset 64 -/
  lockThreshold : Nat := 64
  /-- STEP_THRESHOLD, ticks; R113; reset 16,000 -/
  stepThreshold : Nat := 16000
  /-- SLEW_MAX, ppm; R113; reset 100 -/
  slewMax : Nat := 100
  /-- UTC_OFFSET of `time.configure`, signed s; R113; reset 0 (DESIGN CHOICE, log 6) -/
  utcOffset : Int := 0
  /-- HOLDOVER_LIMIT, ticks; R113; reset 16,000 -/
  holdoverLimit : Nat := 16000
  /-- PPS_OFFSET, signed ns; R113; reset 0 (DESIGN CHOICE, log 6) -/
  ppsOffset : Int := 0
  /-- PPS_WIDTH, ns; R113; reset 100,000 -/
  ppsWidth : Nat := 100000
  /-- TOD_FORMAT: 0 Clerenos, 1 NMEA ZDA; R113; reset 0 (DESIGN CHOICE, log 6) -/
  todFormat : Nat := 0
  /-- UTC offset in force, signed s; R86, R114; reset 0 (DESIGN CHOICE, log 6) -/
  utcNow : Int := 0
  /-- Holdover entry: instant and stamp; R100, R114; reset none -/
  holdover : Option (Nat × Stamp) := none
  /-- OSC_FREQ and OSC_AGING as of holdover entry or of the latest beat, which the growth uses; R100, R113; reset none -/
  heldFreq : Option Nat := none
  heldAging : Option Nat := none
  /-- By how much the latest exchange found the cores apart beyond their counts here, West less East, ticks; R88; reset 0 -/
  apart : Int := 0
  /-- Instant of the latest change of the servo's state or source; R97; reset 0 -/
  changedAt : Nat := 0
  /-- TIME.STATUS.MISMATCH and the instant it was found; R88; reset none -/
  mismatch : Option Nat := none
  /-- A mismatch ended unresolved; R89; reset 0 -/
  unresolved : Bool := false
  /-- TIME.STATUS.WEST_REPOINTED; 1 bit; R89; reset 0 -/
  westRepointed : Bool := false
  /-- TIME.STATUS.EAST_REPOINTED; 1 bit; R89; reset 0 -/
  eastRepointed : Bool := false
  /-- West named wrong: East drives PPS_OUT; R111; reset 0 -/
  westWrong : Bool := false
  /-- Scheduled step; R99; reset none -/
  step : Option Step := none
  /-- Steps applied within the last second and the clock instant of each, newest first; R99; reset none -/
  stepped : List (Int × Nat) := []
  /-- Stamps carry STEPPED until the next seal closes; R99; reset 0 -/
  steppedFlag : Bool := false
  /-- Captures of the latest 1PPS_IN edge: count West, count East; R94; reset none -/
  ppsWest : Option Nat := none
  ppsEast : Option Nat := none
  /-- Instant of the latest 1PPS_IN edge; R94; reset none -/
  ppsAt : Option Nat := none
  /-- Edges in a row without a valid ToD message; R95; reset 0 -/
  ppsNoTod : Nat := 0
  /-- Instant since which edges and valid ToD messages have come without a loss; R95; reset none -/
  ppsGoodSince : Option Nat := none
  /-- Latest valid ToD: seconds since the PTP epoch, UTC offset, flags; R94; reset none -/
  tod : Option (Nat × Int × Nat) := none
  /-- ToD messages outside their window; R94; reset 0 -/
  todIgnored : Nat := 0
  /-- Device time of the latest PPS_OUT edge; R111; reset none -/
  ppsOutAt : Option Nat := none
  /-- Whole second, since the PTP epoch, of that edge; R111; reset 0 -/
  ppsSec : Nat := 0
  /-- Edge whose ToD message has been sent; R111; reset none -/
  todSentFor : Option Nat := none
  deriving DecidableEq, Repr

-- PTP (04_time.md) ---------------------------------------------------------------------------------------------

/-- What a clock Port hears, in one domain, of the clocks that may be its parent (R95, R104). -/
structure PtpHeard where
  /-- The best announced vector and its sender, none before the first Announce or after its timeout; R95; reset none -/
  parent : Option Nat := none
  /-- The parent's `clockAccuracy`; 8 bits; R114; reset 0xFE (unknown; log 107) -/
  accuracy : Nat := 0xFE
  /-- Instant and interval, log2 s, of the parent's latest Announce; R95; reset 0 -/
  announceAt : Nat := 0
  announceLog : Int := 0
  /-- Sync messages of the parent in sequence; R95; reset 0 -/
  syncRun : Nat := 0
  /-- Sequence number, instant and interval, log2 s, of the parent's latest Sync; R95; reset 0 -/
  syncSeq : Nat := 0
  syncAt : Nat := 0
  syncLog : Int := 0
  deriving DecidableEq, Repr

/-- One Port's PTP setting (R116), and what it measures (R95, R103). -/
structure PtpPort where
  /-- ROLE: 0 none, 1 E2E TC, 2 P2P TC, 3 clock port; R116; reset 0 -/
  role : Nat := 0
  /-- STEP: 0 one-step, 1 two-step; R116; reset 0 (DESIGN CHOICE, log 6) -/
  step : Nat := 0
  /-- TRANSPORT bit map; 3 bits; R116; reset 0 (DESIGN CHOICE, log 6) -/
  transport : Nat := 0
  /-- DELAY: 0 request-response, 1 peer-to-peer; R116; reset 0 (DESIGN CHOICE, log 6) -/
  delay : Nat := 0
  /-- DOMAINS: up to four; R116; reset none -/
  domains : List Nat := []
  /-- Mean link delay, 2^-16 ns, measured by Helm; R103; reset 0 (DESIGN CHOICE, log 6) -/
  linkDelay : Nat := 0
  /-- Helm's latest Pdelay_Req: sequence number, sender and departure tick; R103; reset none -/
  pdelayReq : Option (Nat × Nat × Nat) := none
  /-- A two-step Pdelay_Resp to it: the round trip less its correction and its t2, 2^-16 ns; R103; reset none -/
  pdelayResp : Option Int := none
  /-- Announce and Sync messages heard in each domain; R95; reset none -/
  heard : Tbl PtpHeard := []
  deriving DecidableEq, Repr

/-- A two-step pending entry (R103). -/
structure PtpPending where
  basin : Nat
  port : Nat
  domain : Nat
  identity : Nat
  seqId : Nat
  residence : Nat
  at_ : Nat
  deriving DecidableEq, Repr

/-- PTP (R101 to R104). -/
structure Ptp where
  ports : Tbl PtpPort := []
  /-- Two-step pending entries, oldest first; 4,096 per Basin; R103; reset empty -/
  pending : List PtpPending := []
  /-- Messages punted to Helm's own clock: stamp and bytes; R104; reset empty -/
  toHelm : List (Stamp × List Byte) := []
  /-- Punts to Helm dropped while it is stopped; R426; reset 0 -/
  dropped : Nat := 0
  deriving DecidableEq, Repr

-- THE LEDGER (11_ledger.md) -----------------------------------------------------------------------------------

/-- A record offered to the ledger writer (R280): source order 0 gap, 1 West Weir, 2 East Weir, 3 COPY West, 4 COPY
East, 5 clock. -/
structure LedgerRec where
  source : Nat
  bytes : List Byte
  guarded : Bool := false
  /-- what the digest of its frame is taken over; none with NO_DIGEST -/
  input : Option (List Byte) := none
  /-- instant at which it reached the writer -/
  at_ : Nat := 0
  deriving DecidableEq, Repr

/-- A run of lost records (R283). -/
structure Lost where
  count : Nat := 0
  guarded : Nat := 0
  first : Nat := 0
  deriving DecidableEq, Repr

/-- The open block of records (R284, R285). -/
structure Block where
  /-- Number of its first record; R284; reset 0 -/
  first : Nat := 0
  /-- Records in it; R284; reset 0 -/
  count : Nat := 0
  /-- Time Core West stamp at which it opened; R284; reset as Time Core West stands at reset -/
  openStamp : Stamp := { ticks := 0, bound := 0xFFFF, qual := 0x04, plane := 0x4A }
  /-- SHA-256 over PREV and its records so far: the chaining words and the bytes not yet compressed; R285; reset over 32 zeros -/
  hash : List Nat := [0x6A09E667, 0xBB67AE85, 0x3C6EF372, 0xA54FF53A, 0x510E527F, 0x9B05688C, 0x1F83D9AB, 0x5BE0CD19]
  part : List Byte := List.replicate 32 0
  /-- Stamps of the records: least and greatest TICKS, and the largest BOUND; R285; reset none -/
  least : Option Stamp := none
  most : Option Stamp := none
  worst : Nat := 0
  /-- SERVO_SEEN: states in force; R285; reset FREERUN -/
  servoSeen : List Nat := [0]
  /-- CLOCK_FLAGS; R285; reset 0 -/
  suspect : Bool := false
  stepped : Bool := false
  mismatch : Bool := false
  /-- SOURCE_CHANGES; R285; reset 0 -/
  changes : Nat := 0
  /-- GAP_RECORDS; R285; reset 0 -/
  gaps : Nat := 0
  /-- KEY_ID of the block's digests; R285; reset 0 -/
  keyId : Nat := 0
  deriving DecidableEq, Repr

/-- A closed block whose seal is not yet written: seal bytes 0 to 159, and the instant of the close (R285). -/
structure ClosedBlock where
  head : List Byte
  closedAt : Nat
  /-- SEAL_LATE has been reported -/
  late : Bool := false
  deriving DecidableEq, Repr

/-- The ledger (11_ledger.md). -/
structure Ledger where
  /-- Writer's queue; up to 4,096 records; R280; reset empty -/
  queue : List LedgerRec := []
  /-- STORE gap records in place of records of the ring found uncorrectable, by number; R283; reset none -/
  bad : Tbl (List Byte) := []
  /-- NEXT_RECORD; 64 bits; R284; reset 0 -/
  nextRecord : Nat := 0
  /-- First record not yet freed; R289; reset 0 -/
  freeFrom : Nat := 0
  /-- Next record to export; R289; reset 0 -/
  exported : Nat := 0
  /-- Open block; R284 -/
  block : Block := {}
  /-- Closed blocks not yet sealed, oldest first; R285; reset none -/
  closed : List ClosedBlock := []
  /-- SEAL_HASH of the latest closed block; R285; reset zeros -/
  chain : List Byte := List.replicate 32 0
  /-- SEAL_NUMBER of the next block to close; R285; reset 0 -/
  closeNo : Nat := 0
  /-- NEXT_SEAL; 64 bits; R285; reset 0 -/
  nextSeal : Nat := 0
  /-- First seal not yet freed, and the next to export, of the seal ring's 262,144 slots; R289; reset 0 -/
  sealFree : Nat := 0
  sealExported : Nat := 0
  /-- LAST_SEAL_HASH; 32 bytes; R285, R293; reset zeros -/
  lastHash : List Byte := List.replicate 32 0
  /-- The next seal is the genesis seal; R285; reset 1 -/
  genesis : Bool := true
  /-- Sealing waited on a full seal ring; R289; reset 0 -/
  waited : Bool := false
  /-- Records lost per cause and not yet reported: RING_FULL, RATE, RESET; R283; reset none -/
  lostFull : Lost := {}
  lostRate : Lost := {}
  lostReset : Lost := {}
  /-- LOST: records lost since cold reset; R293; reset 0 -/
  lost : Nat := 0
  /-- RECORD_RING; R292; reset none -/
  recordRing : Option Nat := none
  /-- SEAL_RING; R292; reset none -/
  sealRing : Option Nat := none
  /-- RECORD_RING and SEAL_RING that wait for the next descriptor boundary; R292; reset none -/
  newRecordRing : Option (Option Nat) := none
  newSealRing : Option (Option Nat) := none
  /-- FLAGS.ALL_COPIES; R292; reset 0 -/
  allCopies : Bool := false
  /-- DIGEST_BYTES; R292; reset 64 -/
  digestBytes : Nat := 64
  /-- KEY_ID; 32 bits; R292; reset 0 (DESIGN CHOICE, log 6) -/
  keyId : Nat := 0
  /-- DIGEST_KEY; 16 bytes; R292; reset zeros (DESIGN CHOICE, log 6) -/
  key : List Byte := List.replicate 16 0
  /-- New key for the next block; R289; reset none -/
  newKey : Option (Nat × List Byte) := none
  /-- Records of the ring re-read by a warm reset are being rehashed; R287; reset 0 -/
  rehash : Bool := false
  /-- They have been rehashed, and the block waits for a slot of the seal ring; R287, R289; reset 0 -/
  rehashed : Bool := false
  deriving DecidableEq, Repr

-- PAIR (12_pairing.md) ----------------------------------------------------------------------------------------

/-- A SENT report kept for resending (R306): number, FINAL, PLANNED, entries of slot and last-sent. -/
structure Report where
  num : Nat
  final : Bool
  planned : Bool
  entries : List (Nat × Nat)
  deriving DecidableEq, Repr

/-- A message sent and not yet acknowledged (R299, R389): subtype, number, body and instant. -/
structure Unacked where
  subtype : Nat
  seq : Nat
  body : List Byte
  sentAt : Nat
  /-- instant of the first sending -/
  firstAt : Nat
  ticket : Option Nat := none
  /-- Cascade member it was sent to -/
  member : Nat := 0
  /-- local part done, for a mirrored or pushed command whose ticket waits on both, and its completion bytes; R305 -/
  localDone : Bool := true
  result : List Byte := []
  deriving DecidableEq, Repr

/-- A receipt entry as received (R299, R308). -/
structure Receipt where
  stream : Nat
  seq : Nat
  digest : Nat
  decision : Nat
  at_ : Nat
  deriving DecidableEq, Repr

/-- A guarded frame that this unit has committed, as the comparison of decisions needs it (R308). -/
structure Recent where
  stream : Nat
  seq : Nat
  digest : Nat
  decision : Nat
  gen : Nat
  port : Nat
  fv : List Byte
  at_ : Nat
  deriving DecidableEq, Repr

/-- A disputed frame of the open window (R308). -/
structure Dispute where
  stream : Nat
  seq : Nat
  own : Nat
  theirs : Nat
  gen : Nat
  /-- its window: device time of the detection in units of 256 ns -/
  window : Nat := 0
  deriving DecidableEq, Repr

/-- The Pair (12_pairing.md). -/
structure Pair where
  /-- MODE: 0 solo, 1 pair; R321; reset 0 -/
  mode : Nat := 0
  /-- PAIR_ID; 32 bits; R321; reset 0 (DESIGN CHOICE, log 6) -/
  pairId : Nat := 0
  /-- DOWNSTREAM: 0 combiner, 1 dual-homed, 2 dual-live; R321; reset 0 (DESIGN CHOICE, log 6) -/
  downstream : Nat := 0
  /-- WITNESS: 0 none, 1 WITNESS_IN, 2 Cascade manager; R321; reset 0 (DESIGN CHOICE, log 6) -/
  witness : Nat := 0
  /-- FLAGS.REVERTIVE; R321; reset 1 (its stated default) -/
  revertive : Bool := true
  /-- FLAGS.AUTO_RESYNC; R321; reset 1 (its stated default) -/
  autoResync : Bool := true
  /-- HOLD_OFF, s; R321; reset 60 -/
  holdOff : Nat := 60
  /-- START_WAIT, s; R321; reset 10 -/
  startWait : Nat := 10
  /-- HEALTH_RING; R321; reset none -/
  healthRing : Option Nat := none
  /-- ROLE_PREF pin, sampled with the straps: preferred unit, unit 0; R295; reset 1 (DESIGN CHOICE, log 6) -/
  rolePref : Bool := true
  /-- Role: 0 SOLO, 1 ACTIVE, 2 STANDBY, 3 STALE, 4 FENCED; R295, R296, R323; reset 0 (solo mode) -/
  role : Nat := 0
  /-- PARTNER_ROLE, 0xFF unknown; R323; reset 0xFF -/
  partnerRole : Nat := 0xFF
  /-- LAST_CAUSE; R323; reset 0 (DESIGN CHOICE, log 6) -/
  lastCause : Nat := 0
  /-- ROLE_SINCE; R323; reset zeros (DESIGN CHOICE, log 6) -/
  roleSince : Stamp := {}
  /-- FENCED under cause 19; R313; reset 0 -/
  fencedBySafe : Bool := false
  /-- Tether PCS up; R298; reset 0 -/
  pcsUp : Bool := false
  /-- Handshake done and not refused; R301; reset 0 -/
  tetherUp : Bool := false
  /-- Instant since which the Tether has been up with heartbeats; R317; reset none -/
  tetherSince : Option Nat := none
  /-- Refused with a cause; R301; reset 0 -/
  refused : Nat := 0
  /-- TETHER_LATENCY, ns; R298; reset 0 (DESIGN CHOICE, log 6) -/
  latency : Nat := 0
  /-- Instant of the latest HEARTBEAT; R313; reset none -/
  hbAt : Option Nat := none
  /-- Latest SENT_TICKS received and the clock of its arrival; R307; reset none -/
  hbSent : Option (Nat × Nat) := none
  /-- Instant since which the unit has had no contact; R313; reset 0 -/
  noContactSince : Nat := 0
  /-- Pattern recognised on PULSE_IN: 0 ALIVE, 1 SAFE, 2 LEAVING; none when lost; R302; reset none -/
  pulse : Option Nat := none
  pulseAt : Nat := 0
  /-- Verdict on WITNESS_IN; none absent; R303; reset none -/
  witnessIn : Option Bool := none
  /-- Cascade manager's verdict and the instant it came; R303; reset none -/
  managerVerdict : Option (Bool × Nat) := none
  /-- MSG_SEQ of the next message of each kind; R299; reset 0 -/
  msgSeq : Tbl Nat := []
  /-- Control, mirror and snapshot messages not yet acknowledged; R299, R305; reset none -/
  unacked : List Unacked := []
  /-- Number of the next SENT report; R306; reset 0 -/
  nextReport : Nat := 0
  /-- The last 16 SENT reports, newest first; R306; reset none -/
  reports : List Report := []
  /-- Newest report number received whole; R306; reset none -/
  newestRecv : Option Nat := none
  /-- Segments received of reports not yet whole: number, segment, LAST; R306; reset none -/
  segments : List (Nat × Nat × Bool) := []
  /-- Reports received in part and not yet asked for, and the instant of the first message of each; R306; reset none -/
  partialAt : List (Nat × Nat) := []
  /-- Report numbers missing and the instant each was seen missing; R306; reset none -/
  missing : List (Nat × Nat) := []
  /-- Mirrored messages received and not yet applied, in order of issue: seq and body; R304, R305, R426; reset none -/
  mirrorIn : List (Nat × List Byte) := []
  /-- MSG_SEQ of the next MIRROR to apply; R304; reset 0 -/
  mirrorNext : Nat := 0
  /-- Request bytes of a mirrored command that takes several MIRROR messages, as far as applied; R299, log 16; reset none -/
  mirrorPart : List Byte := []
  /-- Tether frames discarded for a bad FCS; R299; reset 0 -/
  fcsErrors : Nat := 0
  /-- Receipts waiting for this unit's own confirmation; R41; reset none -/
  receipts : List Receipt := []
  /-- Disputed frames of the open window; R308; reset none -/
  disputed : List Dispute := []
  /-- DISPUTES since cold reset; 64 bits; R323; reset 0 -/
  disputes : Nat := 0
  /-- Own settled disputes: stream, sequence, whether agree and match, own and partner's DECISION; R309; reset none -/
  settled : List (Nat × Nat × Bool × Nat × Nat) := []
  /-- Own committed guarded frames of the open dispute window and of a resynchronisation; R308, R319; reset none -/
  recent : List Recent := []
  /-- Partner DISPUTE messages kept for frames not yet settled; R309; reset none -/
  theirSettled : List (Nat × Nat × Bool) := []
  /-- MSG_SEQ of the next DISPUTE of the partner, none before the first since the handshake; R299; reset none -/
  disputeNext : Option Nat := none
  /-- Published digests of generations A and B, newest first, up to four each; R310; reset none -/
  digestsA : List (List Byte) := []
  digestsB : List (List Byte) := []
  /-- SYNC: 0 none, 1 snapshot, 2 aligning, 3 synchronous; R323; reset 0 -/
  sync : Nat := 0
  /-- Resynchronisation: scope, ticket, repeated once; R319; reset none -/
  resync : Option (Nat × Option Nat × Bool) := none
  /-- Instant at which step 3 of the resynchronisation ended; R319; reset none -/
  alignAt : Option Nat := none
  /-- This unit sends a snapshot to its partner; R320; reset 0 -/
  sending : Bool := false
  /-- Streams diverged when this sending unit took its partner's resynchronisation request, which resume once the partner is STANDBY;
  R43, R319; reset none -/
  healing : List Nat := []
  /-- Next sequences of the streams that the latest snapshot carried; R319; reset none -/
  snapNext : List (Nat × Nat) := []
  /-- Planned swap: beat and ticket; R316; reset none -/
  planned : Option (Nat × Option Nat) := none
  /-- Planned swap under way: FINAL with PLANNED sent; R316; reset 0 -/
  plannedSent : Bool := false
  /-- Trigger of a takeover decision: instant, cause, and whether a FINAL has arrived; R315; reset none -/
  trigger : Option (Nat × Nat × Bool) := none
  /-- Acceptance suspended on Tether loss; R317; reset 0 -/
  promiseSuspended : Bool := false
  /-- Instant since which GOOD has held; R311; reset 0 -/
  goodSince : Nat := 0
  /-- A condition of GOOD failed in the open period, or at its start; R311; reset 1, the servo being in FREERUN (R97) -/
  bad : Bool := true
  /-- Counts of the open period: tests run and failed, scrub corrected and uncorrectable, disputes; R311; reset 0 -/
  testsRun : Nat := 0
  testsFailed : Nat := 0
  scrubCorr : Nat := 0
  scrubUncorr : Nat := 0
  periodDisputes : Nat := 0
  /-- Health records waiting for export (R428); reset none -/
  healthOut : List (List Byte) := []
  /-- The partner's latest health record; R311; reset none -/
  partnerHealth : List Byte := []
  /-- HELLO of the partner: serial, stepping, release, PAIR_ID, unit, ROLE_PREF, DOWNSTREAM as received; R301; reset none -/
  hello : List Byte := []
  /-- Handshake done and the roles not yet compared; R313; reset 0 -/
  handshake : Bool := false
  /-- The unit has had contact since its latest loss; R313; reset 0 -/
  contact : Bool := false
  /-- The partner left a MIRROR unacknowledged for 10 ms and counts as STALE until it reports that role or FENCED; R305; reset 0 -/
  partnerLate : Bool := false
  /-- Received MIRROR messages not yet acknowledged, and the instant each first came; R305; reset none -/
  mirrorAt : List (Nat × Nat) := []
  /-- Numbers of the latest CONTROL requests taken, newest first, so that one sent again is only acknowledged; R299; reset none -/
  controlSeen : List Nat := []
  /-- Mirrored servo state: SRC, servo state, servo term; R304; reset none -/
  partnerServo : Option (Nat × Nat × Nat) := none
  /-- The units' device times differ beyond R307's limit; reset 0 -/
  timeOff : Bool := false
  deriving DecidableEq, Repr

-- COUNTERS (19_counters.md) -----------------------------------------------------------------------------------

/-- A counter's program (R451). -/
structure Prog where
  event : Nat := 0
  inst : Nat := 0
  bytes : Bool := false
  chain : Bool := false
  deriving DecidableEq, Repr

/-- A run of programs that waits for its boundary (R455). -/
structure PendProg where
  boundary : Nat
  runFirst : Nat
  runCount : Nat
  prog : Prog
  ticket : Option Nat
  deriving DecidableEq, Repr

/-- A bandwidth window (R459 to R461, R464). -/
structure Window where
  port : Nat
  /-- 0 RX, 1 TX -/
  dir : Nat
  length : Nat
  subs : Nat
  base : Nat
  /-- start tick of the first full window -/
  from_ : Nat
  /-- start tick of the first window of the settings that replace these: no later window closes; R461; reset none -/
  until_ : Option Nat := none
  /-- byte and frame counts of open windows by window start: (start, sub-window, bytes, frames) -/
  counts : List (Nat × Nat × Nat × Nat) := []
  deriving DecidableEq, Repr

/-- A requested snapshot (R456, R463). -/
structure Snap where
  first : Nat
  count : Nat
  offset : Nat
  clear : Bool
  recover : Bool
  ticket : Option Nat
  /-- the first boundary at which it may capture; R456 -/
  due : Nat
  boundary : Option Nat := none
  deriving DecidableEq, Repr

/-- Counters (19_counters.md). -/
structure Counters where
  /-- COUNTER.WORD values, 1,048,576 counters; 32 bits; R450; reset 0 -/
  values : Tbl Nat := []
  /-- The bank cycle of the latest increment; R453; reset 0 (DESIGN CHOICE, log 6) -/
  cycle : Nat := 0
  /-- What counters held at the start of that cycle, of those that it has incremented: counter and value; R453; reset none -/
  before : List (Nat × Nat) := []
  /-- Programs that differ from the default map in force; R451, R458; reset none -/
  progs : Tbl (Option Prog) := []
  /-- The default map is in force; R458; reset 0 -/
  mapped : Bool := false
  /-- Programs waiting for a boundary; R455; reset none -/
  pending : List PendProg := []
  /-- Shadow bank: first counter, values and boundary tick; R456; reset none -/
  shadow : Option (Nat × List Nat × Nat) := none
  /-- Snapshots waiting for capture or for the Steward; R456, R457; reset none -/
  snaps : List Snap := []
  /-- Spill region images marked valid: offset, bytes; R456; reset none -/
  image : Option (Nat × Nat × Bool) := none
  /-- Bandwidth windows; R459; reset none -/
  windows : List Window := []
  deriving DecidableEq, Repr

-- TRAFFIC MANAGERS (09_traffic_manager.md) ---------------------------------------------------------------------

/-- A token-bucket shaper (R228). Credit is held in 1/128,000,000 byte: a rate in kb/s adds itself each tick. -/
structure Shaper where
  /-- rate, kb/s; R228; reset 0 (unshaped) -/
  rate : Nat := 0
  /-- burst, bytes; 24 bits; R228; reset 0 (DESIGN CHOICE, log 6) -/
  burst : Nat := 0
  /-- credit; R228; reset 0 (DESIGN CHOICE, log 6) -/
  credit : Int := 0
  /-- instant of the latest update -/
  at_ : Nat := 0
  deriving DecidableEq, Repr

/-- An egress queue (R222, R245). -/
structure Queue where
  /-- Class group; none for the group of R222; reset R222 -/
  group : Option Nat := none
  /-- Band; 3 bits; R222; reset 0 -/
  band : Nat := 0
  /-- Gate; 3 bits; none for q mod 8; R222; reset q mod 8 -/
  gate : Option Nat := none
  /-- Weight; 16 bits; R222; reset 1 -/
  weight : Nat := 1
  /-- MIN_CELLS; 12 bits; R222; reset 0 -/
  minCells : Nat := 0
  /-- ALPHA; 4 bits; R218; reset 8 -/
  alpha : Nat := 8
  /-- Shaper; R228 -/
  shaper : Shaper := {}
  /-- Tag; 48 bits; R226; reset 0 (DESIGN CHOICE, log 6) -/
  tag : Nat := 0
  /-- Eligible when last looked at; R226; reset 0 -/
  eligible : Bool := false
  /-- Copies, head first; R217; reset empty -/
  copies : List Nat := []
  /-- Histograms: depth bins and sojourn bins 1 to 15; 32 bits each; R241; reset 0. Bin 0 is what is left of the samples
  closed since `histBase` once the hits of the other bins are taken away. -/
  depth : Tbl Nat := []
  sojourn : Tbl Nat := []
  depthHits : Nat := 0
  sojournHits : Nat := 0
  histBase : Nat := 0
  /-- buffer-drop since the previous sample record; R242; reset 0 -/
  drops : Nat := 0
  deriving DecidableEq, Repr

/-- A class group (R222, R246). -/
structure Group where
  /-- Port; none for floor(group / 16); R222 -/
  port : Option Nat := none
  /-- Band; R222; reset 0 -/
  band : Nat := 0
  /-- Weight; R222; reset 1 -/
  weight : Nat := 1
  /-- Shaper; R228 -/
  shaper : Shaper := {}
  /-- Tag; 48 bits; R226; reset 0 (DESIGN CHOICE, log 6) -/
  tag : Nat := 0
  /-- Eligible when last looked at; R226; reset 0 -/
  eligible : Bool := false
  /-- Virtual time of each band of its queues; 48 bits; R226; reset 0 (DESIGN CHOICE, log 6) -/
  v : Tbl Nat := []
  deriving DecidableEq, Repr

/-- A gate list (R236, R239, R251). -/
structure GateList where
  /-- start tick of device time -/
  start : Nat
  /-- cycle, ns -/
  cycle : Nat
  /-- entries: gate states and interval in ns -/
  entries : List (Nat × Nat)
  deriving DecidableEq, Repr

/-- A port scheduler and the Port's gates (R22, R224, R236). -/
structure Sched where
  /-- Queue range of `queue.allocate` or `queue.free`: base and count; none for Port × 128 and 128; R21, R22 -/
  range : Option (Nat × Nat) := none
  /-- Parts of the range that `queue.free` has freed: base and count; R244; reset none -/
  freed : List (Nat × Nat) := []
  /-- Port shaper; R228 -/
  shaper : Shaper := {}
  /-- Virtual time of each band of its groups; 48 bits; R226; reset 0 (DESIGN CHOICE, log 6) -/
  v : Tbl Nat := []
  /-- Copy being sent; R224; reset none -/
  sending : Option Nat := none
  /-- Clock instant from which the inter-frame gap of 12 bytes after the latest copy is over; R67; reset 0 -/
  idleFrom : Nat := 0
  /-- Gate list in force; R236; reset none (all gates open) -/
  gates : Option GateList := none
  /-- Pending gate list; R239; reset none -/
  pendGates : Option GateList := none
  /-- Gate states in force; 8 bits; R236; reset 0xFF (all open) -/
  states : Nat := 0xFF
  /-- Count of gate lists started, so that a copy knows its own; R238; reset 0 -/
  listNo : Nat := 0
  deriving DecidableEq, Repr

/-- A policer (R232, R249); buckets in 1/128,000,000 byte. -/
structure Policer where
  /-- MODE: 0 off, 1 colour-blind, 2 colour-aware; R249; reset 0 (DESIGN CHOICE, log 6) -/
  mode : Nat := 0
  /-- COLOUR_SRC; R249; reset 0 (DESIGN CHOICE, log 6) -/
  src : Nat := 0
  /-- CIR, kb/s; 32 bits; R249; reset 0 (DESIGN CHOICE, log 6) -/
  cir : Nat := 0
  /-- PIR, kb/s; 32 bits; R249; reset 0 (DESIGN CHOICE, log 6) -/
  pir : Nat := 0
  /-- CBS, bytes; 32 bits; R249; reset 0 (DESIGN CHOICE, log 6) -/
  cbs : Nat := 0
  /-- PBS, bytes; 32 bits; R249; reset 0 (DESIGN CHOICE, log 6) -/
  pbs : Nat := 0
  /-- The committed bucket Tc, in 1/128,000,000 byte; R233; reset 0 (DESIGN CHOICE, log 6) -/
  tc : Int := 0
  /-- The peak bucket Tp, in 1/128,000,000 byte; R233; reset 0 (DESIGN CHOICE, log 6) -/
  tp : Int := 0
  /-- Instant of the buckets' latest update; R233; reset 0 (DESIGN CHOICE, log 6) -/
  at_ : Nat := 0
  deriving DecidableEq, Repr

/-- A queue in a sample: its copies as (frame, bytes at t, enqueue tick), gate closed and shaper in debt at t (R240, R242). -/
structure SampleQ where
  queue : Nat
  copies : List (Nat × Nat × Nat)
  gateClosed : Bool
  inDebt : Bool
  deriving DecidableEq, Repr

/-- A sample taken and not yet closed: its instant, its queues, and the watched queues whose records it writes (R240 to R242,
R252). -/
structure Sample where
  at_ : Nat
  queues : List SampleQ
  watched : List Nat
  deriving DecidableEq, Repr

/-- Sampling (R240 to R242, R252). -/
structure Sampling where
  /-- RING; R252; reset none -/
  ring : Option Nat := none
  /-- DEPTH_LOG2; R252; reset 6 (DESIGN CHOICE, log 6) -/
  depthLog : Nat := 6
  /-- SOJOURN_LOG2; R252; reset 0 (DESIGN CHOICE, log 6) -/
  sojournLog : Nat := 0
  /-- PERIOD, samples; R252; reset 1 (DESIGN CHOICE, log 6) -/
  period : Nat := 1
  /-- Watched queues; R252; reset none -/
  watched : List Nat := []
  /-- Samples since the latest records; R242; reset 0 -/
  since : Nat := 0
  /-- Instant of the latest sample, a multiple of 16,384 ticks of device time; R240; reset 0 -/
  sampledAt : Nat := 0
  /-- The latest sample instant of the East die's traffic manager; R240; reset 0 -/
  sampledEast : Nat := 0
  /-- Samples taken and not yet closed; R240; reset none -/
  open_ : List Sample := []
  /-- Samples closed since the histograms were cleared; R241; reset 0 -/
  closed : Nat := 0
  /-- Records waiting for the ring; R242; reset none -/
  out : List (List Byte) := []
  /-- Records lost and not yet reported; R242; reset 0 -/
  lost : Nat := 0
  deriving DecidableEq, Repr

/-- The traffic managers (09_traffic_manager.md). -/
structure Tm where
  queues : Tbl Queue := []
  groups : Tbl Group := []
  scheds : Tbl Sched := []
  policers : Tbl Policer := []
  /-- Colour map: 64 × 2 bits; R250; reset 0 (DESIGN CHOICE, log 6) -/
  colourMap : List Nat := List.replicate 64 0
  /-- GUARD_CELLS of the dies; R215; reset 16,384 -/
  guardWest : Nat := 16384
  guardEast : Nat := 16384
  /-- HEADROOM of the dies; R216; reset 512 -/
  headWest : Nat := 512
  headEast : Nat := 512
  /-- Sums of MIN_CELLS over the queues (each reserved in both dies); R215; reset 0 -/
  mins : Nat := 0
  sampling : Sampling := {}
  deriving DecidableEq, Repr

-- SPECULATION (08_speculation.md) -------------------------------------------------------------------------------

/-- `spec.configure` (R213). -/
structure Spec where
  /-- DET_HEADER, bytes; R213; reset 64 -/
  detHeader : Nat := 64
  /-- SPEC_OFF; R213; reset 0 -/
  off : Bool := false
  deriving DecidableEq, Repr

-- PORTS AND MODULES (03_ports.md) ---------------------------------------------------------------------------------

/-- A Port (03_ports.md). -/
structure Port where
  /-- State: 0 DISABLED, 1 NEGOTIATING, 2 TRAINING, 3 ALIGNING, 4 UP; R70; reset 0 -/
  state : Nat := 0
  /-- MODE; 8 bits, 0 none; R62, R65; reset 0 -/
  mode : Nat := 0
  /-- FEC; R62; reset 0 (DESIGN CHOICE, log 6) -/
  fec : Nat := 0
  /-- AN; R68; reset 0 (DESIGN CHOICE, log 6) -/
  an : Bool := false
  /-- TRAINING; R69; reset 0 (DESIGN CHOICE, log 6) -/
  training : Bool := false
  /-- FLAGS: CUT_THROUGH, DETERMINISTIC, COMBINED, STOP_IN_SAFE, TRAILER, FABRIC; R83; reset 0 (DESIGN CHOICE, log 6) -/
  flags : Nat := 0
  /-- MTU, bytes; R66; reset 1,518 (DESIGN CHOICE, log 6) -/
  mtu : Nat := 1518
  /-- OVERHEAD, signed bytes; R67; reset +20 -/
  overhead : Int := 20
  /-- PLANE_OFFSET, signed ticks; R74; reset 0 -/
  planeOffset : Int := 0
  /-- PLANE_UNCERT, ticks; R77; reset 0 (DESIGN CHOICE, log 6) -/
  planeUncert : Nat := 0
  /-- UP_HOLD, ms; R70; reset 0 (DESIGN CHOICE, log 6) -/
  upHold : Nat := 0
  /-- AN_ABILITY; 16 bits; R68; reset 0 (DESIGN CHOICE, log 6) -/
  anAbility : Nat := 0
  /-- LAST_DOWN; R71, R84; reset 0 -/
  lastDown : Nat := 0
  /-- Variable parts measured at the latest alignment, ticks; R75; reset 0 (DESIGN CHOICE, log 6) -/
  inVar : Nat := 0
  egVar : Nat := 0
  /-- Instant since which ALIGNING has been stable; R70; reset none -/
  alignedAt : Option Nat := none
  /-- UP_STAMP; R84; reset zeros (DESIGN CHOICE, log 6) -/
  upStamp : Stamp := {}
  /-- Drain in progress: ticket and instant; R84; reset none -/
  drain : Option (Nat × Nat) := none
  /-- Ingress stopped by `port.disable`; R84; reset 0 -/
  ingressStop : Bool := false
  /-- Frame in reception; R66; reset none -/
  receiving : Option Nat := none
  /-- Instant of AN_FAILED, from which negotiation restarts after 500 ms; R68; reset none -/
  anFailedAt : Option Nat := none
  /-- Resolved by negotiation: mode and FEC in force; R68, R84; reset none -/
  resolved : Option (Nat × Nat) := none
  /-- REACH that the Port's latest configuration raised, until its LINK_UP reports it; R184; reset none -/
  raised : Option Nat := none
  /-- Transmitter switched off by a freeze or the safe state; R50, R57, R297; reset 0 -/
  txOff : Bool := false
  deriving DecidableEq, Repr

/-- A cage of a module map (R79, R85). -/
structure Cage where
  lane : Nat
  path : Nat
  addr : Nat
  /-- MODULE bits of `port.status`: present, ready, unsupported, fault; R84 -/
  present : Bool := false
  ready : Bool := false
  unsupported : Bool := false
  fault : Bool := false
  /-- polls in a row without acknowledgement; R79 -/
  missed : Nat := 0
  /-- CMIS revision byte and selected Application; R80 -/
  revision : Nat := 0
  app : Nat := 0
  /-- Application table as read at insertion: the mode of the Port that each one's host interface matches, by Application code from 1; R80 -/
  apps : List Nat := []
  /-- low power requested, data path active; R80 -/
  lowPower : Bool := true
  active : Bool := false
  deriving DecidableEq, Repr

/-- A transaction of Helm's own on an I2C master (R79 to R81). -/
inductive HelmJob where
  /-- a poll and what answers it: no acknowledgement, or the identifier, the revision byte and the Application table -/
  | poll (reply : Option (Nat × Nat × List Nat))
  /-- a read of monitors and flags: the flag bytes set, and the module fault cause if any -/
  | monitor (flags : List (Nat × Nat)) (cause : Option Nat)
  /-- a write of a control, or a read whose result the row that asked for it has brought -/
  | control
  deriving DecidableEq, Repr

/-- A transaction waiting on an I2C master (R81): the mailbox that asked (16 for Helm's own), cage lane, OP, bank, page, offset, length,
data, and what Helm's own is for. -/
structure I2cJob where
  box : Nat
  lane : Nat
  op : Nat
  bank : Nat
  page : Nat
  offset : Nat
  length : Nat
  data : List Byte
  own : Option HelmJob := none
  deriving DecidableEq, Repr

/-- An I2C master (R78). -/
structure I2cMaster where
  /-- SPEED; R85; reset 0 (DESIGN CHOICE, log 6) -/
  speed : Nat := 0
  /-- Cage map; up to 64; R79; reset empty -/
  cages : List Cage := []
  /-- Transactions in arrival order; R81; reset empty -/
  jobs : List I2cJob := []
  deriving DecidableEq, Repr

-- POWER, RESET AND BRING-UP (20_power_bringup.md) ----------------------------------------------------------------

/-- A unit of the power ladder: Nozzles 0 to 63, Basins 64 to 71, the Cistern 72 (R468). -/
structure PUnit where
  /-- commanded step: 0 Flow, 1 Ripple, 2 Pool, 3 Still, 4 Dry, 5 Drained; R468, R481; reset 0 -/
  commanded : Nat := 0
  /-- step it is in; R468; reset 0 -/
  step : Nat := 0
  /-- AUTO_RIPPLE; R469; reset 0 (DESIGN CHOICE, log 6) -/
  autoRipple : Bool := false
  /-- tickets of the changes under way; R481; reset none -/
  tickets : List Nat := []
  /-- instant of its latest work; R469, R471; reset 0 -/
  workAt : Nat := 0
  deriving DecidableEq, Repr

/-- Power (20_power_bringup.md). -/
structure Power where
  units : Tbl PUnit := []
  /-- VIN is within its limits; R465; reset 1 -/
  vin : Bool := true
  /-- Regulator groups 1 to 4 in regulation; R467; reset 4 (all up: a cold reset ends with all rails up, R478) -/
  groupsUp : Nat := 4
  /-- Thermal trip has turned the cores off or is about to; R4, R467; reset 0 -/
  tripped : Bool := false
  /-- Instant of the trip; R4; reset none -/
  tripAt : Option Nat := none
  /-- THERMAL.TEMP[i] of the 16 sensors: TEMP (12 bits, signed, 0.125 °C) and VALID; R498; reset 0, 0 -/
  sensors : Tbl (Nat × Bool) := []
  /-- Power-on reset held: the rails do not all regulate yet; R467, R478; reset 0 (released, R478 step 5) -/
  held : Bool := false
  /-- PERST_N asserted; R474; reset 0 (DESIGN CHOICE, log 6) -/
  perst : Bool := false
  /-- `device.bringup` has completed since the cold reset; R479; reset 0 -/
  bringup : Bool := false
  /-- Resets asked for by command: kind (0 cold, 1 warm) and the instant of the response; R482; reset none -/
  asked : List (Nat × Nat) := []
  /-- A warm reset in solo mode has not yet ended its replay; R480, R482; reset 0 -/
  warm : Bool := false
  /-- Instant of the freeze with which the warm reset under way began; R53; reset none -/
  resetFreeze : Option Nat := none
  /-- Basin and Port resets under way: kind, index, ticket; R482; reset none -/
  resets : List (Nat × Nat × Nat) := []
  /-- Tickets that a warm reset ended, to be recorded once READY; R505; reset none -/
  ended : List Nat := []
  /-- Ports whose drain a warm reset ended: LINK_DOWN follows once READY; R84; reset none -/
  drained : List Nat := []
  /-- The boot under way, or the latest, has still to be counted in BOOT_COUNT; R285, R478 step 11; reset 1 -/
  coldBoot : Bool := true
  /-- SerDes calibrated: Nozzles and Tether lanes; R478; reset 0 -/
  calibrated : Bool := false
  deriving DecidableEq, Repr

-- CONFLUENCE AND LEVEL RELEASE (10_confluence_level.md) -----------------------------------------------------------

/-- Release groups (10_confluence_level.md). -/
structure Release where
  conf : Tbl ConfGroup := []
  level : Tbl LevelGroup := []
  deriving DecidableEq, Repr

-- DMA (18_dma.md) ---------------------------------------------------------------------------------------------------

/-- A descriptor that an engine has started and not completed (R434, R437, R438). -/
structure Started where
  index : Nat
  /-- END and NO_CQ as read -/
  last : Bool
  noCq : Bool
  addr : Nat
  len : Nat
  /-- RECORD: bytes and records packed, DETAIL of the first, instant of the oldest record -/
  used : Nat := 0
  records : Nat := 0
  detail : Nat := 0
  oldest : Nat := 0
  /-- Status, FLAGS, COUNT and DETAIL once completed -/
  result : Option (Nat × Nat × Nat × Nat) := none
  deriving DecidableEq, Repr

/-- A DMA ring (R427, R447). -/
structure Ring where
  /-- Owning function; R427; reset 0 -/
  fn : Nat := 0
  /-- KIND: 0 RECORD, 1 PUNT, 2 GATHER, 3 INJECT; R427; reset 0 -/
  kind : Nat := 0
  /-- 0 DISABLED, 1 enabled (IDLE, RUNNING or STALLED), 3 PARKED, 5 STOPPING; DMA.HEAD.STATE; reset 0 -/
  state : Nat := 0
  /-- NO_SNOOP, RELAXED; R447; reset 0 -/
  noSnoop : Bool := false
  relaxed : Bool := false
  /-- SIZE_LOG2; R447; reset 6 (DESIGN CHOICE, log 6) -/
  sizeLog : Nat := 6
  /-- SWAP; R432; reset 0 -/
  swap : Nat := 0
  /-- CQ, WEIGHT; R447; reset 0 (DESIGN CHOICE, log 6) -/
  cq : Nat := 0
  weight : Nat := 0
  /-- BASE_ADDR; 64 bits; R447; reset 0 (DESIGN CHOICE, log 6) -/
  base : Nat := 0
  /-- DMA.TAIL.TAIL; 16 bits; R437; reset 0 -/
  tail : Nat := 0
  /-- DMA.HEAD.HEAD; 16 bits; R437; reset 0 -/
  head : Nat := 0
  /-- DMA.HEAD.DB_IGNORED, HOST_ERROR; 1 bit each; reset 0 -/
  dbIgnored : Bool := false
  hostError : Bool := false
  /-- A doorbell is held until the descriptor read with END completes; R438; reset 0 -/
  held : Bool := false
  /-- STOPPING while parked: END is to be read again; R445; reset 0 -/
  parkedStop : Bool := false
  /-- Descriptors started and not completed, in order; R434; reset none -/
  started : List Started := []
  /-- Ticket of the disable; R445; reset none -/
  ticket : Option Nat := none
  /-- Finish tag of the ring in band 1, bytes over WEIGHT in units of 1/65,536; R444; reset 0 -/
  finish : Nat := 0
  deriving DecidableEq, Repr

/-- A completion queue (R434, R448). -/
structure Cq where
  /-- Owning function; R448; reset 0 -/
  fn : Nat := 0
  /-- ENABLE; R448; reset 0 -/
  enabled : Bool := false
  /-- SIZE_LOG2; R448; reset 6 (DESIGN CHOICE, log 6) -/
  sizeLog : Nat := 6
  /-- COALESCE_COUNT, COALESCE_NS; R448; reset 1, 0 (DESIGN CHOICE, log 6) -/
  coCount : Nat := 1
  coNs : Nat := 0
  /-- BASE_ADDR; 64 bits; R448; reset 0 (DESIGN CHOICE, log 6) -/
  base : Nat := 0
  /-- DMA.CQ_HEAD.HEAD; 16 bits; reset 0 -/
  head : Nat := 0
  /-- DMA.CQ_TAIL.TAIL; 16 bits; reset 0 -/
  tail : Nat := 0
  /-- DMA.CQ_TAIL.PHASE; 1 bit; reset 1 -/
  phase : Nat := 1
  /-- DMA.CQ_ARM.ARM; 1 bit; reset 0 -/
  arm : Bool := false
  /-- Entries reserved for started descriptors; R434; reset 0 -/
  reserved : Nat := 0
  /-- Entries written since the latest message and the instant of the oldest; R436; reset 0 -/
  since : Nat := 0
  oldest : Nat := 0
  deriving DecidableEq, Repr

/-- DMA (18_dma.md). -/
structure Dma where
  /-- Rings 0 to 2,047; R427 -/
  rings : Tbl Ring := []
  /-- Completion queues 0 to 63; R434 -/
  cqs : Tbl Cq := []
  /-- Punt map, latest mapping first: FIRST, LAST, ring or none; R449; reset none -/
  punt : List (Nat × Nat × Option Nat) := []
  /-- Punts waiting for delivery: ring and the punt header with the frame's bytes; R440, R441; reset none -/
  punts : List (Nat × List Byte) := []
  /-- Cascade notes and links waiting for their rings; R428; reset none -/
  notes : List (List Byte) := []
  links : List (Nat × List Byte) := []
  /-- Instant from which one more punt is within 20 Mpps; R443; reset 0 -/
  puntNext : Nat := 0
  /-- Arbitration of to-host transfers: the band 0 ring served last, and the virtual time of band 1; R444; reset 1,023 and 0 (DESIGN CHOICE,
  log 114) -/
  lastTurn : Nat := 1023
  virtual : Nat := 0
  deriving DecidableEq, Repr

-- THE CISTERN (13_cistern.md) ------------------------------------------------------------------------------------------

/-- A channel of the Cistern (R326, R338, R349). -/
structure Channel where
  /-- Channel in service; R343, R349; reset 0 until trained (R343) -/
  inService : Bool := false
  /-- Refresh band: 0 1×, 1 2×, 2 4×; R339; reset 0 -/
  band : Nat := 0
  /-- Owed count; R338; reset 0 -/
  owed : Nat := 0
  /-- FORCED, CORRECTED, UNCORRECTABLE; 16 bits each, saturating; R349; reset 0 -/
  forced : Nat := 0
  corrected : Nat := 0
  uncorrectable : Nat := 0
  /-- Instant of the latest interval boundary; R338; reset 0 (DESIGN CHOICE, log 6) -/
  intervalAt : Nat := 0
  /-- Interval oscillators WCK2DQI and WCK2DQO as last read; R327, R345; reset 0 (DESIGN CHOICE, log 6) -/
  oscillators : Nat × Nat := (0, 0)
  /-- Training or retraining under way; R343, R345; reset 0 -/
  training : Bool := false
  /-- Taken out of service by a training or verification that failed; R343, R344; reset 0 -/
  failed : Bool := false
  /-- Trained values, in registers that survive a warm reset; a free value of each training; R343, R344; reset 0 (DESIGN CHOICE, log 6) -/
  trained : Nat := 0
  /-- The training under way is the verification of a warm reset, and that has failed once: the array-free steps are tried; R344; reset 0 -/
  verifying : Bool := false
  retried : Bool := false
  /-- MR4 of ranks 0 and 1 as last read (0 1×, 1 2×, above it over temperature), and its instant; R327, R339; reset 0 and none -/
  mr4 : Nat × Nat := (0, 0)
  mr4At : Option Nat := none
  deriving DecidableEq, Repr

/-- The Cistern (13_cistern.md). -/
structure Cistern where
  /-- Channels 0 to 15; R326 -/
  channels : Tbl Channel := []
  /-- Region sizes in force, MiB: retention, ledger staging, spill; R332; reset 16,384 each -/
  layout : Nat × Nat × Nat := (16384, 16384, 16384)
  /-- Step Dry has lost what spill and archive held: the 8-byte words written since, none where nothing was lost; R332, R334; reset
  none -/
  lostSpill : Option (Tbl Bool) := none
  /-- Layout that flash holds for the next cold reset; R333; reset the defaults of R332 -/
  nextLayout : Nat × Nat × Nat := (16384, 16384, 16384)
  /-- Usable bytes as written, 51.2 GiB; R328; reset zeros (R343) -/
  mem : Tbl Byte := []
  /-- Bits that have flipped since in a stored word: data bits 0 to 63 and check bits 64 to 79, by usable 8-byte word; R328, R331, R347;
  reset none -/
  flips : Tbl Nat := []
  /-- Words that the patrol scrub has corrected and is about to write back; R346; reset none -/
  scrubBack : List Nat := []
  /-- PASR segment mask (MR23), the same in every channel: bit k set, segment k is not kept in self-refresh; 16 bits; R327, R334, R344;
  reset 0 (DESIGN CHOICE, log 6) -/
  pasr : Nat := 0
  /-- Every channel is in self-refresh; R344; reset 0 -/
  selfRefresh : Bool := false
  /-- `cistern.retrain` has been issued since the cold reset; R343; reset 0 -/
  retrained : Bool := false
  /-- SCRUB_PASS: patrol passes completed; 64 bits; R349; reset 0 -/
  scrubPass : Nat := 0
  /-- SCRUB_SINCE; R349; reset zeros (DESIGN CHOICE, log 6) -/
  scrubSince : Stamp := {}
  /-- Storage group at which the patrol scrub stands; R346, R371; reset 0 -/
  scrubAt : Nat := 0
  /-- Instant of the latest request of a master; R473; reset 0 (DESIGN CHOICE, log 6) -/
  askedAt : Nat := 0
  deriving DecidableEq, Repr

-- THE STEWARD (15_steward.md) ---------------------------------------------------------------------------------------------

/-- A Steward operation (R371, R385). -/
structure Op where
  id : Nat
  /-- operation code -/
  code : Nat
  /-- its command's ticket, 0 when hardware started it -/
  ticket : Nat := 0
  /-- 0 queued, 1 running, 2 yielded, 3 undoing -/
  state : Nat := 0
  /-- the request that asked for it, and what was read from host memory -/
  fn : Nat := 0
  req : List Byte := []
  host : List Byte := []
  /-- table, TCAM block, channel or other number that R383 compares; R383 -/
  key : Nat := 0
  /-- mailbox opcode of its command, 0 for hardware's -/
  opcode : Nat := 0
  /-- its command came from this unit's host; R395 -/
  own : Bool := false
  /-- beat number N of a swap; R160 -/
  beat : Nat := 0
  /-- acknowledgement due at its end: 0 to the partner, 1 to the manager, and the message's number; R305, R389 -/
  ack : Option (Nat × Nat) := none
  /-- PROGRESS of `steward.ops` -/
  progress : Nat := 0
  /-- past the point up to which R371 allows an abort -/
  past : Bool := false
  /-- an abort is registered -/
  aborting : Bool := false
  /-- of an EM_WRITE that inserts an entry and has been entered: the slot writes still to make, and the moves, PLACE and the two places
  that hold the new key on its way (R148, R380) -/
  plan : List (Nat × Option Em) := []
  planned : Option (Nat × Nat × List Nat) := none
  /-- of an EM_WRITE whose routine has been entered: the table's slots as it found them, which are those of Helm's shadow (R378) -/
  found : Option (Tbl (Option (List Nat))) := none
  /-- how far its work has come: the next entry, node, part or slot (R380) -/
  step : Nat := 0
  deriving DecidableEq, Repr

/-- A resume token (R381). -/
structure Token where
  op : Nat
  pc : Nat
  /-- microregisters saved: m60 to m62 and the live ones -/
  saved : List (Nat × Word64)
  first : Nat
  count : Nat
  /-- what its wait instruction still waits for, its Cistern reads and its table writes (R374) -/
  waiting : Nat × Nat × Nat := (0, 0, 0)
  issued : List (Nat × Option (List Byte)) := []
  crossing : Nat := 0
  deriving DecidableEq, Repr

/-- The Steward (15_steward.md). -/
structure Steward where
  /-- Operations running, yielded, undoing or queued, in order of request; up to 64 queued; R383, R385; reset none -/
  ops : List Op := []
  /-- The model's own: number of the next operation; reset 0 (DESIGN CHOICE, log 7) -/
  nextOp : Nat := 0
  /-- Microregisters m0 to m63; 64 bits each; R374; reset 0 (DESIGN CHOICE, log 6) -/
  regs : Tbl Word64 := []
  /-- PC; 15 bits; R375; reset 0 (DESIGN CHOICE, log 6) -/
  pc : Nat := 0
  /-- Words executed since the last safe point; R379; reset 0 -/
  words : Nat := 0
  /-- The running routine stands at a safe point; R379; reset 0 -/
  safe : Bool := false
  /-- Wait under way: 0 none, 1 TWAIT, 2 CWAIT, 3 EVWAIT with its event and operand; R374; reset none -/
  waiting : Nat × Nat × Nat := (0, 0, 0)
  /-- Instant from which the running routine has run; R381; reset 0 -/
  ranFrom : Nat := 0
  /-- TOKEN: first and count of the live registers; R374; reset 0 (DESIGN CHOICE, log 6) -/
  live : Nat × Nat := (0, 0)
  /-- Cistern reads issued and not completed: first microregister and the 64 bytes, none where they cannot be read; R374; reset none -/
  issued : List (Nat × Option (List Byte)) := []
  /-- Table writes issued and not crossed; R374; reset 0 -/
  crossing : Nat := 0
  /-- Token store; 16 entries; R381; reset empty -/
  tokens : List Token := []
  /-- Patch RAM; 512 words of 24 bits with their two parity bits above them; R375; reset 0 (DESIGN CHOICE, log 6) -/
  patch : Tbl Nat := []
  /-- Match registers 0 to 31; 24 bits; R376; reset 0 (invalid) -/
  matches_ : Tbl Nat := []
  /-- PATCH_ID; 32 bits; R385; reset 0 -/
  patchId : Nat := 0
  /-- PATCH_STATE: 0 none, 1 loaded, 2 rejected; R385; reset 0 -/
  patchState : Nat := 0
  /-- Table words written by TWR: Basin, space and address as one key; log 22; reset none -/
  rawWords : Tbl (Option Word64) := []
  /-- Block registers written by RWR; log 22; reset none -/
  rawRegs : Tbl (Option Word64) := []
  deriving DecidableEq, Repr

/-- The Steward as a reset leaves it: the training, or verification, of the Cistern's channels stands in its queue (R343, R344, R371). -/
def bringupSteward : Steward := { ops := [{ id := 0, code := 0x0B }], nextOp := 1 }

-- CASCADE (16_cascade.md) --------------------------------------------------------------------------------------------------

/-- A joined unit, as its manager holds it (R390, R391, R397, R401). -/
structure Member where
  num : Nat
  unit : Nat
  serial : List Byte
  pairId : Nat
  /-- a unit of a Pair, whose PAIR_ID may be any; R321, R390 -/
  paired : Bool := false
  /-- role last shown: 0 SOLO, 1 ACTIVE and the others of R323 -/
  role : Nat
  /-- Port on which its JOIN arrived; R389 -/
  port : Nat
  /-- instant of its latest STATUS; R391 -/
  statusAt : Nat
  /-- instant of its latest message of any kind; R401 -/
  heardAt : Nat := 0
  /-- instant at which it last showed itself as sending; R401 -/
  sentAt : Option Nat := none
  /-- PUSH set on it, as its STATUS shows -/
  push : Bool := true
  outOfStep : Bool := false
  /-- numbers of the notes taken from it, newest first, so that one sent again is only acknowledged; R389 -/
  notesSeen : List Nat := []
  deriving DecidableEq, Repr

/-- A joining worker further down, as a relaying worker knows it: serial, the Port on which its JOIN arrived, and its member number and
unit once accepted (R389). -/
structure Route where
  serial : List Byte
  port : Nat
  member : Nat := 0xFF
  unit : Nat
  deriving DecidableEq, Repr

/-- The beats that a worker takes on one Port (R95, R392, R393). -/
structure BeatLink where
  /-- BEATs taken since the latest echo, and the link delay last measured; R392; reset 0 -/
  beats : Nat := 0
  linkDelay : Nat := 0
  /-- Instant of the latest BEAT, and the instant since which none has been missed for 1 µs; R95; reset none -/
  at_ : Option Nat := none
  since : Option Nat := none
  /-- Offset from the manager of the latest BEAT, ticks; R392; reset 0 -/
  offset : Int := 0
  /-- Hop count of the latest BEAT; R405; reset none -/
  hops : Option Nat := none
  /-- BOUND of the latest BEAT plus the 32 ticks of the hop; R107, R392; reset none -/
  bound : Option Nat := none
  deriving DecidableEq, Repr

/-- A Cascade (16_cascade.md). -/
structure Cascade where
  /-- CASCADE_ID; 32 bits; R402; reset 0, kept in flash with the role (log 18) -/
  cascadeId : Nat := 0
  /-- ROLE: 0 none, 1 manager, 2 worker; R402; reset as flash holds it, 0 as made (log 18) -/
  role : Nat := 0
  /-- PUSH, OPEN, WITNESS; R402; reset 0 (log 18) -/
  push : Bool := false
  open_ : Bool := false
  witness : Bool := false
  /-- MAX_HOPS; R402; reset 1 (DESIGN CHOICE, log 6) -/
  maxHops : Nat := 1
  /-- NOTE_RING, LINK_RING; R402; reset none -/
  noteRing : Option Nat := none
  linkRing : Option Nat := none
  /-- ROOT_HASH; 32 bytes; R402; reset zeros (DESIGN CHOICE, log 6) -/
  rootHash : List Byte := List.replicate 32 0
  /-- Allow list: serial and member number, 0 for any; R403; reset empty -/
  allow : List (List Byte × Nat) := []
  /-- Serials expelled; R391; reset none -/
  expelled : List (List Byte) := []
  /-- Joined units; R390; reset none -/
  members : List Member := []
  /-- Own member number; R390; reset none, 0 as manager -/
  own : Option Nat := none
  /-- Nonce of the latest DISCOVER sent or of the latest JOIN; 16 bytes; R390; reset zeros (DESIGN CHOICE, log 6) -/
  nonce : List Byte := List.replicate 16 0
  /-- Manager's serial and nonce of the DISCOVER answered; R390; reset none -/
  answered : Option (List Byte × List Byte) := none
  /-- Instant of the latest DISCOVER or ACK taken, none once MANAGER_LOST is raised; R391; reset none -/
  contactAt : Option Nat := none
  /-- MSG_SEQ of the next message of each kind and destination; R389; reset 0 -/
  msgSeq : Tbl Nat := []
  /-- PUSH and SEAL_NOTE messages not yet acknowledged; R389; reset none -/
  unacked : List Unacked := []
  /-- Workers beyond this one; R389; reset none -/
  routes : List Route := []
  /-- MSG_SEQ of the next PUSH to apply; R395; reset 0 -/
  pushNext : Nat := 0
  /-- Messages for another member discarded; R389; reset 0 -/
  misdirected : Nat := 0
  /-- Beats of the Ports that `time.source` names; R392, R393; reset none -/
  links : Tbl BeatLink := []
  /-- First fragment of a JOIN by serial, until the second comes; R389; reset none -/
  joinParts : List (List Byte × List Byte) := []
  /-- Programmed commands done at once that wait to be pushed after those issued before them: the number that the next operation had, opcode
  and request; R395; reset none -/
  pushWait : List (Nat × Nat × List Byte) := []
  /-- Parts of a long PUSH received ahead of its last message; R389, log 16; reset empty -/
  pushPart : List Byte := []
  /-- Seal notes kept until acknowledged, and GAP due on the next; R398; reset none -/
  gapDue : Bool := false
  /-- NEXT_LINK; 64 bits; R399, R405; reset 0 -/
  nextLink : Nat := 0
  /-- LINK_HASH of the previous link; R399; reset zeros -/
  lastLink : List Byte := List.replicate 32 0
  /-- Notes received since the last link; R399; reset none -/
  linkNotes : List (List Byte) := []
  /-- SWAP_LATE; 64 bits; R396, R405; reset 0 -/
  swapLate : Nat := 0
  /-- Unit that each worker Pair's verdict grants and the instant of the last message it sent; R401; reset none -/
  grants : Tbl (Option (Nat × Nat)) := []
  /-- Members whose digests are to be compared, number × 256 + unit, and the ticket of `cascade.resync`, 0 for a join; R397, R404; reset none -/
  resyncs : List (Nat × Nat) := []
  deriving DecidableEq, Repr
-- TABLES, ACTIONS AND LEARNING (05_parser.md, 06_tables.md, 07_actions_learning.md) -------------------------------------------

/-- Learning of one learned table (R194). -/
structure LearnCfg where
  moveLimit : Nat := 4
  vidSrc : Nat := 0xFFFF
  segments : List Byte := []
  template : Nat := 0
  floodBase : Nat := 0
  holdDown : Nat := 30
  ageTime : Nat := 300
  moveWindow : Nat := 1000
  /-- instant of the latest sweep; R187 -/
  sweptAt : Nat := 0
  deriving DecidableEq, Repr

/-- A learn request (R183). -/
structure LearnReq where
  table : Nat
  key : List Byte
  ticks : Nat
  port : Nat
  frame : Nat
  /-- released and waiting for the Steward; R185 -/
  released : Bool := false
  /-- the table's settings at its release; R194 -/
  cfg : LearnCfg := {}
  deriving DecidableEq, Repr

/-- A key of the move tracker (R186). -/
structure Track where
  table : Nat
  key : List Byte
  moves : Nat
  /-- TICKS of the stamp that opened its window -/
  opened : Nat
  /-- instant of its pin, and its HOLD_DOWN; R186, R194 -/
  pinnedAt : Option Nat := none
  holdDown : Nat := 30
  deriving DecidableEq, Repr

/-- What one Basin holds for itself (R143, R183 to R190, R128, R282). -/
structure Basin where
  /-- Learned exact-match tables: slots by bucket × 4 + slot, stash entries from 2^23, each with its 3 or 12 words of 64 bits; a slot
  that is not listed reads 0; R143, R146; reset empty -/
  em : Tbl (Tbl (Option (List Nat))) := []
  /-- Learn queue in order of stamp; 1,024 requests; R184; reset empty -/
  queue : List LearnReq := []
  /-- Recently completed requests: table, key, Port and the instant at which it leaves; 64 entries; R183; reset empty -/
  filter : List (Nat × List Byte × Nat × Nat) := []
  /-- Move tracker; 4,096 keys; R186; reset empty -/
  tracker : List Track := []
  /-- MALFORMED and TRUNCATED actions: 0 DROP, 1 L2_ONLY, 2 PUNT; R128, R136; reset 0 -/
  malformed : Nat := 0
  truncated : Nat := 0
  /-- Instant at which the digest engine took its latest frame; R282; reset none -/
  digestAt : Option Nat := none
  deriving DecidableEq, Repr

/-- A table entry whose copy in one Basin fails parity or has been cleared (R155, R156, R172, R504). -/
structure BadEntry where
  basin : Nat
  /-- ADDRESS of R504 -/
  addr : Nat
  /-- instant of the report -/
  at_ : Nat
  /-- not yet re-read by the Steward; R156 -/
  suspect : Bool
  deriving DecidableEq, Repr

/-- A word of the LPM node store under its parity bit (R151, R153): a trie node with the bitmaps of its internal prefixes and children,
each as the list of its ones, and the addresses of its packed child and leaf arrays; or a leaf with its action index. -/
inductive LpmWord where
  | node (internal children : List Nat) (childArray leafArray : Nat) (parity : Bool)
  | leaf (action : Nat) (parity : Bool)
  deriving DecidableEq, Repr

/-- An array of the LPM node store (R151, R152). -/
structure LpmArr where
  /-- word address of its first word -/
  base : Nat
  words : List LpmWord
  /-- instant of the switch that left it unused; none while it is in use -/
  freed : Option Nat := none
  deriving DecidableEq, Repr

/-- A mirror session (R193). -/
structure Session where
  enabled : Bool := false
  punt : Bool := false
  port : Nat := 0
  queue : Nat := 0
  truncate : Nat := 0
  sample : Nat := 1
  /-- frames seen since the latest mirrored one; R176 -/
  seen : Nat := 0
  deriving DecidableEq, Repr

/-- A swap that has been asked for and whose ticket is open (R160). -/
structure Swap where
  /-- Steward operation -/
  op : Nat
  /-- beat number N -/
  beat : Nat
  flipped : Bool := false
  /-- its PUSH has left; R396 -/
  pushed : Bool := false
  deriving DecidableEq, Repr

/-- The tables (05_parser.md, 06_tables.md, 07_actions_learning.md). -/
structure Tables where
  /-- Generation A; R138 -/
  genA : Gen := {}
  /-- Generation B; R138 -/
  genB : Gen := {}
  /-- Current generation: 0 A, 1 B; R168; reset 0 (DESIGN CHOICE, log 6) -/
  current : Nat := 0
  /-- Exact-match table definitions 0 to 15; R142; reset none -/
  defs : Tbl EmDef := []
  /-- Programmed exact-match entries, as all eight Basins hold them: table, then slot by bucket × 4 + slot, stash entries
  from 2^23, each with its 3 or 12 words of 64 bits; a slot that is not listed reads 0; R143, R146; reset empty -/
  em : Tbl (Tbl (Option (List Nat))) := []
  /-- Entries whose copy in one Basin cannot be used; R504; reset none -/
  bad : List BadEntry := []
  /-- LPM node store, as all eight Basins hold it: its arrays; R138, R151, R152; reset empty -/
  lpm : List LpmArr := []
  /-- PARITY_EVENTS; 32 bits; R168; reset 0 -/
  parityEvents : Nat := 0
  /-- Swap under way; R160; reset none -/
  swap : Option Swap := none
  /-- Multicast groups 0 to 32,767: copy entries of 8 bytes; R177; reset empty -/
  mcast : Tbl (List Nat) := []
  /-- Mirror sessions 0 to 7; R193; reset disabled -/
  sessions : Tbl Session := []
  /-- REACH, ns; R184; reset 2,000 -/
  reach : Nat := 2000
  /-- Learning of tables 0 to 15; R194; reset the defaults -/
  learn : Tbl (Option LearnCfg) := []
  /-- Basins 0 to 7 -/
  basins : Tbl Basin := []
  /-- PUNT_RATE, frames/s; R130; reset 0 -/
  puntRate : Nat := 0
  /-- PUNT_BURST, frames; R130; reset 1 -/
  puntBurst : Nat := 1
  /-- Parse punt bucket, in 1/16,000,000,000 frame, and the instant of its latest update; R130; reset full -/
  puntTokens : Nat := 16000000000
  puntAt : Nat := 0
  deriving DecidableEq, Repr


-- THE DEVICE ----------------------------------------------------------------------------------------------------

/-- The device, all but the queue of commands. -/
structure Dev where
  /-- Elapsed time since power was applied, ticks of 1/16 ns; log 1; reset 0 -/
  clock : Nat := 0
  /-- The model's own: index of the next free value; log 7; reset 0 (DESIGN CHOICE) -/
  freeIdx : Nat := 0
  /-- Mailboxes 0 to 15; R408, R410 -/
  boxes : Tbl Box := []
  /-- PCIe functions 0 and 1; R408 -/
  fns : Tbl Fn := []
  helm : Helm := {}
  coll : Collector := {}
  guard : Guard := {}
  time : Time := {}
  ptp : Ptp := {}
  ledger : Ledger := {}
  pair : Pair := {}
  counters : Counters := {}
  tm : Tm := {}
  spec : Spec := {}
  /-- Frames in the device; R214; reset none -/
  frames : Tbl Frame := []
  /-- Copies in the device; R217; reset none -/
  copies : Tbl Copy := []
  /-- The model's own: numbers the next frame and the next copy take; reset 0 (DESIGN CHOICE, log 7) -/
  nextFrame : Nat := 0
  nextCopy : Nat := 0
  /-- Ports 0 to 511; R18, R65 -/
  ports : Tbl Port := []
  /-- I2C masters 0 to 15; R78 -/
  masters : Tbl I2cMaster := []
  power : Power := {}
  release : Release := {}
  dma : Dma := {}
  cistern : Cistern := {}
  steward : Steward := {}
  cascade : Cascade := {}
  tables : Tables := {}
  /-- What has left the device, newest first; log 3; reset empty -/
  out : List Emission := []
  deriving DecidableEq, Repr

/-- The state of the block: the commands that wait, first in first out, and the device. -/
structure State where
  pending : List Instr := []
  dev : Dev := {}
  deriving DecidableEq, Repr

/-- The device right after a cold reset, with no command waiting (assumption log 6 names every value that the spec
does not give). -/
def State.reset : State := { dev := { steward := bringupSteward } }

/-- Why a step stops with a fault. The spec gives an effect to every command, so no meaning answers one: a
command that the device does not act on leaves it as it is. -/
inductive Fault where
  /-- raised by no meaning; the host's interface asks for the type (safe) -/
  | none
  deriving DecidableEq, Repr

/-- Why a step is refused. -/
inductive Refusal where
  /-- a command this model gives no meaning yet, by its mnemonic; raised by `exec` alone (safe) -/
  | notModelled (mnemonic : String)
  deriving DecidableEq, Repr

end Sys2Proof.Machine
end

