-- ==== Sys2Proof/Machine/Ops.lean ====
section
/-!
DEFINITION. The operations every meaning is built from: tables, time and stamps, events, faults, counters,
tickets, ledger records, and the mailbox round of R411.
-/

namespace Sys2Proof.Machine

-- Tables ------------------------------------------------------------------------------------------------------

/-- What a table holds at a key; `d` is what an unlisted key reads as. -/
def tget {α : Type} (d : α) : Tbl α → Nat → α
  | [], _ => d
  | (k', v) :: t, k => if k' = k then v else tget d t k

/-- A table with an entry for a key, before the first larger key or in place of the entry that the key had. -/
def tins {α : Type} (k : Nat) (v : α) : Tbl α → Tbl α
  | [] => [(k, v)]
  | (k', v') :: t => if k < k' then (k, v) :: (k', v') :: t else if k = k' then (k, v) :: t else (k', v') :: tins k v t

/-- A table with a key set: keys stay strictly rising, and no entry equal to `d` is kept. -/
def tput {α : Type} [DecidableEq α] (d : α) (k : Nat) (v : α) (t : Tbl α) : Tbl α :=
  if v = d then t.filter (fun e => e.1 != k) else tins k v t

/-- A table with a key's value changed by a function. -/
def tmod {α : Type} [DecidableEq α] (d : α) (k : Nat) (f : α → α) (t : Tbl α) : Tbl α := tput d k (f (tget d t k)) t

/-- The canonical form of a table: keys strictly rising, no entry equal to `d`. -/
def twf {α : Type} [DecidableEq α] (d : α) : Tbl α → Bool
  | [] => true
  | (k, v) :: t => decide (v ≠ d) && t.all (fun e => decide (k < e.1)) && twf d t

-- The step's frame ------------------------------------------------------------------------------------------------

/-- A command's effect is one on the device; the queue of commands is the step's own. -/
def act (f : Dev → Dev) (s : State) : Host.Outcome State Fault Refusal := .next { s with dev := f s.dev }

def emit (e : Emission) (d : Dev) : Dev := { d with out := e :: d.out }

/-- The next free value (log 7). -/
def takeFree (d : Dev) : Nat × Dev := ((Config.freeValue d.freeIdx).toNat, { d with freeIdx := d.freeIdx + 1 })

-- Time (04_time.md) -------------------------------------------------------------------------------------------------

/-- 2^40: the unit of a Time Core's fraction (R86). -/
def fracOne : Nat := 1099511627776

/-- A Time Core after `dt` ticks of its nominal clock: each 20-tick cycle adds 20 ticks, the fraction and the slew
(R86, R87). -/
def Core.advance (c : Core) (dt : Nat) : Core :=
  { c with acc := ((c.acc : Int) + dt * (20 * fracOne + c.frac + c.slew)).toNat }

/-- A Time Core's count of whole ticks, 64 bits (R86). -/
def coreTicks (c : Core) : Nat := c.acc / (20 * fracOne) % 2 ^ 64

/-- The instant of a step: no time passes where `t` is not later (log 1). -/
def advance (t : Nat) (d : Dev) : Dev :=
  let dt := t - d.clock
  { d with clock := d.clock + dt
           time := { d.time with west := d.time.west.advance dt, east := d.time.east.advance dt } }

/-- Whether an island lies on the East die (R27, R501). -/
def islandEast (i : Nat) : Bool :=
  within i 0x20 0x3F || within i 0x44 0x47 || i == 0x49 || i == 0x4B || i == 0x4E

/-- Whether an island takes its beats from Time Core East (R89, R91). -/
def fromEast (d : Dev) (i : Nat) : Bool :=
  if islandEast i then !d.time.eastRepointed else d.time.westRepointed

def islandCore (d : Dev) (i : Nat) : Core := if fromEast d i then d.time.east else d.time.west

def island (d : Dev) (i : Nat) : Island := tget {} d.time.islands i

/-- Of 4,096, how much of an island's slew has been made: it lasts 256 ns (R92). -/
def Island.slewed (x : Island) (clock : Nat) : Nat := min (clock - x.slewFrom) 4096

/-- An island's counter less the core's, rounded up to whole ticks so that a new slew never starts below the old one (R92). -/
def Island.settled (x : Island) (clock : Nat) : Int := x.offset - (-(x.slewBy * x.slewed clock)) / 4096

/-- An island's local counter: it follows its core, and slews toward the correction of the latest beat (R92). -/
def islandTicks (d : Dev) (i : Nat) : Nat :=
  let x := island d i
  (((islandCore d i).acc + x.offset * (20 * fracOne : Nat) + x.slewBy * x.slewed d.clock * (20 * fracOne / 4096 : Nat)) / (20 * fracOne : Nat)).toNat
    % 2 ^ 64

/-- The holdover growth G of R100, none for saturated: F in 0.001 ppb, A in 0.000001 ppb/s, `e` ticks since entry. -/
def growthAt (f a : Option Nat) (e : Nat) : Option Nat :=
  match f, a with
  | some f, some a => some (ceilDiv (f * e * 32000000000000 + a * e * e) 32000000000000000000000000)
  | _, _ => none

/-- The growth now: 0 outside HOLDOVER; a new oscillator statement counts from the next beat on (R100, R107, R113). -/
def growthNow (d : Dev) : Option Nat :=
  match d.time.holdover with
  | none => some 0
  | some (since, _) => growthAt d.time.heldFreq d.time.heldAging (d.clock - since)

/-- BOUND: the sum of the terms, saturated at 0xFFFF; 0xFFFF in FREERUN, and in HOLDOVER while the oscillator is unstated
(R97, R100, R107). -/
def boundOf (d : Dev) (servoTerm : Nat) (growth : Option Nat) (terms : Nat) : Nat :=
  if d.time.servo = 0 || (d.time.servo == 3 && (d.time.heldFreq.isNone || d.time.heldAging.isNone)) then 0xFFFF
  else match growth with
    | none => 0xFFFF
    | some g => min 0xFFFF (servoTerm + g + terms)

/-- QUAL (R105): LOCKED, HOLDOVER, FREERUN, STEPPED, SUSPECT and SRC. -/
def qualOf (d : Dev) (suspect : Bool) : Nat :=
  b2n (d.time.servo = 2) + 2 * b2n (d.time.servo = 3) + 4 * b2n (d.time.servo = 0) + 8 * b2n d.time.steppedFlag
    + 16 * b2n (suspect || d.time.mismatch.isSome || d.time.unresolved)
    + 32 * (if d.time.servo = 0 then 0 else d.time.src % 8)

/-- The island term of BOUND: 7 ticks, 10 on a repointed die (R107). -/
def islandTerm (d : Dev) (i : Nat) : Nat :=
  if (if islandEast i then d.time.eastRepointed else d.time.westRepointed) then 10 else 7

/-- The servo term and the growth that an island counts: those of its latest beat, but for a beat before the servo's latest change of
state or source, after which its core's count (log 109); the growth is 0 outside HOLDOVER (R91, R97, R107, R108). -/
def islandTerms (d : Dev) (i : Nat) : Nat × Option Nat :=
  let s := island d i
  let (term, g) := if d.time.changedAt < s.beatAt then (s.servoTerm, s.growth) else ((islandCore d i).servoTerm, growthNow d)
  (term, if d.time.servo = 3 then g else some 0)

/-- A stamp captured in an island, with the capture term in ticks (R105, R107). -/
def stampAt (d : Dev) (i capture : Nat) : Stamp :=
  let s := island d i
  { ticks := islandTicks d i, bound := boundOf d (islandTerms d i).1 (islandTerms d i).2 (islandTerm d i + capture),
    qual := qualOf d s.suspect, plane := i }

/-- The beat number that Time Core West has reached (R91). -/
def beatNow (d : Dev) : Nat := coreTicks d.time.west / 4096

/-- A stamp of a Time Core itself: island and capture terms 0 (R107, R112). -/
def coreStamp (d : Dev) (east : Bool) : Stamp :=
  let c := if east then d.time.east else d.time.west
  { ticks := coreTicks c, bound := boundOf d c.servoTerm (growthNow d) 0, qual := qualOf d false,
    plane := if east then 0x4B else 0x4A }

/-- The unusable table entries as Helm's state changes: those it has rewritten by then are good, and what waits for a READY Helm is
rewritten 1 ms after that (R504, log 14). -/
def settleBad (ready : Bool) (d : Dev) : Dev :=
  let bad := if ready then d.tables.bad.map fun e => { e with at_ := d.clock }
    else d.tables.bad.filter fun e => e.suspect || decide (d.clock < e.at_ + 16000000)
  { d with tables := { d.tables with bad } }

/-- Helm's stamp of a detection (R117, R416). -/
def helmStamp (d : Dev) : Stamp := stampAt d 0x4C 0

/-- The 12 bytes of a stamp in host memory and the Cistern (R8, R105). -/
def stampBytes (s : Stamp) : List Byte := le 8 s.ticks ++ le 2 s.bound ++ le 1 s.qual ++ le 1 s.plane

def stampOfBytes (b : List Byte) : Stamp := { ticks := leAt b 0 8, bound := leAt b 8 2, qual := byteAt b 10, plane := byteAt b 11 }

-- Counters (19_counters.md) ------------------------------------------------------------------------------------------

/-- The program the default map gives a counter (R458). -/
def mapProg (c : Nat) : Prog :=
  if c < 0x80000 then {}
  else if c < 0x81000 then
    let p := (c - 0x80000) / 8; let k := c % 8
    { event := if k < 4 then 0x100 else 0x200, inst := p, bytes := k / 2 % 2 == 1, chain := k % 2 == 0 }
  else if c < 0x85000 then
    let e := c % 32; if within e 1 23 then { event := 0x100 + e, inst := (c - 0x81000) / 32 } else {}
  else if c < 0x89000 then
    let e := c % 32; if within e 1 13 then { event := 0x200 + e, inst := (c - 0x85000) / 32 } else {}
  else if c < 0x89800 then
    let e := c % 256; if e ≤ 0x17 || within e 0x40 0x4B then { event := 0x300 + e, inst := (c - 0x89000) / 256 } else {}
  else if c < 0x89820 then
    let e := c % 16; if e ≤ 13 then { event := 0x500 + e, inst := (c - 0x89800) / 16 } else {}
  else if c < 0x89900 then {}
  else if c < 0x89A00 then
    let e := c - 0x89900; if e ≤ 12 then { event := 0x800 + e, inst := 0 } else {}
  else if c < 0x89B00 then { event := 0x600 + c % 4, inst := (c - 0x89A00) / 4 }
  else if c < 0x89C00 then { event := 0x610, inst := c - 0x89B00 }
  else if c < 0xA0000 then {}
  else if c < 0xE0000 then
    let e := c % 4; if e ≤ 2 then { event := 0x400 + e, inst := (c - 0xA0000) / 4 } else {}
  else let e := c % 4; if e ≤ 2 then { event := 0x700 + e, inst := (c - 0xE0000) / 4 } else {}

/-- The default map programs a counter (R458). -/
def inDefaultMap (c : Nat) : Bool := decide (c < 0x80000) || decide (0x89C00 ≤ c) || mapProg c != {}

/-- The counters to which the default map gives an event and instance (R458). -/
def mapCounters (event inst : Nat) : List Nat :=
  let e := event % 256
  if event = 0x100 then [0x80000 + 8 * inst, 0x80000 + 8 * inst + 2]
  else if event = 0x200 then [0x80000 + 8 * inst + 4, 0x80000 + 8 * inst + 6]
  else if event / 256 = 1 then [0x81000 + 32 * inst + e]
  else if event / 256 = 2 then [0x85000 + 32 * inst + e]
  else if event / 256 = 3 then [0x89000 + 256 * inst + e]
  else if event / 256 = 4 then [0xA0000 + 4 * inst + e]
  else if event / 256 = 5 then [0x89800 + 16 * inst + e]
  else if event = 0x610 then [0x89B00 + inst]
  else if event / 256 = 6 then [0x89A00 + 4 * inst + e]
  else if event / 256 = 7 then [0xE0000 + 4 * inst + e]
  else if event / 256 = 8 then [0x89900 + e]
  else []

/-- A counter's program in force (R451, R458). -/
def progOf (d : Dev) (c : Nat) : Prog :=
  match tget none d.counters.progs c with
  | some p => p
  | none => if d.counters.mapped then mapProg c else {}

/-- Counter `c` is the high half of a chained pair (R452). -/
def isHighHalf (d : Dev) (c : Nat) : Bool := c % 2 == 1 && (progOf d (c - 1)).chain

def counterWord (d : Dev) (c : Nat) : Nat := tget 0 d.counters.values c

/-- The cycle of the counter banks: they run in the traffic managers' islands, at 1.5 GHz (R27, R450). -/
def bankCycle (d : Dev) : Nat := 3 * d.clock / 32

/-- What a read of this bank cycle returns: the value before any increment of the cycle (R453). -/
def counterSeen (d : Dev) (c : Nat) : Nat :=
  match (if d.counters.cycle = bankCycle d then d.counters.before.find? fun e => e.1 == c else none) with
  | some e => e.2
  | none => counterWord d c

/-- A counter is set to a value at once, whatever has been added in this cycle. -/
def setCounter (c v : Nat) (d : Dev) : Dev :=
  { d with counters := { d.counters with values := tput 0 c (v % 2 ^ 32) d.counters.values, before := d.counters.before.filter fun e => e.1 != c } }

/-- A counter takes an increment's result; the reads of this bank cycle go on seeing what it held before (R453). -/
def bumpCounter (c v : Nat) (d : Dev) : Dev :=
  let x := d.counters
  let seen := counterSeen d c
  let before := if x.cycle = bankCycle d then x.before.filter fun e => e.1 != c else []
  { d with counters := { x with values := tput 0 c (v % 2 ^ 32) x.values, cycle := bankCycle d, before := (c, seen) :: before } }

/-- Adds to a counter: modulo 2^32, or modulo 2^64 with the carry into the high half of a chained pair (R450, R452). -/
def addCounter (c n : Nat) (d : Dev) : Dev :=
  if (progOf d c).chain then
    let v := counterWord d c + 2 ^ 32 * counterWord d (c + 1) + n
    bumpCounter (c + 1) (v / 2 ^ 32) (bumpCounter c v d)
  else bumpCounter c (counterWord d c + n) d

/-- Counts an event of an instance on every counter programmed for it (R450, R451). -/
def countIn (event inst bytes : Nat) (d : Dev) : Dev :=
  let listed := d.counters.progs.filterMap fun (c, p) =>
    match p with
    | some p => if p.event == event && p.inst == inst then some c else none
    | none => none
  let mapped := (mapCounters event inst).filter fun c => d.counters.mapped && (tget none d.counters.progs c).isNone
  (mapped ++ listed).foldl (fun d c =>
    if isHighHalf d c then d else addCounter c (if (progOf d c).bytes then bytes else 1) d) d

def count (event inst : Nat) (d : Dev) : Dev := countIn event inst 0 d

/-- Counts an ingress event on its Port and on its Basin's sum (R131, R451). -/
def countRx (event port bytes : Nat) (d : Dev) : Dev :=
  countIn (event + 0x200) (port / 64) bytes (countIn event port bytes d)

/-- Counts a committed frame on the counter its action names, unless that counter counts something else (R451). -/
def countAction (c bytes : Nat) (d : Dev) : Dev :=
  if (progOf d c).event == 0 && !isHighHalf d c then addCounter c (if (progOf d c).bytes then bytes else 1) d else d

def repeatCount (event inst : Nat) : Nat → Dev → Dev
  | 0, d => d
  | n + 1, d => repeatCount event inst n (count event inst d)

-- Event records (R416, R417) ------------------------------------------------------------------------------------------

def fnOf (d : Dev) (f : Nat) : Fn := tget {} d.fns f
def setFn (f : Nat) (x : Fn) (d : Dev) : Dev := { d with fns := tput {} f x d.fns }

/-- The functions present: 0, and 1 when bifurcated (R408). -/
def functions (d : Dev) : List Nat := if d.helm.bifurcated then [0, 1] else [0]

/-- A link event and a module event of one Port with the same stamp go link event first (R82). -/
def goesBefore (e x : EvRec) : Bool :=
  within e.code 0x0101 0x0106 && within x.code 0x0111 0x0116 && x.subject == e.subject && x.stamp.ticks == e.stamp.ticks

/-- A record joins the end of a function's queue, but for R82. -/
def putEvent (e : EvRec) : List EvRec → List EvRec
  | [] => [e]
  | x :: t => if goesBefore e x then e :: x :: t else x :: putEvent e t

/-- Queues one record for one function: discarded and counted while it has no ring or its queue is full; the next that
fits is preceded by EVENTS_LOST (R417, R421). -/
def raiseTo (f : Nat) (e : EvRec) (d : Dev) : Dev :=
  let x := fnOf d f
  if x.evRing.isNone then count 0x80C 0 (setFn f { x with evLost := x.evLost + 1 } d)
  else if x.evLost = 0 then
    if x.evq.length < 4096 then setFn f { x with evq := putEvent e x.evq } d
    else count 0x80C 0 (setFn f { x with evLost := 1 } d)
  else if x.evq.length + 1 < 4096 then
    setFn f { x with evq := x.evq ++ [{ e with code := 0x0002, subject := 0xFFFF, detail := x.evLost, ext := [] }, e], evLost := 0 } d
  else count 0x80C 0 (setFn f { x with evLost := x.evLost + 1 } d)

/-- Whether Helm is stopped: its records are held and carry DEFERRED (R426). -/
def helmStopped (d : Dev) : Bool := d.helm.state == 2 || d.helm.state == 3

/-- Raises an event on every function (R416). -/
def raise (code subject detail : Nat) (ext : List Byte) (d : Dev) : Dev :=
  let e : EvRec := { code, subject, stamp := helmStamp d, detail := detail % 2 ^ 32, ext, deferred := helmStopped d }
  (functions d).foldl (fun d f => raiseTo f e d) d

-- Fault reports (R352 to R355) -----------------------------------------------------------------------------------------

/-- A fault message as sent: SOURCE, KIND and ADDRESS (R352). -/
def faultWord (source kind addr : Nat) : Word64 := BitVec.ofNat 64 (source % 4096 * 2 ^ 52 + kind % 64 * 2 ^ 46 + addr % 2 ^ 40)

def msgSource (w : Word64) : Nat := w.toNat / 2 ^ 52
def msgKind (w : Word64) : Nat := w.toNat / 2 ^ 46 % 64
def msgAddr (w : Word64) : Nat := w.toNat % 2 ^ 40

/-- Kinds that are conditions (R355). -/
def isCondition (k : Nat) : Bool :=
  [0x09, 0x10, 0x12, 0x13, 0x14, 0x15, 0x17, 0x18, 0x1A, 0x1B, 0x1E, 0x1F, 0x20, 0x24, 0x28, 0x2B, 0x2D, 0x2E, 0x2F, 0x30, 0x32].contains k

/-- Kinds with G = Yes (R355). -/
def isGuardKind (k : Nat) : Bool :=
  [0x03, 0x0A, 0x0B, 0x0D, 0x0E, 0x0F, 0x10, 0x11, 0x12, 0x17, 0x1E, 0x21, 0x22, 0x24, 0x2E].contains k

/-- Whether a condition of a source is present. -/
def isPresent (d : Dev) (source kind : Nat) : Bool := (tget [] d.coll.present source).contains kind

/-- Raises a source's PRESENT line for a condition kind (R355). -/
def setPresent (source kind : Nat) (d : Dev) : Dev :=
  if isCondition kind then
    { d with coll := { d.coll with present := tmod [] source (fun ks => if ks.contains kind then ks else ks ++ [kind]) d.coll.present } }
  else d

/-- A condition of a source has ended (R355). -/
def endCondition (source kind : Nat) (d : Dev) : Dev :=
  { d with coll := { d.coll with present := tmod [] source (fun ks => ks.filter (· != kind)) d.coll.present } }

/-- A block hands a message to its source's reporter: 16 messages wait; while full, the first of each kind not yet
queued is kept and the rest are counted (R353). -/
def report (source kind addr : Nat) (d : Dev) : Dev :=
  let w := faultWord source kind addr
  let d := setPresent source kind d
  { d with coll := { d.coll with reporters := tmod {} source (fun (r : Reporter) =>
      if r.queue.length < 16 || !(r.queue.any fun m => msgKind m == kind % 64) then { r with queue := r.queue ++ [w] }
      else { r with dropped := r.dropped + 1 }) d.coll.reporters } }

-- Status codes and tickets (R414, R415) -------------------------------------------------------------------------------

def stOk : Nat := 0x0000
def stPending : Nat := 0x0001
def stAdvanced : Nat := 0x0002
def stBusy : Nat := 0x0010
def stRange : Nat := 0x0011
def stFull : Nat := 0x0012
def stConflict : Nat := 0x0013
def stStale : Nat := 0x0014
def stDenied : Nat := 0x0015
def stFault : Nat := 0x0016

/-- Opens a ticket for a function; none while 1,024 are open (R415). -/
def openTicket (f : Nat) (d : Dev) : Option (Nat × Dev) :=
  if d.helm.open_.length < 1024 then
    let n := d.helm.nextTicket
    some (n, { d with helm := { d.helm with nextTicket := if n = 0xFFFFFFFF then 1 else n + 1, open_ := d.helm.open_ ++ [{ num := n, fn := f }] } })
  else none

/-- Completes an open ticket with its response bytes: kept for `ticket.status`, and TICKET_DONE goes to the function
that issued the command (R415). -/
def finishTicket (n : Nat) (bytes : List Byte) (d : Dev) : Dev :=
  match d.helm.open_.find? (fun t => t.num == n) with
  | none => d
  | some tk =>
    let b := padTo 32 bytes
    let d := { d with helm := { d.helm with open_ := d.helm.open_.filter (fun t => t.num != n),
                                            done := ({ num := n, bytes := b } :: d.helm.done).take 4096 } }
    raiseTo tk.fn { code := 0x0001, subject := 0xFFFF, stamp := helmStamp d, detail := n, ext := b, deferred := helmStopped d } d

/-- The completion in the usual response layout: STATUS at 0, TICKET at 4, completion fields from 8. -/
def completeTicket (n status : Nat) (extra : List Byte) (d : Dev) : Dev :=
  finishTicket n (le 2 status ++ le 2 0 ++ le 4 n ++ extra) d

def completeOpt (t : Option Nat) (status : Nat) (extra : List Byte) (d : Dev) : Dev :=
  match t with
  | some n => completeTicket n status extra d
  | none => d

-- Pair and safe state: what others ask ---------------------------------------------------------------------------------

/-- The unit that sends guarded traffic: a solo device, or role SOLO or ACTIVE (R296). -/
def sendingUnit (d : Dev) : Bool := d.pair.mode == 0 || d.pair.role == 0 || d.pair.role == 1

/-- ACCEPT of SAFE_STATUS: the acceptance condition in force (R41, R296, R317). -/
def acceptCond (d : Dev) : Nat :=
  if !d.guard.ingressOpen && !d.guard.frozen then 0
  else if d.guard.suspended || d.guard.cause != 0 || d.pair.promiseSuspended || (d.pair.mode == 1 && d.pair.role ≥ 3) then 3
  else if d.pair.mode == 1 && (d.pair.role == 1 || d.pair.role == 2) then 2
  else 1

/-- COLLECTOR.SAFE_STATUS (02_guarded_delivery.md). -/
def safeStatus (d : Dev) : Nat :=
  b2n (d.guard.cause != 0) + 16 * d.guard.cause + 256 * b2n d.guard.frozen
    + 512 * (if d.guard.cause != 0 then 3 else acceptCond d) + 2048 * b2n d.guard.finalSent
    + 65536 * (d.guard.more.foldl (fun a c => a + 2 ^ (c - 1)) 0)

-- Ledger records (R280, R281) --------------------------------------------------------------------------------------------

/-- One more record of a run of lost ones (R281, R283). -/
def Lost.add (x : Lost) (r : LedgerRec) : Lost :=
  { count := x.count + 1, guarded := x.guarded + b2n r.guarded, first := if x.count = 0 then leAt r.bytes 0 8 else x.first }

/-- A condition of GOOD has failed in the open health period (R311). -/
def noteBad (d : Dev) : Dev := { d with pair := { d.pair with bad := true } }

/-- The servo's state is one of those in force during the open block (SERVO_SEEN, R285), and in the open health period (R311). -/
def noteServo (d : Dev) : Dev :=
  let b := d.ledger.block
  let d := if d.time.servo = 2 || d.time.servo = 3 then d else noteBad d
  { d with ledger := { d.ledger with block := { b with servoSeen := if b.servoSeen.contains d.time.servo then b.servoSeen else b.servoSeen ++ [d.time.servo] } } }

/-- A record joins the writer's queue after those of earlier instants; of one instant, records go in the order of their
sources (R280, log 26). -/
def joinRecords (r : LedgerRec) : List LedgerRec → List LedgerRec
  | [] => [r]
  | x :: t => if x.at_ = r.at_ && r.source < x.source then r :: x :: t else x :: joinRecords r t

/-- Offers a record to the ledger writer's queue; one that finds 4,096 waiting is lost to RATE (R280, R283). -/
def offerRecord (source : Nat) (bytes : List Byte) (guarded : Bool) (input : Option (List Byte)) (d : Dev) : Dev :=
  let l := d.ledger
  let r : LedgerRec := { source, bytes, guarded, input, at_ := d.clock }
  if l.queue.length < 4096 then { d with ledger := { l with queue := joinRecords r l.queue } }
  else count 0x808 0 { d with ledger := { l with lost := l.lost + 1, lostRate := l.lostRate.add r } }

/-- A CLOCK record of a time event (R117, R281). -/
def clockRecord (east : Bool) (event detail : Nat) (ext : Int) (d : Dev) : Dev :=
  let st := coreStamp d east
  let c := if east then d.time.east else d.time.west
  offerRecord 5 (stampBytes st ++ le 4 detail ++ le 2 event ++ le 4 c.servoTerm
    ++ le 2 (512 * d.time.servo + 8192 * 2) ++ le 8 (unsigned 64 ext)) false none d

/-- A time event that is also written to the ledger (R117). -/
def raiseClock (event detail : Nat) (ext : Int) (evExt : List Byte) (d : Dev) : Dev :=
  clockRecord false event (detail % 2 ^ 32) ext (raise event 0xFFFF detail evExt d)

-- The mailbox round (R410 to R412) ------------------------------------------------------------------------------------------

/-- What a command's meaning answers: the device, the STATUS, and the response bytes from offset 2 on. -/
structure Reply where
  dev : Dev
  status : Nat
  body : List Byte := []

/-- A command turned away: nothing has changed (R14). -/
def rej (status : Nat) (d : Dev) : Reply := { dev := d, status }

/-- A command done as requested, with no response field beyond STATUS. -/
def okay (d : Dev) : Reply := { dev := d, status := stOk }

/-- ST_PENDING with a new ticket at offset 4, or ST_BUSY where 1,024 are open (R415). `k` starts the work. -/
def pend (f : Nat) (d : Dev) (k : Nat → Dev → Dev) : Reply :=
  match openTicket f d with
  | none => rej stBusy d
  | some (n, d') => { dev := k n d', status := stPending, body := le 2 0 ++ le 4 n }

def boxOf (d : Dev) (m : Nat) : Box := tget {} d.boxes m
def setBox (m : Nat) (b : Box) (d : Dev) : Dev := { d with boxes := tput {} m b d.boxes }

/-- The function a device mailbox belongs to (R408). -/
def boxFn (d : Dev) (m : Nat) : Nat := if d.helm.bifurcated && m ≥ 8 then 1 else 0

/-- The function-local number of a device mailbox (R408). -/
def boxLocal (d : Dev) (m : Nat) : Nat := if d.helm.bifurcated then m % 8 else m

/-- A status after which the command's effect stands (R14). -/
def effective (status : Nat) : Bool := status == stOk || status == stPending || status == stAdvanced

/-- Helm writes the response area, RESP_LEN and STATUS, sets DONE and sends the mailbox's vector (R411 step 5). -/
def respond (m respLen : Nat) (r : Reply) : Dev :=
  let d := r.dev
  let b := boxOf d m
  let resp := padTo respLen (le 2 r.status ++ r.body)
  emit (.msix (boxFn d m) (4 + boxLocal d m))
    (setBox m { b with state := 2, respLen := respLen, status := r.status, respArea := resp, taken := false } d)

/-- The doorbell: Helm copies OPCODE, TAG and REQ_LEN and sets BUSY (R411 step 4). -/
def accept (opcode : Nat) (c : Cmd) (d : Dev) : Dev :=
  let b := boxOf d c.box
  setBox c.box { b with cmd := opcode % 65536 + 65536 * (c.tag % 65536), len := c.req.length % 8192, state := 1,
                        tag := c.tag % 65536, opcode := opcode % 65536, req := c.req.take 4096,
                        reqArea := overwrite b.reqArea 0 (c.req.take 4096), taken := d.helm.state == 1, rang := d.clock } d

/-- The commands that only read: every `*.status`, `*.info` and `*.ops`, `device.identify`, `queue.histogram` and `ledger.certs` (R413). -/
def readOnly : List Nat :=
  [0x0001, 0x0004, 0x0103, 0x0403, 0x0503, 0x0605, 0x090B, 0x0A04, 0x0B02, 0x0B03, 0x0C02, 0x0D02, 0x0F01, 0x1003]

/-- The commands of the opcode index and the bytes of each one's fixed request (R419). -/
def fixedRequest : List (Nat × Nat) :=
  [(0x0001, 4), (0x0002, 4), (0x0003, 16), (0x0004, 4), (0x0101, 24), (0x0102, 4), (0x0103, 4), (0x0110, 4),
   (0x0111, 136), (0x0301, 4), (0x0302, 28), (0x0401, 36), (0x0402, 4), (0x0403, 4), (0x0404, 12), (0x0405, 12),
   (0x0501, 16), (0x0502, 12), (0x0503, 4), (0x0601, 24), (0x0602, 192), (0x0603, 4), (0x0604, 4), (0x0605, 4),
   (0x0701, 8), (0x0702, 16), (0x0703, 12), (0x0704, 32), (0x0705, 4), (0x0801, 4), (0x0901, 8), (0x0902, 8),
   (0x0903, 16), (0x0904, 8), (0x0905, 12), (0x0906, 8), (0x0907, 20), (0x0908, 16), (0x0909, 24), (0x090A, 12)] ++
  [(0x090B, 8), (0x0A01, 8), (0x0A02, 8), (0x0A03, 16), (0x0A04, 4), (0x0B01, 32), (0x0B02, 4), (0x0B03, 4),
   (0x0C01, 16), (0x0C02, 4), (0x0C03, 4), (0x0C04, 36), (0x0C05, 4), (0x0D01, 16), (0x0D02, 4), (0x0D03, 4),
   (0x0D04, 1), (0x0E01, 4), (0x0E02, 8), (0x0E03, 8), (0x0F01, 4), (0x0F02, 8), (0x1001, 48), (0x1002, 4),
   (0x1003, 4), (0x1004, 4), (0x1005, 4), (0x1101, 16), (0x1102, 24), (0x1103, 8), (0x1201, 16), (0x1202, 20),
   (0x1203, 16), (0x1301, 4), (0x1302, 4), (0x1303, 4)]

/-- A command that changes state: one of the opcode index that does more than read. `module.access` keeps to its I2C master's order and
holds back no other command (R412). -/
def changesState (opcode : Nat) : Bool := !readOnly.contains opcode && opcode != 0x0111 && fixedRequest.any fun e => e.1 == opcode

/-- One doorbell comes before another: in an earlier cycle of Helm's 1.2 GHz clock, or in the same cycle at the lower mailbox number
(R412). -/
def rangBefore (d : Dev) (k m : Nat) : Bool :=
  let a := 3 * (boxOf d k).rang / 40
  let b := 3 * (boxOf d m).rang / 40
  decide (a < b) || (a == b && decide (k < m))

/-- A command that changes state waits for those whose doorbells came before its own (R412). -/
def heldBack (d : Dev) (opcode m : Nat) : Bool :=
  changesState opcode && (List.range 16).any fun k =>
    k != m && (boxOf d k).state == 1 && changesState (boxOf d k).opcode && rangBefore d k m

/-- Commands the ROM loop serves while Helm is HALTED (R424, R477). -/
def haltedServes (opcode : Nat) : Bool := opcode == 0x0001 || opcode == 0x0003 || opcode == 0x1302

/-- Helm executes a BUSY mailbox's command: a request shorter than its fixed part is ST_RANGE, firmware before 3.1
serves only `firmware.update` (R1), and a status other than ST_OK, ST_PENDING or ST_ADVANCED leaves everything but the
mailbox as it was (R14). -/
def execute (opcode minLen respLen m : Nat) (body : List Byte → Nat → Dev → Reply) (d : Dev) : Dev :=
  let b := boxOf d m
  if d.helm.state == 3 && !haltedServes opcode then respond m 4 (rej stDenied d)
  else if d.helm.state != 3 && d.helm.fwRelease < 0x0301 && opcode != 0x0003 then respond m 4 (rej stDenied d)
  else if b.req.length < minLen then respond m 4 (rej stRange d)
  else
    let r := body b.req (boxFn d m) d
    respond m respLen (if effective r.status then r else { r with dev := d })

/-- A mailbox command's whole round (log 10): a mailbox that is BUSY takes no doorbell and sets DB_IGNORED, unless the
doorbell it waits on was this command's, rung by a register write; while Helm is BOOTING every mailbox reads BUSY, so a
doorbell only sets DB_IGNORED (R478); a command whose doorbell arrives while Helm is RESTARTING stays BUSY until Helm
is READY and this row comes again (R411, R425), and so does one that changes state while another that does waits ahead of it
(R412). Where Helm has halted, a command that it had taken stays BUSY until a reset (R424, R426). -/
def runCmd (opcode minLen respLen : Nat) (c : Cmd) (body : List Byte → Nat → Dev → Reply) (d : Dev) : Dev :=
  let d := advance c.t d
  let b := boxOf d c.box
  if c.box ≥ 16 then d
  else if d.helm.state == 0 then setBox c.box { b with dbIgnored := true } d
  else if b.state == 1 && b.opcode != opcode then setBox c.box { b with dbIgnored := true } d
  else
    let d := if b.state == 1 then d else accept opcode c d
    if d.helm.state == 2 || (d.helm.state == 3 && (boxOf d c.box).taken) || (d.helm.state == 1 && heldBack d opcode c.box) then d
    else execute opcode minLen respLen c.box body d

/-- A mailbox command as a step. -/
def cmd (opcode minLen respLen : Nat) (c : Cmd) (body : List Byte → Nat → Dev → Reply) (s : State) :
    Host.Outcome State Fault Refusal := act (runCmd opcode minLen respLen c body) s

end Sys2Proof.Machine
end

