-- ==== Sys2Proof/Machine/Fabric.lean ====
section
/-!
DEFINITION. Sending on the FABRIC Ports (16_cascade.md, R389): the header's fields, the numbers of messages, and messages kept
until they are acknowledged.
-/

namespace Sys2Proof.Machine

/-- Unit number of this device: 0 for a solo device and for the preferred unit of a Pair (R295). -/
def unitNo (d : Dev) : Nat := b2n (d.pair.mode == 1 && !d.pair.rolePref)

/-- The manager: of a Pair its sending unit (R387). -/
def manages (d : Dev) : Bool := d.cascade.role == 1 && sendingUnit d

/-- The source entry in use. -/
def sourceInUse (d : Dev) : Option Source := d.time.entry.bind fun i => d.time.sources[i]?

/-- A worker's Port towards its manager: that of its `time.source` entry of kind 4, of several the one in use, else the first (R389, R393). -/
def upstreamPort (d : Dev) : Option Nat :=
  (((sourceInUse d).filter fun x => x.kind == 4) <|> d.time.sources.find? fun x => x.kind == 4).map (·.port)

def beatLink (d : Dev) (p : Nat) : BeatLink := tget {} d.cascade.links p

/-- The beats of the source in use, where that is of kind 4 (R393). -/
def beatsInUse (d : Dev) : Option BeatLink :=
  ((sourceInUse d).filter fun x => x.kind == 4).map fun x => beatLink d x.port

/-- The body of a MIRROR or PUSH: opcode, beat and request (log 16). -/
def commandBody (opcode beat : Nat) (req : List Byte) : List Byte := be 2 opcode ++ be 8 beat ++ req

/-- Request bytes that fit beside a command's opcode and beat in a body of 1,480 bytes (R299, R389). -/
def mirrorRoom : Nat := 1470

/-- The bodies of the messages that come before a MIRROR's or PUSH's last one: what does not fit in one of 1,480 bytes goes ahead of it, in
messages that carry the opcode plus 0x8000 (R299, R389; DESIGN CHOICE, log 16). -/
def mirrorAhead (opcode beat : Nat) (req : List Byte) : List (List Byte) :=
  (List.range ((req.length - 1) / mirrorRoom)).map fun k => commandBody (opcode + 0x8000) beat ((req.drop (mirrorRoom * k)).take mirrorRoom)

/-- The body of the last message of a MIRROR or PUSH. -/
def mirrorLast (opcode beat : Nat) (req : List Byte) : List Byte :=
  commandBody opcode beat (req.drop (mirrorRoom * ((req.length - 1) / mirrorRoom)))

/-- Ports on which Cascade messages travel: UP with the FABRIC flag (R83, R388). -/
def fabricPorts (d : Dev) : List Nat :=
  d.ports.filterMap fun (p, x) => if bitOf x.flags 5 && x.state == 4 then some p else none

/-- Member number that a message of this device carries (R389). -/
def ownMember (d : Dev) : Nat := if d.cascade.role = 1 then 0 else d.cascade.own.getD 0xFF

/-- A message number counts per kind and destination (R389). -/
def msgKey (subtype dst dstUnit : Nat) : Nat := subtype * 65536 + dst * 256 + dstUnit

def cascadeMsg (d : Dev) (subtype dst dstUnit : Nat) (body : List Byte) : CMsg :=
  { subtype, cascadeId := d.cascade.cascadeId, src := ownMember d, srcUnit := unitNo d, dst, dstUnit,
    seq := tget 0 d.cascade.msgSeq (msgKey subtype dst dstUnit), body }

/-- A Cascade frame's bytes from its EtherType on: the header, with LENGTH, and the body (R389). -/
def CMsg.bytes (m : CMsg) : List Byte :=
  be 2 m.etherType ++ be 1 m.subtype ++ be 1 m.version ++ be 2 m.body.length ++ be 4 m.cascadeId ++ be 1 m.src ++ be 1 m.srcUnit ++ be 1 m.dst
    ++ be 1 m.dstUnit ++ be 4 m.seq ++ m.body

/-- Sends a message on some Ports, with its next number (R389). -/
def cascadeSend (ports : List Nat) (subtype dst dstUnit : Nat) (body : List Byte) (d : Dev) : Dev :=
  let m := cascadeMsg d subtype dst dstUnit body
  let d := { d with cascade := { d.cascade with msgSeq := tput 0 (msgKey subtype dst dstUnit) ((m.seq + 1) % 2 ^ 32) d.cascade.msgSeq } }
  ports.foldl (fun d p => emit (.cascade p m) d) d

/-- Sends a message that is kept until its ACK (R389). -/
def cascadeKeep (ports : List Nat) (subtype dst dstUnit : Nat) (body : List Byte) (d : Dev) : Dev :=
  let n := tget 0 d.cascade.msgSeq (msgKey subtype dst dstUnit)
  let d := cascadeSend ports subtype dst dstUnit body d
  let u : Unacked := { subtype, seq := n, body, sentAt := d.clock, firstAt := d.clock, member := dst * 256 + dstUnit }
  { d with cascade := { d.cascade with unacked := d.cascade.unacked ++ [u] } }

/-- Acknowledges a Cascade message of a kind and number (R389). -/
def cascadeAck (ports : List Nat) (subtype seq dst dstUnit : Nat) (d : Dev) : Dev :=
  cascadeSend ports 0x47 dst dstUnit (be 2 subtype ++ be 4 seq) d

/-- A member that the programmed tables go to: a device in solo mode, or of a worker Pair the sending unit (R395). -/
def Member.sends (m : Member) : Bool := !m.paired || decide (m.role ≤ 1)

/-- The joined units that a PUSH goes to: with PUSH set, in step, and of a worker Pair the sending unit (R395, R397). -/
def pushTargets (d : Dev) : List Member :=
  if manages d then d.cascade.members.filter fun m => m.push && !m.outOfStep && m.sends else []

/-- The manager sends a programmed command it has completed to its workers (R395): opcode, beat and request, in as many messages as they
take (log 16). -/
def pushCommand (opcode beat : Nat) (req : List Byte) (d : Dev) : Dev :=
  (pushTargets d).foldl (fun d m =>
    (mirrorAhead opcode beat req ++ [mirrorLast opcode beat req]).foldl (fun d b => cascadeKeep [m.port] 0x46 m.num m.unit b d) d) d

/-- Programmed commands of this device's host that are still in the Steward, up to an operation's number. -/
def ownOpen (d : Dev) (upTo : Nat) : Bool := d.steward.ops.any fun o => o.own && decide (o.id < upTo)

/-- The commands that were done at once are pushed after all that were issued before them (R395). -/
def flushPushes (d : Dev) : Dev :=
  let ready := d.cascade.pushWait.takeWhile fun e => !ownOpen d e.1
  ready.foldl (fun d e => pushCommand e.2.1 0 e.2.2 d) { d with cascade := { d.cascade with pushWait := d.cascade.pushWait.drop ready.length } }

/-- A programmed command that is done at once is pushed in its order of issue (R395). -/
def pushInOrder (opcode : Nat) (req : List Byte) (d : Dev) : Dev :=
  flushPushes { d with cascade := { d.cascade with pushWait := d.cascade.pushWait ++ [(d.steward.nextOp, opcode, req)] } }

/-- A worker with PUSH set takes its programmed commands from the manager alone (R395). -/
def pushedOnly (d : Dev) : Bool := d.cascade.role == 2 && d.cascade.push

/-- The 48 bytes of a seal note (R398). -/
def noteBytes (d : Dev) (gap : Bool) (boot sealNo : Nat) (hash : List Byte) : List Byte :=
  le 1 (ownMember d) ++ le 1 (unitNo d) ++ le 2 (b2n gap) ++ le 4 boot ++ le 8 sealNo ++ padTo 32 hash

/-- The manager takes a note: into the next link, and to its ring, for which 1,048,576 notes wait (R399, R428). -/
def takeNote (note : List Byte) (d : Dev) : Dev :=
  let c := d.cascade
  let d := { d with cascade := { c with linkNotes := c.linkNotes ++ [note] } }
  if c.noteRing.isNone then d
  else if d.dma.notes.length < 1048576 then { d with dma := { d.dma with notes := d.dma.notes ++ [note] } }
  else count 0x805 0 { d with dma := { d.dma with notes := d.dma.notes.drop 1 ++ [note] } }

/-- The note of a seal just written: a joined worker keeps it until it is acknowledged, up to 4,096 of them; the manager
takes its own as member 0, and of a manager that is a Pair only the sending unit acts (R387, R398). -/
def sealNote (sealNo : Nat) (hash : List Byte) (d : Dev) : Dev :=
  let boot := Config.bootCount.toNat + d.helm.boots
  if manages d then takeNote (noteBytes d false boot sealNo hash) d
  else if d.cascade.role = 2 && d.cascade.own.isSome then
    let c := d.cascade
    let full := (c.unacked.filter fun u => u.subtype == 0x4A).length ≥ 4096
    let d := if full then { d with cascade := { c with unacked := c.unacked.eraseP fun u => u.subtype == 0x4A } } else d
    let note := noteBytes d (full || c.gapDue) boot sealNo hash
    let d := { d with cascade := { d.cascade with gapDue := false } }
    cascadeKeep (upstreamPort d).toList 0x4A 0 0xFF note d
  else d

end Sys2Proof.Machine
end

