-- ==== Sys2Proof/Machine/Flags.lean ====
section
/-!
DEFINITION. Computed flags and codes: the fields of EG_WORD and IN_WORD, the guard trailer's VER_FLAGS and
BOUND_CODE, and what a Port's mode fixes.
-/

namespace Sys2Proof.Machine

-- Port modes (R62, R76) ---------------------------------------------------------------------------------------------

/-- Speed in Gb/s, lane count, lane rate in 0.0001 Gb/s and permitted FEC options of a mode (R62). -/
def modeInfo (m : Nat) : Option (Nat × Nat × Nat × List Nat) :=
  match m with
  | 0x01 => some (10, 1, 103125, [0, 1])
  | 0x02 => some (25, 1, 257813, [0, 1, 2])
  | 0x03 => some (50, 1, 531250, [3])
  | 0x04 => some (100, 4, 257813, [0, 2])
  | 0x05 => some (100, 2, 531250, [3])
  | 0x06 => some (100, 1, 1062500, [3])
  | 0x07 => some (200, 4, 531250, [3])
  | 0x08 => some (200, 2, 1062500, [3])
  | 0x09 => some (400, 8, 531250, [3])
  | 0x0A => some (400, 4, 1062500, [3])
  | 0x0B => some (800, 8, 1062500, [3])
  | 0x0C => some (800, 16, 531250, [3])
  | _ => none

def modeSpeed (m : Nat) : Nat := ((modeInfo m).map (·.1)).getD 0
def modeLanes (m : Nat) : Nat := ((modeInfo m).map (·.2.1)).getD 1
def modeRate (m : Nat) : Nat := ((modeInfo m).map (·.2.2.1)).getD 0

/-- Typical ingress and egress fixed delays and capture uncertainty, in ticks (R76). -/
def typicalDelay (m fec : Nat) : Nat × Nat × Nat :=
  match m, fec with
  | 0x01, 0 => (308, 205, 3)
  | 0x01, _ => (3688, 410, 5)
  | 0x02, 0 => (92, 70, 3)
  | 0x02, 1 => (1403, 164, 5)
  | 0x02, _ => (3430, 205, 5)
  | 0x03, _ => (1792, 192, 5)
  | 0x04, 0 => (154, 102, 3)
  | 0x04, _ => (998, 154, 5)
  | 0x05, _ => (998, 154, 5)
  | 0x06, _ => (973, 154, 5)
  | 0x07, _ => (1024, 166, 5)
  | 0x08, _ => (998, 166, 5)
  | 0x09, _ => (614, 141, 5)
  | 0x0A, _ => (589, 141, 5)
  | 0x0B, _ => (486, 128, 5)
  | 0x0C, _ => (512, 128, 8)
  | _, _ => (0, 0, 0)

/-- A device's own fused fixed parts: the typical ones moved by at most 16 ticks (R76). -/
def fusedIn (m fec : Nat) : Nat := (typicalDelay m fec).1 + (Config.fuseIn m fec).val - 16
def fusedEg (m fec : Nat) : Nat := (typicalDelay m fec).2.1 + (Config.fuseEg m fec).val - 16

def portOf (d : Dev) (p : Nat) : Port := tget {} d.ports p
def setPort (p : Nat) (x : Port) (d : Dev) : Dev := { d with ports := tput {} p x d.ports }
def modPort (p : Nat) (f : Port → Port) (d : Dev) : Dev := setPort p (f (portOf d p)) d

/-- Mode and FEC in force: the resolved ones after negotiation (R68, R84). -/
def modeOf (x : Port) : Nat := match x.resolved with | some (m, _) => m | none => x.mode
def fecOf (x : Port) : Nat := match x.resolved with | some (_, f) => f | none => x.fec

/-- Speed of a Port in Gb/s (0: no mode). -/
def portSpeed (x : Port) : Nat := modeSpeed (modeOf x)

/-- Calibrated delays: fixed part plus the measured variable part (R75). -/
def inDelay (x : Port) : Nat := fusedIn (modeOf x) (fecOf x) + x.inVar
def egDelay (x : Port) : Nat := fusedEg (modeOf x) (fecOf x) + x.egVar

/-- Capture uncertainty of the mode plus PLANE_UNCERT (R76, R107). -/
def captureTerm (x : Port) : Nat := (typicalDelay (modeOf x) (fecOf x)).2.2 + x.planeUncert

def cutThroughFlag (x : Port) : Bool := bitOf x.flags 0
def deterministicFlag (x : Port) : Bool := bitOf x.flags 1
def combinedFlag (x : Port) : Bool := bitOf x.flags 2
def stopInSafeFlag (x : Port) : Bool := bitOf x.flags 3
def trailerFlag (x : Port) : Bool := bitOf x.flags 4
def fabricFlag (x : Port) : Bool := bitOf x.flags 5

/-- The lanes a Port takes (R19, R20, R63). -/
def portLanes (p : Nat) (x : Port) : List Nat := (List.range (modeLanes x.mode)).map (p + ·)

/-- A Port number is unused while an enabled multi-lane Port of a lower number takes its lane (R19, R64, log 11). -/
def portUnused (d : Dev) (p : Nat) : Bool :=
  p ≥ 512 || d.ports.any fun (q, x) => q < p && x.state != 0 && p < q + modeLanes x.mode

/-- Nozzle, Basin and die of a Port (R18, R24). -/
def nozzleOf (p : Nat) : Nat := p / 8
def basinOf (p : Nat) : Nat := p / 64
def dieOf (p : Nat) : Nat := p / 256

def unitOf (d : Dev) (u : Nat) : PUnit := tget {} d.power.units u

/-- Whether an island takes what crosses to it, beats among them: an item for a unit at power step Pool or below waits at the crossing
(R29, R471). -/
def islandAwake (d : Dev) (i : Nat) : Bool :=
  let u := if i < 0x48 then some i else if i = 0x4E then some 72 else none
  match u with
  | some u => decide ((unitOf d u).step < 2)
  | none => true

/-- Every Basin but those at Drained, to which nothing is sent, takes what crosses to it (R29, R472). -/
def basinsAwake (d : Dev) : Bool := (List.range 8).all fun b => islandAwake d (0x40 + b) || (unitOf d (64 + b)).step == 5
def setUnit (u : Nat) (x : PUnit) (d : Dev) : Dev := { d with power := { d.power with units := tput {} u x d.power.units } }

/-- A Port whose Nozzle, or Basin, is at power step Pool or deeper (R470). -/
def portPooled (d : Dev) (p : Nat) : Bool :=
  let deep := fun u => let x := unitOf d u; x.step ≥ 2 || x.commanded ≥ 2
  deep (nozzleOf p) || deep (64 + basinOf p)

-- Guard trailer (R109, R110) -----------------------------------------------------------------------------------------

/-- BOUND_CODE (R110): the smallest c from 1 to 254 with BOUND ≤ floor(2^(c/16)), that is BOUND^16 ≤ 2^c. -/
def boundCode (bound : Nat) : Nat :=
  if bound = 0 then 0
  else if bound > 60096 then 255
  else max 1 (if bound ^ 16 ≤ 1 then 1 else (bound ^ 16 - 1).log2 + 1)

/-- The 16 bytes of a guard trailer (R109). -/
def trailerBytes (f : Frame) (c : Copy) : List Byte :=
  let guarded := f.stream.isSome && f.seq.isSome
  be 1 (64 + 32 * b2n c.replay + 16 * b2n c.late + 8 * b2n c.unequal + 4 * b2n (bitOf f.stamp.qual 4) + 2 * b2n guarded)
    ++ be 1 (boundCode f.stamp.bound) ++ be 2 (if guarded then f.stream.getD 0 else 0)
    ++ be 4 (if guarded then f.seq.getD 0 else 0) ++ be 8 f.stamp.ticks

/-- Whether a copy's frame carries a trailer on a Port: TRAILER set, and the frame's trailer mode (R109). -/
def wantsTrailer (x : Port) (f : Frame) (c : Copy) : Bool :=
  trailerFlag x && (c.trailerMode == 2 || (c.trailerMode == 1 && f.stream.isSome && f.seq.isSome))

/-- The trailer would take the copy past the egress MTU: it is sent without (R109). -/
def trailerFits (x : Port) (c : Copy) : Bool := decide (c.out.length + 4 + 16 ≤ x.mtu)

-- Ledger words (R281) ----------------------------------------------------------------------------------------------

/-- IN_WORD of a FRAME or COPY record. -/
def inWord (port outcome kind : Nat) : Nat := port % 512 + 512 * (outcome % 16) + 8192 * kind

/-- EG_WORD of a FRAME or COPY record. -/
def egWord (port : Nat) (sent late unequal replay multi pending noDigest : Bool) : Nat :=
  port % 512 + 512 * b2n sent + 1024 * b2n late + 2048 * b2n unequal + 4096 * b2n replay + 8192 * b2n multi
    + 16384 * b2n pending + 32768 * b2n noDigest

end Sys2Proof.Machine
end

