-- ==== Sys2Proof/Machine/PtpBytes.lean ====
section
/-!
DEFINITION. PTP messages inside a frame's bytes (R101 to R103): where the header lies (IEEE 1588-2019 annexes; log 23), and the
fields that the egress Basin writes.
-/

namespace Sys2Proof.Machine

/-- EtherType after at most two VLAN tags: its offset. -/
def etherOff (b : List Byte) : Nat :=
  let tag := fun o => beAt b o 2 == 0x8100 || beAt b o 2 == 0x88A8
  if tag 12 then (if tag 16 then 20 else 16) else 12

/-- A PTP header in a frame: its offset, the bit of TRANSPORT, and the offset of a UDP checksum (R101, R116). -/
def ptpAt (b : List Byte) : Option (Nat × Nat × Option Nat) :=
  let e := etherOff b
  let ip := e + 2
  let event := fun u => let p := beAt b (u + 2) 2; p == 319 || p == 320
  match beAt b e 2 with
  | 0x88F7 => some (ip, 0, none)
  | 0x0800 =>
    let u := ip + 4 * (byteAt b ip % 16)
    if byteAt b (ip + 9) == 17 && event u then some (u + 8, 1, some (u + 6)) else none
  | 0x86DD =>
    let u := ip + 40
    if byteAt b (ip + 6) == 17 && event u then some (u + 8, 2, some (u + 6)) else none
  | _ => none

/-- Message types of IEEE 1588-2019 that the rules name: 0 Sync, 1 Delay_Req, 2 Pdelay_Req, 3 Pdelay_Resp, 8 Follow_Up,
0xA Pdelay_Resp_Follow_Up, 0xB Announce (log 107). -/
def ptpType (b : List Byte) (p : Nat) : Nat := byteAt b p % 16
def ptpDomain (b : List Byte) (p : Nat) : Nat := byteAt b (p + 4)
def ptpIdentity (b : List Byte) (p : Nat) : Nat := beAt b (p + 20) 10
def ptpSeqId (b : List Byte) (p : Nat) : Nat := beAt b (p + 30) 2

/-- The three messages of the peer-to-peer delay mechanism (R101, R103). -/
def pdelayType (ty : Nat) : Bool := ty == 2 || ty == 3 || ty == 10

/-- `twoStepFlag` and `logMessageInterval` of the header (log 107). -/
def ptpTwoStep (b : List Byte) (p : Nat) : Bool := bitOf (byteAt b (p + 6)) 1
def ptpInterval (b : List Byte) (p : Nat) : Int := signed 8 (byteAt b (p + 33))

/-- `correctionField`, and a timestamp of a body in 2^-16 ns (log 107). -/
def ptpCorrection (b : List Byte) (p : Nat) : Int := signed 64 (beAt b (p + 8) 8)
def ptpStamp (b : List Byte) (o : Nat) : Int := ((beAt b o 6 * 1000000000 + beAt b (o + 6) 4) * 65536 : Nat)

/-- What an Announce offers, least first: grandmaster priority 1, quality, priority 2, identity and steps removed, then its sender
(the order of the best master clock algorithm; log 107). -/
def announceVector (b : List Byte) (p : Nat) : Nat := beAt b (p + 47) 16 * 2 ^ 80 + ptpIdentity b p

/-- A message interval in ticks, from its log2 in seconds. -/
def intervalTicks (l : Int) : Nat := if 0 ≤ l then 16000000000 * 2 ^ (min l.toNat 20) else 16000000000 / 2 ^ (min (-l).toNat 30)

/-- Sum of 16-bit words in ones' complement, carries folded in. -/
def onesFold (n : Nat) : Nat := let m := n % 65536 + n / 65536; m % 65536 + m / 65536

/-- A checksum updated for bytes at an even offset that change, in ones' complement (R102); 0 in IPv4 means none. -/
def patchSum (sum : Nat) (old new : List Byte) : Nat :=
  let words := fun (b : List Byte) => (List.range ((b.length + 1) / 2)).map fun k => beAt b (2 * k) 2
  let acc := ((words old).zip (words new)).foldl (fun a (m, m') => onesFold (a + (65535 - m) + m')) (65535 - sum)
  if 65535 - acc = 0 then 65535 else 65535 - acc

/-- Replaces bytes of a PTP message and updates its UDP checksum (R102). -/
def ptpPatch (b : List Byte) (o : Nat) (new : List Byte) (sumAt : Option Nat) (v4 : Bool) : List Byte :=
  let b' := overwrite b o new
  match sumAt with
  | none => b'
  | some u =>
    let s := beAt b u 2
    if v4 && s = 0 then b' else overwrite b' u (be 2 (patchSum s (slice b o new.length) new))

/-- A number added to `correctionField`, in 2^-16 ns (R102, R103). -/
def addCorrection (b : List Byte) (amount : Int) : List Byte :=
  match ptpAt b with
  | none => b
  | some (p, tr, u) => ptpPatch b (p + 8) (be 8 (unsigned 64 (signed 64 (beAt b (p + 8) 8) + amount))) u (tr == 1)

/-- `originTimestamp` of a tick: 48 bits of seconds and 32 of nanoseconds (R102). -/
def putOrigin (b : List Byte) (ticks : Nat) : List Byte :=
  match ptpAt b with
  | none => b
  | some (p, tr, u) => ptpPatch b (p + 34) (be 6 (ticks / 16000000000) ++ be 4 (ticks / 16 % 1000000000)) u (tr == 1)

end Sys2Proof.Machine
end

