-- ==== Sys2Proof/Machine/Tm.lean ====
section
/-!
DEFINITION. The operations shared by everything that touches queues and copies: cells, shapers, virtual time, gates,
selection, the end of a copy in each of its ways, and the ledger records that follow from it.
-/

namespace Sys2Proof.Machine

-- Frames, copies and cells -------------------------------------------------------------------------------------------

def hasFrame (d : Dev) (i : Nat) : Bool := d.frames.any fun e => e.1 == i
def frameOf (d : Dev) (i : Nat) : Frame := tget {} d.frames i
def setFrame (i : Nat) (f : Frame) (d : Dev) : Dev := { d with frames := tput {} i f d.frames }
def modFrame (i : Nat) (g : Frame → Frame) (d : Dev) : Dev := setFrame i (g (frameOf d i)) d

def copyOf (d : Dev) (i : Nat) : Copy := tget {} d.copies i
def setCopy (i : Nat) (c : Copy) (d : Dev) : Dev := { d with copies := tput {} i c d.copies }
def modCopy (i : Nat) (g : Copy → Copy) (d : Dev) : Dev := setCopy i (g (copyOf d i)) d

/-- The bytes of a frame, FCS included, that have arrived within a time at its Port's speed (R214): 1 Gb/s for 1 tick is 1/128 byte. -/
def arrivedBy (d : Dev) (f : Frame) (ticks : Nat) : Nat :=
  if f.state ≥ 2 || f.injected.isSome then f.bytes.length + 4 else min (f.bytes.length + 4) (ticks * portSpeed (portOf d f.port) / 128)

/-- The bytes of a frame that have passed the MDI by now. -/
def atMdi (d : Dev) (f : Frame) : Nat := arrivedBy d f (d.clock - f.arrived)

/-- The bytes of a frame that have crossed into its Basin by now (R28, R122, R214). -/
def received (d : Dev) (f : Frame) : Nat := arrivedBy d f (d.clock - f.arrived - f.lag)

/-- Whole cells of 256 bytes that a frame holds, at least one from its first byte (R214); a failed frame's are freed (R203). -/
def cellsOf (d : Dev) (f : Frame) : Nat := if f.state = 3 then 0 else ceilDiv (max 1 (received d f)) 256

def schedOf (d : Dev) (p : Nat) : Sched := tget {} d.tm.scheds p
def setSched (p : Nat) (x : Sched) (d : Dev) : Dev := { d with tm := { d.tm with scheds := tput {} p x d.tm.scheds } }
def queueOf (d : Dev) (q : Nat) : Queue := tget {} d.tm.queues q
def setQueue (q : Nat) (x : Queue) (d : Dev) : Dev := { d with tm := { d.tm with queues := tput {} q x d.tm.queues } }
def groupOf (d : Dev) (g : Nat) : Group := tget {} d.tm.groups g
def setGroup (g : Nat) (x : Group) (d : Dev) : Dev := { d with tm := { d.tm with groups := tput {} g x d.tm.groups } }

/-- A Port's queue range: base and count (R21, R22). -/
def queueRange (d : Dev) (p : Nat) : Nat × Nat := ((schedOf d p).range).getD (128 * p, 128)

/-- A queue lies in a Port's range and has not been freed (R21, R22, R244). -/
def owns (d : Dev) (p q : Nat) : Bool :=
  let (b, n) := queueRange d p
  decide (b ≤ q) && decide (q < b + n) && !((schedOf d p).freed.any fun (b, n) => b ≤ q && q < b + n)

/-- The Port a queue belongs to (R21, R22). -/
def queuePort (d : Dev) (q : Nat) : Option Nat :=
  match d.tm.scheds.find? (fun (p, x) => x.range.isSome && owns d p q) with
  | some (p, _) => some p
  | none => if q < 65536 && (schedOf d (q / 128)).range.isNone && owns d (q / 128) q then some (q / 128) else none

/-- The class group of a queue (R222). -/
def queueGroup (d : Dev) (q : Nat) : Nat :=
  match (queueOf d q).group with
  | some g => g
  | none => let p := (queuePort d q).getD 0; p * 16 + (q - (queueRange d p).1) / 8 % 16

/-- The gate of a queue (R222). -/
def queueGate (d : Dev) (q : Nat) : Nat := ((queueOf d q).gate).getD (q % 8)

/-- The Port of a class group (R222). -/
def groupPort (d : Dev) (g : Nat) : Nat := ((groupOf d g).port).getD (g / 16)

/-- Cells of one die's buffer that a queue's unguarded copies, the held ones among them, reference; a cell referenced twice counts twice
(R217). Guarded copies count against no queue (R220). -/
def queueCells (d : Dev) (q die : Nat) : Nat :=
  d.copies.foldl (fun a (_, c) => let f := frameOf d c.frame
    if c.queue = q && c.state < 3 && c.part < 2 && dieOf f.port = die then a + cellsOf d f else a) 0

def guardCells (d : Dev) (die : Nat) : Nat := if die = 0 then d.tm.guardWest else d.tm.guardEast
def headroom (d : Dev) (die : Nat) : Nat := if die = 0 then d.tm.headWest else d.tm.headEast

/-- The shared part of a die's buffer (R215). -/
def sharedCells (d : Dev) (die : Nat) : Int := (262144 : Int) - headroom d die - guardCells d die - d.tm.mins

/-- A copy of a frame that has not ended was admitted against a part of the buffer. -/
def livePart (d : Dev) (f : Frame) (part : Nat) : Bool :=
  (f.copies ++ f.gone).any fun c => let x := copyOf d c; x.part == part && decide (x.state < 3)

/-- Cells of the guarded reserve in use: a guarded frame's working copy stays until every copy has been sent or dropped and no learn
request refers to it (R46, R188, R220). -/
def guardUsed (d : Dev) (die : Nat) : Nat :=
  d.frames.foldl (fun a (_, f) => if dieOf f.port = die && (livePart d f 2 || (f.learning && f.stream.isSome)) then a + cellsOf d f else a) 0

/-- Cells of the shared part in use: those of unguarded frames with a copy admitted against it, or held by a learn request (R188, R215,
R218). -/
def sharedUsed (d : Dev) (die : Nat) : Nat :=
  d.frames.foldl (fun a (_, f) => if dieOf f.port = die && (livePart d f 1 || (f.learning && f.stream.isNone)) then a + cellsOf d f else a) 0

/-- Adds an event that only the frame's commit counts (R202). -/
def note (i event inst : Nat) (d : Dev) : Dev := modFrame i (fun f => { f with notes := f.notes ++ [(event, inst)] }) d

/-- An egress event of a copy counts at once where its frame has committed, and otherwise at the commit (R202). -/
def countEgress (event : Nat) (c : Copy) (d : Dev) : Dev :=
  if (frameOf d c.frame).state = 2 then count event c.port d else note c.frame event c.port d

-- Shapers (R228 to R231) ----------------------------------------------------------------------------------------------

/-- One byte of credit. -/
def creditByte : Int := 128000000

/-- A shaper's credit now: it grows at the rate up to the burst (R228). -/
def Shaper.now (s : Shaper) (clock : Nat) : Shaper :=
  if s.rate = 0 then { s with at_ := clock }
  else { s with credit := min (max s.credit (s.burst * creditByte)) (s.credit + s.rate * (clock - s.at_)), at_ := clock }

/-- Non-negative credit, or unshaped (R225, R228). -/
def Shaper.ok (s : Shaper) (clock : Nat) : Bool := s.rate == 0 || decide (0 ≤ (s.now clock).credit)

/-- The charge of a copy's counted length (R228). -/
def Shaper.charge (s : Shaper) (clock : Nat) (len : Int) : Shaper :=
  let s := s.now clock
  if s.rate = 0 then s else { s with credit := s.credit - len * creditByte }

-- Virtual time (R226) ---------------------------------------------------------------------------------------------------

def mod48 (n : Nat) : Nat := n % 2 ^ 48

/-- The later of two 48-bit times, compared modulo 2^48. -/
def later48 (a b : Nat) : Nat := if mod48 (a + 2 ^ 48 - mod48 b) < 2 ^ 47 then mod48 a else mod48 b

/-- on_copy_end: the tag after a counted length at a weight. -/
def chargedTag (tag : Nat) (len : Int) (w : Nat) : Nat := mod48 (tag + len.toNat * 65536 / w)

-- Gates (R236 to R238) -----------------------------------------------------------------------------------------------------

/-- The entries of one cycle: cut at the cycle's end, the last held to it (R236). -/
def fitEntries : Nat → List (Nat × Nat) → List (Nat × Nat)
  | 0, _ => []
  | _, [] => []
  | left, [(s, _)] => [(s, left)]
  | left, (s, i) :: t => if i ≥ left then [(s, left)] else (s, i) :: fitEntries (left - i) t

/-- Ticks from a position in a cycle (ticks) to the closing of gate `g`; none where it is met nowhere. -/
def closingIn (g : Nat) : List (Nat × Nat) → Nat → Nat → Option Nat
  | [], _, _ => none
  | (s, i) :: t, pos, acc =>
    let w := 16 * i
    if pos ≥ w then closingIn g t (pos - w) acc
    else if bitOf s g then closingIn g t 0 (acc + (w - pos))
    else some acc

/-- Gate states that a list holds at a tick of device time (R236, R237). -/
def gateStates (l : GateList) (ticks : Nat) : Nat :=
  let pos := (ticks - l.start) % (16 * l.cycle)
  let rec go : List (Nat × Nat) → Nat → Nat
    | [], _ => 0xFF
    | (s, i) :: t, pos => if pos < 16 * i then s else go t (pos - 16 * i)
  go (fitEntries l.cycle l.entries) pos

/-- Ticks left until gate `g` next closes; none where it stays open (R238). -/
def gateLeft (l : GateList) (ticks g : Nat) : Option Nat :=
  let es := fitEntries l.cycle l.entries
  closingIn g (es ++ es) ((ticks - l.start) % (16 * l.cycle)) 0

/-- Device time at a Port's Nozzle PCS. -/
def portTicks (d : Dev) (p : Nat) : Nat := islandTicks d (nozzleOf p)

/-- Ticks that a number of bytes and the 8-byte preamble take on a Port's wire (R67, R238). -/
def wireTicks (x : Port) (bytes : Nat) : Nat := ceilDiv ((bytes + 8) * 128) (max 1 (portSpeed x))

/-- The tick at which what is launched at a Port's PCS at a tick passes its MDI plane (R74). -/
def mdiTick (x : Port) (launch : Nat) : Nat := (((launch + egDelay x : Nat) : Int) + x.planeOffset).toNat

/-- Gate times are device time at the egress MDI plane (R237): that plane's time for what is launched now. -/
def gateTicks (d : Dev) (p : Nat) : Nat := mdiTick (portOf d p) (portTicks d p)

/-- The gate of a queue is open and `bytes` leave the MDI before it closes (R225, R238). -/
def gateFits (d : Dev) (p q bytes : Nat) : Bool :=
  let s := schedOf d p
  let g := queueGate d q
  bitOf s.states g && match s.gates with
    | none => true
    | some l => match gateLeft l (gateTicks d p) g with
      | none => true
      | some left => decide (wireTicks (portOf d p) bytes ≤ left)

-- Bandwidth windows (R459, R460) ---------------------------------------------------------------------------------------------

/-- Adds a frame's bytes to the open windows of a Port and direction: the whole frame to the window and sub-window of
its stamp (R459). -/
def windowAdd (port dir ticks bytes : Nat) (d : Dev) : Dev :=
  { d with counters := { d.counters with windows := d.counters.windows.map fun w =>
      if w.port = port ∧ w.dir = dir ∧ w.from_ ≤ ticks then
        let len := w.length * 16000
        let start := ticks / len * len
        let sub := (ticks - start) * w.subs / len
        { w with counts := if w.counts.any (fun (a, b, _) => a == start && b == sub)
            then w.counts.map (fun (a, b, n, k) => if a == start && b == sub then (a, b, n + bytes, k + 1) else (a, b, n, k))
            else w.counts ++ [(start, sub, bytes, 1)] }
      else w } }

-- Ledger records of frames and copies (R277 to R281) -----------------------------------------------------------------------

/-- The steps applied within the last second since a frame's stamp was taken: differences the device computes are taken without them
(R99). -/
def stepSince (d : Dev) (f : Frame) : Int :=
  ((d.time.stepped.filter fun e => decide ((if f.pass = 2 then f.capAt else f.arrived) < e.2) && decide (d.clock - e.2 < 16000000000)).map (·.1)).sum

/-- EG_DELTA of a copy: egress TICKS minus ingress TICKS, without a step between the two stamps (R99, R281). -/
def egDelta (f : Frame) (c : Copy) : Nat :=
  match c.departed with
  | none => 0xFFFFFFFF
  | some t => ((t : Int) - f.stamp.ticks - c.shift).toNat % 2 ^ 32

/-- The primary copy: the lowest-numbered egress Port, and of two the first in enqueue order (R278). -/
def primaryCopy (d : Dev) (f : Frame) : Option Nat :=
  f.copies.foldl (fun a c => match a with
    | none => some c
    | some b => if (copyOf d c).port < (copyOf d b).port then some c else some b) none

/-- MULTI: a frame was committed with more than one copy, or the flood of its lookup request gave it more; a Hold copy that
takes another's place is no further copy (R281). -/
def multiFlag (d : Dev) (f : Frame) : Bool :=
  f.multi || decide (1 < (f.copies.filter fun c => let k := (copyOf d c).kind; k == 0 || k == 3).length)

/-- A FRAME or COPY record: `kind` 0 or 1, for a copy or none (R281); a frame that took no sequence is recorded as unguarded. -/
def recordBytes (d : Dev) (f : Frame) (kind : Nat) (c : Option Copy) (pending ledgered : Bool) : List Byte :=
  let delta := match c with | some c => if pending then 0xFFFFFFFF else egDelta f c | none => 0xFFFFFFFF
  let noDigest := !ledgered || f.digest.isNone
  stampBytes f.stamp ++ le 4 delta ++ le 2 (if f.seq.isSome then f.stream.getD 0 else 0) ++ le 4 (f.seq.getD 0)
    ++ le 2 (inWord f.port (if f.stream.isSome && f.seq.isSome then f.outcome.getD 15 else 15) kind)
    ++ le 2 (match c with
        | some c => egWord c.port (c.state == 3) c.late c.unequal c.replay (multiFlag d f) pending noDigest
        | none => egWord 0x1FF false false false false false pending noDigest)
    ++ le 6 (if noDigest then 0 else f.digest.getD 0)

/-- What the digest in every record of a ledgered frame is taken over, as it was at confirmation; none with NO_DIGEST (R281, R282). -/
def digestInput (f : Frame) : Option (List Byte) := if f.digest.isSome then some (f.bytes.take f.digestLen) else none

/-- Whether a frame is ledgered: a FRAME record is due or written (R277). -/
def ledgered (f : Frame) : Bool := f.recordDue || f.recorded != 0

/-- Writes a frame's FRAME record once its outcome and its primary copy's end are known (R279); `late`: 100 µs have
passed since the outcome. -/
def frameRecord (i : Nat) (late : Bool) (d : Dev) : Dev :=
  let f := frameOf d i
  if !f.recordDue || f.recorded != 0 || f.outcomeAt.isNone then d
  else
    let src := 1 + dieOf f.port
    let guarded := f.stream.isSome && f.seq.isSome
    match primaryCopy d f with
    | none => modFrame i (fun f => { f with recorded := 1 }) (offerRecord src (recordBytes d f 0 none false true) guarded (digestInput f) d)
    | some p =>
      let c := copyOf d p
      if c.state ≥ 3 then
        modFrame i (fun f => { f with recorded := 1 }) (offerRecord src (recordBytes d f 0 (some c) false true) guarded (digestInput f) d)
      else if late then
        modFrame i (fun f => { f with recorded := 2 }) (offerRecord src (recordBytes d f 0 (some c) true true) guarded (digestInput f) d)
      else d

/-- R278 gives a copy of a committed frame a COPY record at its end. One sent later in another's place is no primary copy. -/
def owesRecord (i : Nat) (d : Dev) : Bool :=
  let c := copyOf d i
  let f := frameOf d c.frame
  let primary := decide (c.kind < 4) && primaryCopy d f == some i
  c.kind != 1 && f.state == 2 && (c.unequal || c.replay || (primary && f.recorded == 2) || (d.ledger.allCopies && !primary && ledgered f))

/-- A copy's COPY record (R281). -/
def copyBytes (i : Nat) (d : Dev) : LedgerRec :=
  let c := copyOf d i
  let f := frameOf d c.frame
  { source := 3 + dieOf c.port, bytes := recordBytes d f 1 (some c) false (ledgered f), guarded := f.stream.isSome && f.seq.isSome,
    input := if ledgered f then digestInput f else none }

/-- The COPY record of a copy that has ended, where R278 gives one. It waits for its frame's commit (R202), and for the outcome of a
guarded frame, which it repeats (R281). -/
def copyRecord (i : Nat) (d : Dev) : Dev :=
  let f := frameOf d (copyOf d i).frame
  if !owesRecord i d || (f.seq.isSome && f.outcome.isNone) then d
  else let r := copyBytes i d; offerRecord r.source r.bytes r.guarded r.input d

/-- The COPY records of a frame's copies that have ended already. -/
def endedRecords (i : Nat) (d : Dev) : Dev :=
  (frameOf d i).copies.foldl (fun d c => if (copyOf d c).state ≥ 3 then copyRecord c d else d) d

-- Last-sent and Hold copies (R40, R46) ----------------------------------------------------------------------------------------

def streamOf (d : Dev) (s : Nat) : Stream := tget {} d.guard.streams s
def setStream (s : Nat) (x : Stream) (d : Dev) : Dev := { d with guard := { d.guard with streams := tput {} s x d.guard.streams } }

/-- Sequence `a` is after `b`, modulo 2^32 over a window of 2^31 (R39). -/
def seqAfter (a b : Nat) : Bool := let k := (a + 2 ^ 32 - b % 2 ^ 32) % 2 ^ 32; k != 0 && decide (k < 2 ^ 31)

/-- The grain in which the Hold Pool is filled: the frame's bytes with its FCS (log 13). -/
def holdSize (f : Frame) : Nat := f.bytes.length + 4

/-- Frees every Hold copy whose targeted slots have all reached its sequence (R46). -/
def freeHolds (stream : Nat) (d : Dev) : Dev :=
  let st := streamOf d stream
  let keep := fun (h : Hold) => h.stream != stream || h.slots.any (fun s =>
    match st.slots[s.slot]? with | some x => seqAfter h.seq x.lastSent | none => false)
  let kept := d.guard.holds.filter keep
  { d with guard := { d.guard with holds := kept, holdUsed := kept.foldl (fun a h => a + holdSize h.frame) 0 } }

/-- Sets a slot's last-sent value, unless the table is closed (R40, R50 step 3). -/
def setLastSent (stream slot seq : Nat) (d : Dev) : Dev :=
  let st := streamOf d stream
  if d.guard.closed then d
  else
    let d := setStream stream { st with slots := (st.slots.zipIdx).map fun (x, i) => if i = slot then { x with lastSent := seq } else x } d
    let key := stream * 4 + slot
    freeHolds stream { d with guard := { d.guard with changed := if d.guard.changed.contains key then d.guard.changed else d.guard.changed ++ [key] } }

/-- Whether a copy that leaves here is sent in the sense of R40: not on a squelched Port of a unit that does not send
(R297). -/
def drivesPort (d : Dev) (p : Nat) : Bool :=
  let x := portOf d p
  !x.txOff && !(d.pair.mode == 1 && d.pair.role ≥ 2 && d.pair.downstream != 2 && combinedFlag x)

-- PTP at the egress Basin (R102, R103) ------------------------------------------------------------------------------------

def ptpPort (d : Dev) (p : Nat) : PtpPort := tget {} d.ptp.ports p

/-- The PTP header of a message that a Port's role, transports and domains cover (R103, R116). -/
def ptpCovered (d : Dev) (port : Nat) (b : List Byte) : Option Nat :=
  let x := ptpPort d port
  match ptpAt b with
  | none => none
  | some (p, tr, _) => if x.role != 0 && bitOf x.transport tr && x.domains.contains (ptpDomain b p) then some p else none

/-- A message that Helm takes: any on a clock Port, and the peer-to-peer delay messages on a peer-to-peer Port (R103, R104). -/
def ptpForHelm (d : Dev) (port : Nat) (b : List Byte) : Bool :=
  match ptpCovered d port b with
  | none => false
  | some p => let x := ptpPort d port; x.role == 3 || (x.role == 2 && pdelayType (ptpType b p))

/-- The pending entry that a Follow_Up matches (R103). -/
def ptpMatch (d : Dev) (port : Nat) (b : List Byte) (p : Nat) : Option PtpPending :=
  d.ptp.pending.find? fun e => e.port == port && e.domain == ptpDomain b p && e.identity == ptpIdentity b p && e.seqId == ptpSeqId b p

/-- What the egress Basin writes into a PTP message that departs at a tick (R102, R103): a transparent clock's residence
time, with the ingress Port's mean link delay on a peer-to-peer Port; a matching entry's time into a Follow_Up; and Helm's
own Sync its `originTimestamp`, its own Pdelay_Resp the time since its request. -/
def ptpRewrite (d : Dev) (ticks : Nat) (c : Copy) : Copy :=
  match ptpCovered d c.port c.out with
  | none => c
  | some p =>
    let x := ptpPort d c.port
    let f := frameOf d c.frame
    let stay : Int := (ticks : Int) - f.stamp.ticks - stepSince d f
    let ty := ptpType c.out p
    let delay : Int := if x.role = 2 then ((ptpPort d f.port).linkDelay : Nat) else 0
    if f.forClock then
      if x.step != 0 then c
      else if ty = 0 then { c with out := putOrigin c.out ticks }
      else if ty = 3 then { c with out := addCorrection c.out (4096 * stay) }
      else c
    else if x.role = 3 then c
    else if ty = 0 then
      if x.step = 0 then { c with out := addCorrection c.out (4096 * stay + delay) } else { c with residence := some stay.toNat }
    else if ty = 1 && x.role = 1 then { c with out := addCorrection c.out (4096 * stay) }
    else if ty = 8 && x.step = 1 then
      match ptpMatch d c.port c.out p with
      | some e => { c with out := addCorrection c.out (4096 * e.residence + delay) }
      | none => c
    else c

/-- What a PTP message that has been sent leaves in the Basin's pending store (R102, R103): a Sync its residence time, a
Follow_Up its matched entry's removal. Helm's own Pdelay_Req leaves the tick at which it departed. -/
def ptpSent (c : Copy) (d : Dev) : Dev :=
  match ptpCovered d c.port c.out with
  | none => d
  | some p =>
    let x := ptpPort d c.port
    let b := basinOf c.port
    if (frameOf d c.frame).forClock then
      if ptpType c.out p = 2 then
        let y := { x with pdelayReq := some (ptpSeqId c.out p, ptpIdentity c.out p, c.departed.getD 0), pdelayResp := none }
        { d with ptp := { d.ptp with ports := tput {} c.port y d.ptp.ports } }
      else d
    else match c.residence with
    | some r =>
      let e : PtpPending := { basin := b, port := c.port, domain := ptpDomain c.out p, identity := ptpIdentity c.out p,
                              seqId := ptpSeqId c.out p, residence := r, at_ := d.clock }
      if (d.ptp.pending.filter fun y => y.basin == b).length < 4096 then { d with ptp := { d.ptp with pending := d.ptp.pending ++ [e] } }
      else
        count 0x34B b { d with ptp := { d.ptp with pending := (d.ptp.pending.eraseP fun y => y.basin == b) ++ [e] } }
    | none =>
      if ptpType c.out p = 8 && x.step = 1 && (x.role = 1 || x.role = 2) then
        match ptpMatch d c.port c.out p with
        | some e => { d with ptp := { d.ptp with pending := d.ptp.pending.erase e } }
        | none => count 0x34A b d
      else d

-- The end of a copy (R40, R203 to R206, R224 to R229) ----------------------------------------------------------------------

/-- A frame leaves the buffer when it is decided, its copies have ended, its records are written and nothing else
refers to it (R46, R214). -/
def reap (i : Nat) (d : Dev) : Dev :=
  let f := frameOf d i
  if f.state ≥ 2 && !f.learning && (f.copies ++ f.gone).all (fun c => (copyOf d c).state ≥ 3)
      && (!f.recordDue || (f.recorded != 0 && f.outcomeAt.isSome)) && (f.seq.isNone || f.outcome.isSome) then
    { d with frames := tput {} i {} d.frames,
             copies := (f.copies ++ f.gone).foldl (fun t c => tput {} c {} t) d.copies }
  else d

/-- Charges the shapers and tags on a copy's path with its counted length (R226, R228, R229). -/
def chargePath (c : Copy) (wireLen : Nat) (d : Dev) : Dev :=
  let p := c.port
  let len : Int := wireLen + (portOf d p).overhead
  let q := queueOf d c.queue
  let g := queueGroup d c.queue
  let d := setQueue c.queue { q with shaper := q.shaper.charge d.clock len, tag := chargedTag q.tag len q.weight } d
  let x := groupOf d g
  let d := setGroup g { x with shaper := x.shaper.charge d.clock len, tag := chargedTag x.tag len x.weight } d
  let s := schedOf d p
  setSched p { s with shaper := s.shaper.charge d.clock len, sending := none } d

/-- A copy leaves its queue. -/
def unqueue (i : Nat) (d : Dev) : Dev :=
  let c := copyOf d i
  let q := queueOf d c.queue
  setQueue c.queue { q with copies := q.copies.filter (· != i) } d

/-- A copy that cannot leave at its due time is to be sent as UNEQUAL (R269). -/
def markUnequal (i : Nat) (d : Dev) : Dev := modCopy i (fun c => { c with unequal := true }) d

/-- A copy that is sent with the UNEQUAL flag counts on its group and on its egress Port (R269). -/
def countUnequal (c : Copy) (d : Dev) : Dev :=
  match c.level with
  | some (group, _) =>
    if c.unequal then
      let g := tget ({} : LevelGroup) d.release.level group
      let d := { d with release := { d.release with level := tput {} group { g with unequal := (g.unequal + 1) % 2 ^ 64 } d.release.level } }
      count 0x610 group (count 0x20C c.port d)
    else d
  | none => d

/-- A copy that a Confluence group holds leaves it (R256). -/
def unhold (i : Nat) (d : Dev) : Dev :=
  match (copyOf d i).conf with
  | some (g, _) =>
    let x := tget ({} : ConfGroup) d.release.conf g
    { d with release := { d.release with conf := tput {} g { x with held := x.held.filter fun e => e.1 != i } d.release.conf } }
  | none => d

/-- After a copy's end a Port keeps the inter-frame gap of 12 bytes (R67). -/
def keepGap (p : Nat) (d : Dev) : Dev :=
  setSched p { schedOf d p with idleFrom := d.clock + ceilDiv (12 * 128) (max 1 (portSpeed (portOf d p))) } d

/-- The inter-frame gap after the latest copy of a Port is over (R67). -/
def gapOver (d : Dev) (p : Nat) : Bool := decide ((schedOf d p).idleFrom ≤ d.clock)

/-- What every end of a copy does: its queue entry and its place in a Confluence group go, a started copy's path is charged with the
bytes on the wire, and the records that waited for it follow. -/
def endCopy (i state wireLen : Nat) (d : Dev) : Dev :=
  let c := copyOf d i
  if c.state ≥ 3 then d
  else
    let d := unhold i (unqueue i d)
    let d := if c.state = 2 then keepGap c.port (chargePath c wireLen d) else d
    let d := setCopy i { c with state := state } d
    let d := copyRecord i (frameRecord c.frame false d)
    let d := if (frameOf d c.frame).recorded = 2 && primaryCopy d (frameOf d c.frame) == some i
      then modFrame c.frame (fun f => { f with recorded := 1 }) d else d
    reap c.frame d

/-- Bytes of a copy, from its destination address, that are due at the Nozzle PCS by now, from its launch there on (R200, R204). -/
def dueBytes (d : Dev) (c : Copy) : Nat :=
  if c.departed.isNone then 0 else (d.clock - c.startAt) * portSpeed (portOf d c.port) / 128 - 8

/-- Bytes of a copy that have been passed to the Nozzle PCS by now: its last 4 never before its verdict (R200, R204). -/
def sentBytes (d : Dev) (c : Copy) : Nat := min (if c.verdict then c.out.length else c.out.length - 4) (dueBytes d c)

/-- The egress Basin stomps a started copy: the bytes already sent, their inverted CRC-32, and an error block (R204); a
copy that has not started is discarded. `code`: the egress counter of its cause (R205). -/
def stompCopy (i code : Nat) (d : Dev) : Dev :=
  let c := copyOf d i
  if c.state = 2 then
    let n := sentBytes d c
    let part := c.out.take n
    let d := if c.driven then emit (.wire c.port part (crc32 part ^^^ 0xFFFFFFFF) true) d else d
    let d := count 0x201 c.port (if code = 0x201 then d else count code c.port d)
    endCopy i 4 (n + 4) d
  else endCopy i 5 0 d

/-- A copy that is being sent is cut short: by a link loss, with an error control block (R72), or by its transmitter switched off (R50). It
is not stomped, and not sent (log 48). -/
def cutCopy (i : Nat) (block : Bool) (d : Dev) : Dev :=
  let c := copyOf d i
  let part := c.out.take (sentBytes d c)
  endCopy i 4 part.length (if c.driven then emit (.cut c.port part block) d else d)

/-- A copy that is not started ends without leaving, counted on its Port (R72, R84); one of a Level Release group is recorded as unequal
and not sent (R270). -/
def discardCopy (i code : Nat) (d : Dev) : Dev :=
  let c := copyOf d i
  if c.state = 2 then stompCopy i code d
  else endCopy i 5 0 (if code = 0 then d else countEgress code c (if c.level.isSome then markUnequal i d else d))

/-- Bytes of a guard trailer that a copy leaves with, and whether it was dropped for the MTU (R109). -/
def leavingTrailer (d : Dev) (c : Copy) : List Byte × Bool :=
  let x := portOf d c.port
  let f := frameOf d c.frame
  if wantsTrailer x f c then (if trailerFits x c then (trailerBytes f c, false) else ([], true)) else ([], false)

/-- The final block of a copy has left with a valid FCS: the copy is sent, where its Port's drivers were on (R40, R297). -/
def sendCopy (i : Nat) (d : Dev) : Dev :=
  let c := copyOf d i
  let f := frameOf d c.frame
  let (tr, dropped) := leavingTrailer d c
  let bytes := c.out ++ tr
  let len := bytes.length + 4
  let d := if dropped then count 0x208 c.port d else d
  let d := if c.driven then
      let d := countUnequal c d
      let d := countIn 0x200 c.port len (countIn 0x401 c.queue len (emit (.wire c.port bytes (crc32 bytes) false) d))
      windowAdd c.port 1 (c.departed.getD 0) len d
    else d
  let d := match f.stream, c.slot, f.seq with
    | some s, some k, some n => if c.driven && sendingUnit d then setLastSent s k n d else d
    | _, _, _ => d
  endCopy i (if c.driven then 3 else 5) len (ptpSent c d)

-- Selection (R224 to R226) --------------------------------------------------------------------------------------------------

/-- Guarded copies may start: not frozen, and not blocked by the role (R50, R296). -/
def guardedMayStart (d : Dev) : Bool := !d.guard.frozen && !(d.pair.mode == 1 && d.pair.role ≥ 3)

/-- The launch tick of a held copy: its due tick less its Port's calibrated egress delay (R266). -/
def launchTick (d : Dev) (c : Copy) : Nat := ((c.level.map (·.2)).getD 0) - egDelay (portOf d c.port)

/-- Start granularity of a Port in ticks, rounded up (R210). -/
def startGrain (speed : Nat) : Nat :=
  match speed with | 10 => 52 | 25 => 21 | 50 => 21 | 100 => 11 | 200 => 6 | 400 => 3 | _ => 2

/-- A copy that leaves at a tick of its own: a Level Release copy still equal (R266), or a cut-through copy of deterministic mode
(R209). -/
def hasLaunch (c : Copy) : Bool := (c.level.isSome && !c.unequal) || c.launch.isSome

/-- The head copy of a queue can be sent as far as its own state goes: released, with no launch tick of its own, and guarded
egress permits it. -/
def headReady (d : Dev) (q : Nat) : Bool :=
  match (queueOf d q).copies.head? with
  | none => false
  | some i =>
    let c := copyOf d i
    c.state == 1 && !hasLaunch c && (c.slot.isNone || guardedMayStart d)

/-- No eligible Level Release copy of a Port has a launch tick before `bytes` that start at a tick would have left (R268). -/
def lrClearAt (d : Dev) (p tick bytes : Nat) : Bool :=
  d.copies.all fun (_, c) => !(c.port == p && c.state == 1 && c.level.isSome && !c.unequal
    && decide (launchTick d c < tick + wireTicks (portOf d p) bytes))

def lrClear (d : Dev) (p bytes : Nat) : Bool := lrClearAt d p (portTicks d p) bytes

/-- A copy granted a Port before its frame's confirmation waits for its launch tick: the Port is its own until it ends (R227). -/
def grantWaits (d : Dev) (p : Nat) : Bool := d.copies.any fun (_, c) => c.port == p && c.cut && c.launch.isSome && c.state == 1

/-- Bytes of a queue's head copy on the wire, trailer and FCS included. -/
def headBytes (d : Dev) (q : Nat) : Nat :=
  match (queueOf d q).copies.head? with
  | none => 0
  | some i => let c := copyOf d i; c.out.length + 4 + (leavingTrailer d c).1.length

/-- Whether a queue is eligible (R225). -/
def queueEligible (d : Dev) (p q : Nat) : Bool :=
  headReady d q && (queueOf d q).shaper.ok d.clock && gateFits d p q (headBytes d q) && lrClear d p (headBytes d q)

/-- The queues of a Port that hold copies. -/
def busyQueues (d : Dev) (p : Nat) : List Nat :=
  d.tm.queues.filterMap fun (q, x) => if !x.copies.isEmpty && queuePort d q == some p then some q else none

/-- on_eligible for a queue and its group: what becomes eligible starts no earlier than the band's virtual time, and
what has stopped being eligible is so marked (R226). -/
def refreshQueue (p q : Nat) (d : Dev) : Dev :=
  let x := queueOf d q
  let e := queueEligible d p q
  let g := queueGroup d q
  let v := tget 0 (groupOf d g).v x.band
  setQueue q { x with eligible := e, tag := if e && !x.eligible then later48 x.tag v else x.tag } d

def groupEligible (d : Dev) (p g : Nat) : Bool :=
  (groupOf d g).shaper.ok d.clock && (busyQueues d p).any (fun q => queueGroup d q == g && (queueOf d q).eligible)

def refreshGroup (p g : Nat) (d : Dev) : Dev :=
  let x := groupOf d g
  let e := groupEligible d p g
  let v := tget 0 (schedOf d p).v x.band
  setGroup g { x with eligible := e, tag := if e && !x.eligible then later48 x.tag v else x.tag } d

/-- Every queue and group of a Port looked at again. -/
def refreshPort (p : Nat) (d : Dev) : Dev :=
  let qs := d.tm.queues.filterMap fun (q, _) => if queuePort d q == some p then some q else none
  let gs := ((List.range 16).map (16 * p + ·) ++ d.tm.groups.map (·.1)).eraseDups.filter fun g => groupPort d g == p
  gs.foldl (fun d g => refreshGroup p g d) (qs.foldl (fun d q => refreshQueue p q d) d)

/-- The member with the least band, then the least tag from the band's virtual time, then the lower number (R224,
R226). -/
def leastMember (v : Tbl Nat) (ms : List (Nat × Nat × Nat)) : Option Nat :=
  (ms.foldl (fun (a : Option (Nat × Nat × Nat)) (n, band, tag) =>
    let key := mod48 (tag + 2 ^ 48 - tget 0 v band)
    match a with
    | none => some (n, band, key)
    | some (m, b, k) => if band < b || (band == b && (key < k || (key == k && n < m))) then some (n, band, key) else a) none).map (·.1)

/-- The queue that a free Port's scheduler selects, if any (R224). -/
def selectQueue (d : Dev) (p : Nat) : Option Nat :=
  if !(schedOf d p).shaper.ok d.clock then none
  else
    let qs := (busyQueues d p).filter fun q => (queueOf d q).eligible
    let gs := (qs.map (queueGroup d)).eraseDups.filter fun g => (groupOf d g).eligible
    match leastMember (schedOf d p).v (gs.map fun g => (g, (groupOf d g).band, (groupOf d g).tag)) with
    | none => none
    | some g => leastMember (groupOf d g).v ((qs.filter fun q => queueGroup d q == g).map fun q => (q, (queueOf d q).band, (queueOf d q).tag))

/-- on_select, at both levels: V becomes the selected member's tag. A member that is selected for a launch tick of its own becomes
eligible by it, so its tag is no earlier than V, and V never decreases (R226). -/
def noteSelected (p q : Nat) (d : Dev) : Dev :=
  let y := queueOf d q
  let g := queueGroup d q
  let x := groupOf d g
  let s := schedOf d p
  let tg := later48 x.tag (tget 0 s.v x.band)
  let tq := later48 y.tag (tget 0 x.v y.band)
  let d := setSched p { s with v := tput 0 x.band tg s.v } d
  setQueue q { y with tag := tq } (setGroup g { x with tag := tg, v := tput 0 y.band tq x.v } d)

/-- A copy starts on its Port: its egress stamp is the launch tick referred to the MDI plane, and a PTP message is
corrected for that tick (R74, R102, R224). The egress Basin stomps a guarded copy for a Port outside its stream's permitted
egress set (R55, R205). -/
def startCopy (i launch : Nat) (d : Dev) : Dev :=
  let c := copyOf d i
  let x := portOf d c.port
  let s := schedOf d c.port
  let ticks := mdiTick x launch
  let c := ptpRewrite d ticks { c with shift := stepSince d (frameOf d c.frame) }
  let d := setSched c.port { s with sending := some i } (setCopy i { c with state := 2, departed := some ticks, startAt := d.clock + (launch - portTicks d c.port), gateStart := s.listNo, driven := drivesPort d c.port } d)
  if c.kind = 0 && c.slot.isNone && (frameOf d c.frame).stream.isSome then
    stompCopy i 0x204 (report (0x200 + basinOf c.port) 0x0E c.port d)
  else d

end Sys2Proof.Machine
end

