-- ==== Sys2Proof/Machine/Roles.lean ====
section
/-!
DEFINITION. Freezing guarded egress, the safe state, the acceptance of guarded frames, the roles of a Pair and what a
change of role does, and the messages a unit sends on the Tether.
-/

namespace Sys2Proof.Machine

-- The Tether (R299, R305) ---------------------------------------------------------------------------------------------

/-- Device time in the East traffic manager's island, into which the Tether crosses (01_architecture.md, R299). -/
def tetherTicks (d : Dev) : Nat := islandTicks d 0x49

/-- Sends a Tether message with its kind's next number (R299). -/
def tetherSend (subtype : Nat) (body : List Byte) (d : Dev) : Dev :=
  let n := tget 0 d.pair.msgSeq subtype
  emit (.tether subtype n (tetherTicks d) body)
    { d with pair := { d.pair with msgSeq := tput 0 subtype ((n + 1) % 2 ^ 32) d.pair.msgSeq } }

/-- Sends a message that is kept until its acknowledgement (R299). -/
def tetherKeep (subtype : Nat) (body : List Byte) (ticket : Option Nat) (localDone : Bool) (d : Dev) : Dev :=
  let n := tget 0 d.pair.msgSeq subtype
  let d := tetherSend subtype body d
  { d with pair := { d.pair with unacked := d.pair.unacked ++
      [{ subtype, seq := n, body, sentAt := d.clock, firstAt := d.clock, ticket, localDone }] } }

/-- The partner applies mirrored commands: pair mode, Tether up, partner neither STALE nor FENCED (R305). -/
def partnerApplies (d : Dev) : Bool := d.pair.mode == 1 && d.pair.tetherUp && d.pair.partnerRole ≤ 2

/-- The sending unit mirrors a command to its partner (R304, R305). -/
def mirror (opcode beat : Nat) (req : List Byte) (ticket : Option Nat) (d : Dev) : Dev :=
  if d.pair.mode == 1 && d.pair.tetherUp && sendingUnit d then
    if partnerApplies d || d.pair.partnerRole == 3 then
      let d := (mirrorAhead opcode beat req).foldl (fun d b => tetherKeep 0x24 b none true d) d
      tetherKeep 0x24 (mirrorLast opcode beat req) (if partnerApplies d then ticket else none) ticket.isNone d
    else d
  else d

/-- The local part of a mirrored command ends: its ticket completes with its completion bytes, unless the partner's part is
still outstanding (R305). -/
def finishProgrammed (n status : Nat) (bytes : List Byte) (d : Dev) : Dev :=
  if effective status && d.pair.unacked.any (fun u => u.ticket == some n) then
    { d with pair := { d.pair with unacked := d.pair.unacked.map fun u =>
        if (u.ticket == some n) = true then { u with localDone := true, result := bytes } else u } }
  else finishTicket n bytes d

/-- CONTROL bodies (log 16): what it is, and its argument. -/
def controlBody (what arg : Nat) : List Byte := be 2 what ++ be 4 arg

/-- Acknowledges a Tether message of a kind and number (R299). -/
def tetherAck (subtype seq : Nat) (d : Dev) : Dev :=
  let d := if subtype = 0x24 then { d with pair := { d.pair with mirrorAt := d.pair.mirrorAt.filter fun e => e.1 != seq } } else d
  tetherSend 0x28 (controlBody subtype seq) d

/-- The partner no longer applies mirrored commands: the tickets that waited for it complete with the sending unit's own result, at
once where that is known (R305). -/
def mirrorsAlone (d : Dev) : Dev :=
  let us := d.pair.unacked
  let d := { d with pair := { d.pair with unacked := us.map fun u => { u with ticket := none } } }
  us.foldl (fun d u => match u.ticket with | some n => if u.localDone then finishTicket n u.result d else d | none => d) d

/-- The completion of such a ticket with ST_FAULT, in its command's layout (R166, R167). -/
def lostBytes (d : Dev) (u : Unacked) (n : Nat) : List Byte :=
  if u.localDone then le 2 stFault ++ u.result.drop 2
  else
    match d.steward.ops.find? fun o => o.ticket == n with
    | some o => if o.code = 6 || o.code = 7 then le 2 stFault ++ le 2 0 ++ le 8 o.beat ++ le 4 n
      else if o.opcode = 0x0602 then le 2 stFault ++ le 1 0 ++ le 1 0xFF ++ le 4 n else le 2 stFault ++ le 2 0 ++ le 4 n
    | none => le 2 stFault ++ le 2 0 ++ le 4 n

/-- Tickets of mirrored commands that a unit holds when it stops sending complete with ST_FAULT, and the messages are gone (R305). -/
def mirrorsLost (d : Dev) : Dev :=
  let us := d.pair.unacked.filter fun u => u.subtype == 0x24
  let d := { d with pair := { d.pair with unacked := d.pair.unacked.filter fun u => u.subtype != 0x24 } }
  us.foldl (fun d u => match u.ticket with | some n => finishTicket n (lostBytes d u n) d | none => d) d

-- Acceptance (R41, R42, R314) --------------------------------------------------------------------------------------------

/-- Every committed guarded frame ends with one outcome: counted on its Weir, kept with its Hold and Retained copies,
and its record follows (R42, R279). -/
def setOutcome (i code : Nat) (d : Dev) : Dev :=
  let f := frameOf d i
  if f.outcome.isSome then d
  else
    let d := count (0x500 + code) (dieOf f.port) d
    let d := setFrame i { f with outcome := some code, outcomeAt := some d.clock } d
    let same := fun (s n : Nat) => f.stream == some s && f.seq == some n
    let d := { d with guard := { d.guard with
      holds := d.guard.holds.map fun h => if same h.stream h.seq then { h with frame := { h.frame with outcome := some code } } else h,
      retains := d.guard.retains.map fun h => if same h.stream h.seq then { h with frame := { h.frame with outcome := some code } } else h } }
    reap i (endedRecords i (frameRecord i false d))

/-- The receipt of a frame: same stream, sequence and digest (R41). -/
def receiptFor (d : Dev) (f : Frame) : Option Receipt :=
  d.pair.receipts.find? fun r => f.stream == some r.stream && f.seq == some r.seq

/-- Acceptance is suspended: by a freeze, the safe state, the role, or a lost Tether (R41, R296, R317). -/
def acceptSuspended (d : Dev) : Bool := acceptCond d == 3

/-- The Weir accepts a frame at the first instant at which all the conditions in force at its confirmation hold, and none after its
deadline (R41, R314). -/
def tryAccept (i : Nat) (d : Dev) : Dev :=
  let f := frameOf d i
  match f.confirmed with
  | none => d
  | some at_ =>
    if f.outcome.isSome || !f.held || acceptSuspended d then d
    else
      match f.cond with
      | 1 => if f.retained && d.clock - at_ ≤ 320000 then setOutcome i 0 d else d
      | 2 =>
        match receiptFor d f with
        | some r => if r.digest == f.fcs && d.clock - at_ ≤ 16000 then setOutcome i 0 d else d
        | none => d
      | _ => d

/-- Frames judged on the pair condition that still await a receipt end NO_RECEIPT (R314). -/
def endAwaiting (d : Dev) : Dev :=
  (d.frames.filterMap fun (i, f) => if f.seq.isSome && f.outcome.isNone && f.cond == 2 then some i else none).foldl
    (fun d i => setOutcome i 3 d) d

/-- Ends what awaits a receipt where a change has taken the acceptance condition away from the pair condition (R314). -/
def leavePair (wasPair : Bool) (d : Dev) : Dev := if wasPair && acceptCond d != 2 then endAwaiting d else d

-- Freezing (R50, R52) ---------------------------------------------------------------------------------------------------------

/-- Copies that are being sent. -/
def transmitting (d : Dev) : List Nat := d.copies.filterMap fun (i, c) => if c.state = 2 then some i else none

/-- A freeze: acceptance is suspended, so that frames awaiting a receipt end NO_RECEIPT (R314), guarded starts stop and guarded copies
in transmission are stomped, or cut where a combined Port's transmitter goes off, and the last-sent table closes; in pair mode a FINAL
report is due, and the closed table goes to the Cistern (R50). -/
def freeze (d : Dev) : Dev :=
  if d.guard.frozen && d.guard.suspended then d
  else
    let d := leavePair (acceptCond d == 2)
      { d with guard := { d.guard with suspended := true, frozen := true, frozenAt := some d.clock, finalSent := false } }
    let hit := (transmitting d).filter fun i => let c := copyOf d i; c.slot.isSome || combinedFlag (portOf d c.port)
    let d := hit.foldl (fun d i => if combinedFlag (portOf d (copyOf d i).port) then cutCopy i false d else stompCopy i 0x203 d) d
    let d := { d with ports := d.ports.map fun (p, x) => (p, if combinedFlag x then { x with txOff := true } else x) }
    { d with guard := { d.guard with closed := true, finalDue := d.pair.mode == 1, storing := true } }

/-- Guarded egress runs again. -/
def unfreeze (d : Dev) : Dev :=
  { d with guard := { d.guard with suspended := false, frozen := false, closed := false, finalDue := false, leaving := false },
           ports := d.ports.map fun (p, x) => (p, if combinedFlag x then { x with txOff := false } else x) }

-- Releasing Hold copies (R58, R315) ---------------------------------------------------------------------------------------------

/-- Queues one copy of a Hold or Retained copy for one slot, ahead of any guarded copy of the stream that waits there (R315). One
released by a takeover, a safe-state exit or a replay carries REPLAY, and LATE where its frame is of a Confluence stream (R109, R315);
kind 4, sent after a link came back, carries neither (R72; log 47). One of a Level Release group is UNEQUAL (R270, R315). -/
def releaseOne (kind stream seq : Nat) (fr : Frame) (hs : HoldSlot) (d : Dev) : Dev :=
  match (streamOf d stream).slots[hs.slot]? with
  | none => d
  | some sl =>
    let fi := d.nextFrame
    let ci := d.nextCopy
    let q := (queueRange d sl.port).1 + sl.queue
    let fr := { fr with state := 2, copies := [ci], recordDue := false, recorded := 1, stream := some stream, seq := some seq,
                        outcome := some (fr.outcome.getD 3), outcomeAt := some d.clock, learning := false, enqueued := true }
    let c : Copy := { frame := fi, port := sl.port, queue := q, slot := some hs.slot, kind, state := 1, verdict := true,
                      enqAt := islandTicks d (0x48 + dieOf sl.port), enqClock := d.clock, out := hs.out, replay := kind != 4,
                      late := kind != 4 && hs.conf, level := hs.level.map fun g => (g, 0), unequal := hs.level.isSome, part := 3,
                      rewrite := hs.rewrite, trailerMode := hs.trailerMode }
    let x := queueOf d q
    let waits := fun i => let y := copyOf d i; y.slot.isSome && y.state < 2 && y.kind < 4 && (frameOf d y.frame).stream == some stream
    let pre := x.copies.takeWhile (fun i => !waits i)
    let d := { d with nextFrame := fi + 1, nextCopy := ci + 1 }
    countIn 0x400 q (hs.out.length + 4)
      (setQueue q { x with copies := pre ++ [ci] ++ x.copies.drop pre.length } (setCopy ci c (setFrame fi fr d)))

/-- Copies of released sequences that wait in a slot are discarded: their release copies take their place (R315). -/
def discardWaiting (stream slot : Nat) (seqs : List Nat) (d : Dev) : Dev :=
  (d.copies.filterMap fun (i, c) =>
    let f := frameOf d c.frame
    if c.slot == some slot && f.stream == some stream && c.state < 2 && (f.seq.map seqs.contains).getD false then some i else none).foldl
    (fun d i => endCopy i 5 0 d) d

/-- The Hold copies above a slot's last-sent value, in sequence order, that `want` names. -/
def heldAbove (d : Dev) (stream : Nat) (sl : Slot) (want : Hold → Bool) : List Hold :=
  let hs := d.guard.holds.filter fun h => h.stream == stream && !h.lost && want h && seqAfter h.seq sl.lastSent
  sortBy (fun h => (h.seq + 2 ^ 32 - sl.lastSent) % 2 ^ 32) hs

/-- For each slot, in order of stream and slot, what `one` queues of a Hold copy that targets it. -/
def eachSlot (of : Slot → Bool) (one : Nat → Nat → Slot → Dev → Dev) (d : Dev) : Dev :=
  d.guard.streams.foldl (fun d (s, st) => (st.slots.zipIdx).foldl (fun d (sl, k) => if of sl then one s k sl d else d) d) d

/-- Queues the copies of some Hold copies for one slot. -/
def releaseList (kind stream k : Nat) (hs : List Hold) (d : Dev) : Dev :=
  hs.foldl (fun d h => match h.slots.find? (fun x => x.slot == k) with
    | some x => releaseOne kind stream h.seq h.frame x d
    | none => d) d

/-- For each slot that `of` names, every Hold copy above its last-sent value, in sequence order, that `want` names (R58, R315). -/
def releaseSlots (of : Slot → Bool) (want : Hold → Bool) (d : Dev) : Dev :=
  eachSlot of (fun s k sl d =>
    let hs := heldAbove d s sl want
    releaseList 6 s k hs (discardWaiting s k (hs.map (·.seq)) d)) d

/-- A copy of a sequence is queued or being sent in a slot. -/
def liveIn (d : Dev) (stream slot seq : Nat) : Bool :=
  d.copies.any fun (_, c) => c.slot == some slot && decide (c.state < 3) &&
    (let f := frameOf d c.frame; f.stream == some stream && f.seq == some seq)

/-- For each slot that `of` names, the Hold copies above its last-sent value of which no copy waits there: those that were being sent
when the link, or the Basin, was lost (R72, R476). The copies that wait are sent themselves. -/
def resumeSlots (of : Slot → Bool) (d : Dev) : Dev :=
  eachSlot of (fun s k sl d => releaseList 4 s k (heldAbove d s sl fun h => !liveIn d s k h.seq) d) d

def releaseHolds (want : Hold → Bool) (d : Dev) : Dev := releaseSlots (fun _ => true) want d

-- Roles (R296, R313 to R317) ----------------------------------------------------------------------------------------------------

/-- Hold copies are freed on entry to STALE (R296). -/
def dropHolds (d : Dev) : Dev := { d with guard := { d.guard with holds := [], holdUsed := 0 } }

/-- A resynchronisation fails at a step: the event, and its ticket ends (R319, R325). -/
def failResync (step : Nat) (d : Dev) : Dev :=
  match d.pair.resync with
  | none => d
  | some (_, tk, _) =>
    completeOpt tk stFault [] (raise 0x0C0A 0xFFFF step [] { d with pair := { d.pair with resync := none, sync := 0, alignAt := none } })

/-- A planned swap that can no longer be made ends its ticket, and the ACTIVE that has stopped its guarded starts for it goes on with them
(R316, R317, R322). -/
def failPlanned (d : Dev) : Dev :=
  match d.pair.planned with
  | none => d
  | some (_, tk) =>
    let d := if d.pair.role ≤ 1 && d.guard.frozen && !d.guard.suspended then unfreeze d else d
    completeOpt tk stFault [] { d with pair := { d.pair with planned := none, plannedSent := false } }

/-- A unit's role changes, with its cause; the event is raised (R313). The Weirs' condition follows the role, and frames
that awaited a receipt end NO_RECEIPT when it is no longer the pair condition (R314). -/
def changeRole (role cause : Nat) (d : Dev) : Dev :=
  let old := d.pair.role
  let wasPair := acceptCond d == 2
  let d := raise 0x0C01 0xFFFF (role + 8 * old + 256 * cause) [] d
  let d := if old ≤ 1 && role ≥ 2 then mirrorsLost { d with pair := { d.pair with promiseSuspended := false } } else d
  let d := if cause = 14 || cause = 16 then mirrorsAlone d else d
  let d := if role ≥ 3 || cause = 14 || cause = 16 then failPlanned d else d
  let d := if old = 3 && role != 2 then failResync 2 d else d
  let d := { d with pair := { d.pair with role, lastCause := cause, roleSince := helmStamp d, fencedBySafe := cause == 19, handshake := false,
                                          sync := if role == 2 then 3 else if role == 3 then d.pair.sync else 0,
                                          noContactSince := if role == 4 then d.clock else d.pair.noContactSince } }
  leavePair wasPair (if role == 3 then dropHolds { d with pair := { d.pair with sync := 0, alignAt := none } } else d)

/-- A unit that becomes SOLO from STANDBY or FENCED: drivers on, L fixed from its newest values, and every Hold copy above
L released with REPLAY (R315). -/
def takeover (cause : Nat) (d : Dev) : Dev :=
  releaseHolds (fun _ => true) (unfreeze (changeRole 0 cause d))

/-- A yield of a sending unit, or the STANDBY going STALE (R313 causes 12 and 10); a STALE or FENCED unit ignores it. -/
def yieldUnit (d : Dev) : Dev :=
  if d.pair.mode != 1 then d
  else if d.pair.role ≤ 1 then changeRole 3 12 (freeze d)
  else if d.pair.role = 2 then changeRole 3 10 d
  else d

/-- The STANDBY goes STALE (R313 cause 10). -/
def standbyStale (d : Dev) : Dev := if d.pair.mode == 1 && d.pair.role == 2 then changeRole 3 10 d else d

/-- The ACTIVE suspends its acceptance, and resumes it, with the event of each (R317). -/
def suspendPromise (d : Dev) : Dev :=
  if d.pair.promiseSuspended then d
  else
    let wasPair := acceptCond d == 2
    leavePair wasPair (raise 0x0C07 0xFFFF 1 [] { d with pair := { d.pair with promiseSuspended := true } })

def resumePromise (d : Dev) : Dev :=
  if d.pair.promiseSuspended then raise 0x0C07 0xFFFF 0 [] { d with pair := { d.pair with promiseSuspended := false } } else d

-- The safe state (R56, R57, R313 cause 19) -----------------------------------------------------------------------------------------

def toBoth (vector : Nat) (d : Dev) : Dev := (functions d).foldl (fun d f => emit (.msix f vector) d) d

/-- Entry to the safe state with a cause, or a further cause while in it (R56, R57). -/
def enterSafe (cause : Nat) (d : Dev) : Dev :=
  if d.guard.cause != 0 then
    { d with guard := { d.guard with more := if cause == d.guard.cause || d.guard.more.contains cause then d.guard.more else d.guard.more ++ [cause] } }
  else
    let d := freeze d
    let d := { d with guard := { d.guard with cause, more := [] },
                      ports := d.ports.map fun (p, x) => (p, if stopInSafeFlag x then { x with txOff := true } else x) }
    let d := toBoth 1 (raise 0x0004 0xFFFF (1 + 16 * cause) [] d)
    if d.pair.mode == 1 then changeRole 4 19 d else d

/-- Pins that follow the state: SAFE_OUT_N and FAULT_N asserted, both also while VIO regulates and the power-on reset is held (R57, R362,
R489). -/
def safeOutAsserted (d : Dev) : Bool := d.guard.cause != 0 || (d.power.held && decide (1 ≤ d.power.groupsUp))
def faultAsserted (d : Dev) : Bool := d.coll.status.any (·.2) || safeOutAsserted d

/-- The pattern on PULSE_OUT: 0 ALIVE, 1 SAFE, 2 LEAVING, from a supply-fail freeze or a reset freeze on; 3 none, once power or reset has
removed it (R302). -/
def pulseOut (d : Dev) : Nat :=
  if !d.power.vin || d.power.held then 3 else if d.guard.cause != 0 then 1 else if d.guard.leaving || d.power.resetFreeze.isSome then 2 else 0

-- Contact and the Witness (R303, R313) ------------------------------------------------------------------------------------------------

/-- The verdict of the chosen Witness, none where it is absent (R303). -/
def witnessVerdict (d : Dev) : Option Bool :=
  match d.pair.witness with
  | 1 => d.pair.witnessIn
  | 2 => match d.pair.managerVerdict with
    | some (g, at_) => if d.clock - at_ ≤ 64000 then some g else none
    | none => none
  | _ => none

/-- Witness grants, or Witness absent and this unit preferred (R313). -/
def maySend (d : Dev) : Bool := (witnessVerdict d).getD d.pair.rolePref

/-- The unit has a HEARTBEAT from its partner within 4 µs over a Tether that is up (R313). -/
def hasHeartbeat (d : Dev) : Bool :=
  d.pair.pcsUp && match d.pair.hbAt with | some a => decide (d.clock - a < 64000) | none => false

/-- Contact is lost: no HEARTBEAT for 4 µs or the PCS down, and the Pulse lost (R313). -/
def contactLost (d : Dev) : Bool := !hasHeartbeat d && d.pair.pulse.isNone

end Sys2Proof.Machine
end

