-- ==== Sys2Proof/Machine/Walk.lean ====
section
/-!
DEFINITION. The parser (05_parser.md): graph images and their checks, and the walk of a frame's header window. A node image
is 256 bytes, 32 little-endian words (R124).
-/

namespace Sys2Proof.Machine

-- Node fields (R124) ------------------------------------------------------------------------------------------------------

/-- Word `i` of a node image. -/
def nodeWord (n : List Byte) (i : Nat) : Nat := u64 n (8 * i)

/-- A field of a frame's bits: `off` bits from byte `h`, `width` bits, network bit order (R120). -/
def fieldAt (b : List Byte) (h off width : Nat) : Nat :=
  beAt b (h + off / 8) 5 / 2 ^ (40 - off % 8 - width) % 2 ^ width

/-- The first byte after a field, from byte `h`. -/
def fieldEnd (h off width : Nat) : Nat := h + (off + width + 7) / 8

def selEn (n : List Byte) : Bool := bitOf (nodeWord n 0) 16
def selOffset (n : List Byte) : Nat := bitsOf (nodeWord n 0) 10 0
def selWidth (n : List Byte) : Nat := bitsOf (nodeWord n 0) 15 11 + 1
def defaultNext (n : List Byte) : Nat := bitsOf (nodeWord n 0) 25 17
def layerMark (n : List Byte) : Nat := bitsOf (nodeWord n 0) 28 26
def fragMode (n : List Byte) : Nat := bitsOf (nodeWord n 0) 30 29
def flagSet (n : List Byte) : Nat := bitsOf (nodeWord n 0) 39 32
def selMask (n : List Byte) : Nat := bitsOf (nodeWord n 1) 31 0
def advMode (n : List Byte) : Nat := bitsOf (nodeWord n 1) 33 32
def advConst (n : List Byte) : Nat := bitsOf (nodeWord n 1) 42 34
def advOffset (n : List Byte) : Nat := bitsOf (nodeWord n 1) 53 43
def advWidth (n : List Byte) : Nat := bitsOf (nodeWord n 1) 57 54 + 1
def advScale (n : List Byte) : Nat := 2 ^ bitsOf (nodeWord n 1) 59 58

/-- Match entries: VALUE and NEXT of the valid ones, in order. -/
def matchEntries (n : List Byte) : List (Nat × Nat) :=
  (List.range 16).filterMap fun i => let w := nodeWord n (2 + i); if bitOf w 41 then some (bitsOf w 31 0, bitsOf w 40 32) else none

/-- Command `i` of the eight extraction commands, 32 bits. -/
def extraction (n : List Byte) (i : Nat) : Nat := nodeWord n (18 + i / 2) / 2 ^ (32 * (i % 2)) % 2 ^ 32

/-- The valid extraction commands in order: SRC, length and DST. -/
def extractions (n : List Byte) : List (Nat × Nat × Nat) :=
  (List.range 8).filterMap fun i => let c := extraction n i; if bitOf c 19 then some (bitsOf c 7 0, bitsOf c 11 8 + 1, bitsOf c 18 12) else none

/-- The four checks: index, KIND, OFFSET, width, scale, LO and HI. -/
structure CheckField where
  index : Nat
  kind : Nat
  off : Nat
  width : Nat
  scale : Nat
  lo : Nat
  hi : Nat

def checkField (n : List Byte) (k : Nat) : CheckField :=
  let w := nodeWord n (22 + k)
  { index := k, kind := bitsOf w 3 0, off := bitsOf w 14 4, width := bitsOf w 18 15 + 1, scale := 2 ^ bitsOf w 20 19, lo := bitsOf w 36 21, hi := bitsOf w 52 37 }

def checkFields (n : List Byte) : List CheckField := (List.range 4).map (checkField n)

-- Graph images (R133, R134) ---------------------------------------------------------------------------------------------------

/-- A next-node code that names a node below the count, MALFORMED or ACCEPT. -/
def codeOk (count code : Nat) : Bool := decide (code < count) || code == 0x1FE || code == 0x1FF

/-- The first error of a list of tests in order: a test that holds is an error with its code. -/
def firstError : List (Bool × Nat) → Option Nat
  | [] => none
  | (bad, e) :: t => if bad then some e else firstError t

/-- An extraction command in error: its length, then its DST, then its reserved bits, from bit 0 upward. -/
def commandError (c : Nat) : List (Bool × Nat) :=
  [(bitOf c 19 && (!within (bitsOf c 18 12) 12 95 || decide (96 < bitsOf c 18 12 + bitsOf c 11 8 + 1)), 6), (bitsOf c 31 20 != 0, 7)]

/-- The first error of a node image, words in order and fields from bit 0 upward (R134). -/
def nodeError (count : Nat) (n : List Byte) : Option Nat :=
  let w0 := nodeWord n 0
  let w1 := nodeWord n 1
  firstError ([(!codeOk count (defaultNext n), 5), (decide (4 < layerMark n), 9), (fragMode n == 3, 9), (bitOf w0 31, 7), (bitsOf w0 63 40 != 0, 7),
      (decide (1 < advMode n), 9), (decide (256 < advConst n), 10), (bitsOf w1 63 60 != 0, 7)]
    ++ (List.range 16).flatMap (fun i =>
      let w := nodeWord n (2 + i)
      [(bitsOf w 31 0 &&& (selMask n ^^^ 0xFFFFFFFF) != 0, 8), (!codeOk count (bitsOf w 40 32), 5), (bitsOf w 63 42 != 0, 7)])
    ++ (List.range 8).flatMap (fun i => commandError (extraction n i))
    ++ (List.range 4).flatMap (fun k =>
      let w := nodeWord n (22 + k)
      [(decide (4 < bitsOf w 3 0), 9), (bitsOf w 3 0 != 1 && bitsOf w 52 37 != 0, 7), (bitsOf w 63 53 != 0, 7)])
    ++ (List.range 6).map (fun i => (nodeWord n (26 + i) != 0, 7)))

def graphNode (b : List Byte) (i : Nat) : List Byte := slice b (64 + 256 * i) 256

/-- The first node in error from node `i` on, of `k` nodes. -/
def nodesError (b : List Byte) (count : Nat) : Nat → Nat → Option (Nat × Nat)
  | _, 0 => none
  | i, k + 1 => match nodeError count (graphNode b i) with
    | some e => some (e, i)
    | none => nodesError b count (i + 1) k

/-- ERR_CODE and ERR_NODE of an image of LENGTH bytes, none where it is valid (R134). -/
def imageError (addr len : Nat) (b : List Byte) : Option (Nat × Nat) :=
  let count := u16 b 6
  match firstError [(addr % 64 != 0, 11), (!within len 64 65600, 2), (u32 b 0 != 0x4E5A4731 || u16 b 4 != 1, 1),
      (!within count 1 256 || decide (count ≤ u8 b 8), 4), (len != 64 + 256 * count, 2), (!zerosAt b 9 3 || !zerosAt b 48 16, 7),
      (crc32 ((padTo len b).drop 64) != u32 b 12, 3)] with
  | some e => some (e, 0xFF)
  | none => nodesError b count 0 count

/-- The graph of a valid image. -/
def graphOf (b : List Byte) : Graph :=
  { root := u8 b 8, crc := u32 b 12, label := slice b 16 32, nodes := (List.range (u16 b 6)).map (graphNode b) }

-- The walk (R118 to R132) ---------------------------------------------------------------------------------------------------------

/-- A walk in progress, and what R129 needs of it: the bytes and layer marks written from the first node that set layer mark 1
on, and the flags from before it. -/
structure Walk where
  h : Nat := 0
  node : Nat := 0
  count : Nat := 0
  fv : List Byte := List.replicate 96 0
  flags : Nat := 0
  layers : List (Nat × Nat) := []
  pending : List (Nat × Nat × Nat × Nat) := []
  frag : Bool := false
  /-- failing check, deferred, node -/
  fail : Option (Nat × Nat) := none
  /-- outcome once the walk has ended: 0 ACCEPT, 1 EXHAUSTED, 2 MALFORMED, 3 TRUNCATED -/
  outcome : Option Nat := none
  /-- a node has set layer mark 1: flags before it, layer marks before it -/
  first1 : Option (Nat × List (Nat × Nat)) := none
  /-- Field Vector bytes written, and layer marks recorded, by that node or a later one -/
  written : List Nat := []
  marked : List Nat := []

/-- The advance of a node at `h` (R119 step 7). -/
def advanceOf (b n : List Byte) (h : Nat) : Nat :=
  if advMode n = 1 then fieldAt b h (advOffset n) (advWidth n) * advScale n + advConst n else advConst n

/-- Whether a node's fragment mode sets FRAG (R132). -/
def setsFrag (b n : List Byte) (h : Nat) : Bool :=
  (fragMode n == 1 && beAt b (h + 6) 2 % 0x4000 != 0) || fragMode n == 2

/-- The extraction commands a node runs: with FRAG, those within its advance (R132). -/
def runs (b n : List Byte) (h : Nat) : List (Nat × Nat × Nat) :=
  if setsFrag b n h then (extractions n).filter fun (src, len, _) => decide (src + len ≤ advanceOf b n h) else extractions n

/-- The end of the last byte a node references (R119 step 1); 0 where it references none. -/
def refEnd (b n : List Byte) (h : Nat) : Nat :=
  let ends := (if selEn n then [fieldEnd h (selOffset n) (selWidth n)] else [])
    ++ (if advMode n = 1 then [fieldEnd h (advOffset n) (advWidth n)] else [])
    ++ (checkFields n).filterMap (fun c =>
      if within c.kind 1 3 then some (fieldEnd h c.off c.width)
      else if c.kind = 4 && advanceOf b n h != 0 then some (h + advanceOf b n h) else none)
    ++ (if fragMode n = 1 then [h + 8] else [])
    ++ (runs b n h).map (fun (src, len, _) => h + src + len)
  ends.foldl max 0

/-- Ones' complement sum of 16-bit words over `len` bytes (R125). DESIGN CHOICE (log 69): the last byte of an odd number is the high byte of
a word whose low byte is 0. -/
def csum (b : List Byte) (o len : Nat) : Nat :=
  let s := (List.range ((len + 1) / 2)).foldl (fun a i => a + (if 2 * i + 1 < len then beAt b (o + 2 * i) 2 else beAt b (o + 2 * i) 1 * 256)) 0
  let fold := fun (x : Nat) => x % 65536 + x / 65536
  fold (fold s)

/-- One check at a node: passes, or fails, or is deferred with the length it states (R122, R125). -/
inductive Verdict where
  | pass
  | fail
  | defer (need : Nat)

def judge (b n : List Byte) (h : Nat) (ended : Bool) (c : CheckField) : Verdict :=
  let f := fieldAt b h c.off c.width
  let ok := fun (x : Bool) => if x then Verdict.pass else Verdict.fail
  match c.kind with
  | 1 => ok (within f c.lo c.hi)
  | 2 => ok (decide (advanceOf b n h ≤ f * c.scale + c.lo))
  | 3 => if ended then ok (decide (f * c.scale + c.lo + h ≤ b.length)) else .defer (f * c.scale + c.lo)
  | 4 => ok (csum b h (advanceOf b n h) == 0xFFFF)
  | _ => .pass

/-- Checks in index order: none, with the checks deferred, or the first that fails; a ninth pending check of a walk fails
(R119 step 2, R122). -/
def runChecks (b n : List Byte) (h node pend : Nat) (ended : Bool) : List CheckField → List (Nat × Nat × Nat × Nat) → Option Nat × List (Nat × Nat × Nat × Nat)
  | [], acc => (none, acc)
  | c :: t, acc => match judge b n h ended c with
    | .pass => runChecks b n h node pend ended t acc
    | .fail => (some c.index, acc)
    | .defer need =>
      if pend + acc.length ≥ 8 then (some c.index, acc) else runChecks b n h node pend ended t (acc ++ [(node, c.index, h, need)])

/-- A node's contributions (R119 step 4). -/
def extract (b n : List Byte) (w : Walk) : Walk :=
  let cs := runs b n w.h
  let fv := cs.foldl (fun fv (src, len, dst) => overwrite fv dst (slice b (w.h + src) len)) w.fv
  let mark := layerMark n
  let marks := mark != 0 && decide (w.h < 256)
  let first1 := if w.first1.isNone && mark = 1 && marks then some (w.flags, w.layers) else w.first1
  let written := if first1.isSome then w.written ++ cs.flatMap (fun (_, len, dst) => (List.range len).map (dst + ·)) else w.written
  { w with fv, flags := w.flags ||| flagSet n, first1, written, marked := if first1.isSome && marks then mark :: w.marked else w.marked, frag := w.frag || setsFrag b n w.h,
           layers := if marks then (w.layers.filter (fun e => e.1 != mark)) ++ [(mark, w.h)] else w.layers }

/-- One node (R119); `ended`: the frame has ended before the cycle of this node's checks. -/
def walkNode (b n : List Byte) (ended : Bool) (w : Walk) : Walk :=
  let w := { w with count := w.count + 1 }
  let e := refEnd b n w.h
  if e > b.length then { w with outcome := some 3 }
  else if e > 256 then { w with outcome := some 1 }
  else
    match runChecks b n w.h w.node w.pending.length ended (checkFields n) [] with
    | (some k, _) => { w with outcome := some 2, fail := some (k, w.node) }
    | (none, ps) =>
      let w := extract b n { w with pending := w.pending ++ ps }
      if setsFrag b n w.h then { w with outcome := some 0 }
      else
        let v := fieldAt b w.h (selOffset n) (selWidth n) &&& selMask n
        let code := if selEn n then (((matchEntries n).find? fun e => e.1 == v).map (·.2)).getD (defaultNext n) else defaultNext n
        if code = 0x1FF then { w with outcome := some 0 }
        else if code = 0x1FE then { w with outcome := some 2 }
        else if w.count ≥ 24 then { w with outcome := some 1 }
        else
          let h := w.h + advanceOf b n w.h
          if h > 256 then { w with outcome := some 1 } else { w with h, node := code }

/-- A walk of at most `k` more nodes; `early`: nodes whose checks ran before the frame had ended. -/
def walkFrom (g : Graph) (b : List Byte) (early : Nat) : Nat → Walk → Walk
  | 0, w => w
  | k + 1, w =>
    match w.outcome with
    | some _ => w
    | none => walkFrom g b early k (walkNode b (g.nodes.getD w.node []) (decide (early ≤ w.count)) w)

/-- The walk of a frame; a generation without a graph enters no node and accepts (R119). -/
def walk (g : Option Graph) (b : List Byte) (early : Nat) : Walk :=
  match g with
  | none => { outcome := some 0 }
  | some g => walkFrom g b early 24 { node := g.root }

-- The Field Vector (R126, R129) ------------------------------------------------------------------------------------------------------

/-- Byte 10 and the layer marks' bytes 6 to 9. -/
def layerBytes (ls : List (Nat × Nat)) : List Byte :=
  (List.range 4).map fun k => BitVec.ofNat 8 (((ls.find? fun e => e.1 == k + 1).map (·.2)).getD 0)

def layerValid (ls : List (Nat × Nat)) : Nat :=
  (List.range 4).foldl (fun a k => a + (if ls.any (fun e => e.1 == k + 1) then 2 ^ k else 0)) 0

/-- The Field Vector of a walk that has ended (R126). -/
def fieldVector (w : Walk) (port gen : Nat) : List Byte :=
  let o := w.outcome.getD 0
  let f := w.fail
  [BitVec.ofNat 8 (b2n (o = 1) + 2 * b2n w.frag + 4 * b2n (o = 2) + 8 * b2n (o = 3) + 16 * b2n (!w.pending.isEmpty)),
   BitVec.ofNat 8 w.flags, BitVec.ofNat 8 w.count, BitVec.ofNat 8 (if w.count = 0 then 0 else w.node)]
    ++ be 2 (port + 32768 * gen) ++ layerBytes w.layers
    ++ [BitVec.ofNat 8 (layerValid w.layers + 16 * ((f.map (·.1)).getD 0) + 128 * b2n f.isSome), BitVec.ofNat 8 ((f.map (·.2)).getD 0)]
    ++ w.fv.drop 12

/-- The Field Vector that L2_ONLY derives from a walk (R129). -/
def l2Vector (w : Walk) (port gen : Nat) : List Byte :=
  match w.first1 with
  | none => fieldVector w port gen
  | some (flags, layers) =>
    let fv := (w.fv.zipIdx).map fun (x, i) => if w.written.contains i then 0#8 else x
    fieldVector { w with fv, flags, layers := layers.filter fun e => !w.marked.contains e.1 } port gen

/-- A deferred check that fails at end of frame marks the Field Vector; the outcome is then MALFORMED alone (R123, R127). -/
def deferredFail (fv : List Byte) (node check : Nat) : List Byte :=
  overwrite (overwrite fv 0 [BitVec.ofNat 8 ((byteAt fv 0 &&& 0xFE) ||| 4)]) 10
    [BitVec.ofNat 8 (byteAt fv 10 % 16 + 16 * check + 64 + 128), BitVec.ofNat 8 node]

/-- The first pending check that the frame's length fails, in node order (R122). -/
def lateCheck (b : List Byte) (ps : List (Nat × Nat × Nat × Nat)) : Option (Nat × Nat) :=
  (ps.find? fun (_, _, h, need) => decide (b.length < h + need)).map fun (n, k, _, _) => (n, k)

end Sys2Proof.Machine
end

