-- ==== Sys2Proof/Machine/Words.lean ====
section
/-!
DEFINITION. The words in which the tables are stored (06_tables.md): exact-match entries of 64-bit words under even parity, and the
LPM's node store with its tries, copied on write.
-/

namespace Sys2Proof.Machine

-- Words under parity (R146, R170) ------------------------------------------------------------------------------------------------

/-- The number of ones among the low bits of a number is odd. -/
def oddOnes (width n : Nat) : Bool := ((List.range width).filter fun k => bitOf n k).length % 2 == 1

/-- A stored word: 63 bits under even parity. -/
def parityWord (n : Nat) : Nat := n % 2 ^ 63 + 2 ^ 63 * b2n (oddOnes 63 n)

/-- A word passes its parity. -/
def wordGood (w : Nat) : Bool := parityWord w == w

-- The words of an exact-match entry (R146) ------------------------------------------------------------------------------------------

/-- The control bits of an entry: VALID, GEN_A, GEN_B, LEARNED, PINNED and AGE. -/
def emControl (x : EmDef) (e : Em) : Nat :=
  1 + 2 * b2n e.genA + 4 * b2n e.genB + 8 * b2n (x.kind == 2) + 16 * b2n e.pinned + 32 * (e.age % 256)

/-- The 64-bit words in which an entry is stored: three of a narrow one, twelve of a wide one. -/
def emWords (x : EmDef) (e : Em) : List Nat :=
  let key := beNat e.key
  let result := e.result % if x.kind = 2 then 512 else 2 ^ 20
  (if x.wide then (List.range 7).map (fun w => key / 2 ^ (63 * w)) ++ [2 ^ 33 * emControl x e, result, 0, 0, 0]
    else [key, key / 2 ^ 63 % 2 ^ 33 + 2 ^ 33 * emControl x e, result]).map parityWord

/-- The control bits among an entry's words. -/
def controlOf (x : EmDef) (ws : List Nat) : Nat := ws.getD (if x.wide then 7 else 1) 0 / 2 ^ 33

/-- A slot fails parity: on any word, or by a LEARNED bit in use that is not the table's kind (R146, R156). -/
def wordsFail (x : EmDef) (ws : List Nat) : Bool :=
  !ws.all wordGood || (bitOf (controlOf x ws) 0 && bitOf (controlOf x ws) 3 != (x.kind == 2))

/-- An entry read back from its words: none where the slot is not in use, or fails parity. -/
def emOfWords (x : EmDef) (ws : List Nat) : Option Em :=
  let c := controlOf x ws
  let low := fun (k : Nat) => ws.getD k 0 % 2 ^ 63
  let key := if x.wide then (List.range 7).foldl (fun a w => a + low w * 2 ^ (63 * w)) 0 else low 0 + low 1 % 2 ^ 33 * 2 ^ 63
  if bitOf c 0 && !wordsFail x ws then
    some { key := be x.keyBytes key, genA := bitOf c 1, genB := bitOf c 2, result := low (if x.wide then 8 else 2), pinned := bitOf c 4,
           age := bitsOf c 12 5 }
  else none

/-- A table's entries read from its slots. -/
def emsOf (x : EmDef) (ws : Tbl (Option (List Nat))) : Tbl (Option Em) :=
  ws.filterMap fun (p, w) => (w.bind (emOfWords x)).map fun e => (p, some e)

/-- A table's slots after its entries have been written: a slot that fails parity stays where nothing is written over it. -/
def slotsOf (x : EmDef) (old : Tbl (Option (List Nat))) (es : Tbl (Option Em)) : Tbl (Option (List Nat)) :=
  (old.filter fun (_, w) => wordsFail x (w.getD [])).foldl (fun m (p, w) => if (tget none m p).isSome then m else tput none p w m)
    (es.map fun (p, e) => (p, e.map (emWords x)))

-- Table words that the Steward wrote by address (R374, log 22) ------------------------------------------------------------------------

/-- The key under which a table word stands: Basin, space and address (log 22). -/
def rawKey (basin space addr : Nat) : Nat := (addr * 16 + space) * 8 + basin

/-- A table word of a Basin: the one that TWR wrote there since its entry was written, else the stored one. -/
def rawOr (d : Dev) (basin space addr stored : Nat) : Nat :=
  match tget none d.steward.rawWords (rawKey basin space addr) with | some w => w.toNat | none => stored

/-- The Basin of a key, and the entry address (R504) of the word under it; spaces of no table give an address of no entry. -/
def rawEntry (key : Nat) : Nat × Nat :=
  let addr := key / 128
  (key % 8, match key / 8 % 16 with
    | 0 => addr % 2 ^ 28
    | 2 => 2 * 2 ^ 38 + addr % 2 ^ 15
    | 3 => 3 * 2 ^ 38 + addr % 2 ^ 18
    | _ => 2 ^ 40)

-- The LPM's node store (R151 to R153; log 112) -------------------------------------------------------------------------------------------

/-- A node word under its parity bit. -/
def trieWord (internal children : List Nat) (childArray leafArray : Nat) : LpmWord :=
  .node internal children childArray leafArray
    (xor ((internal.length + children.length) % 2 == 1) (xor (oddOnes 24 childArray) (oddOnes 24 leafArray)))

/-- A leaf word under its parity bit. -/
def leafWord (action : Nat) : LpmWord := .leaf action (oddOnes 20 action)

/-- A word of the store passes its parity. -/
def lpmGood (w : LpmWord) : Bool :=
  match w with
  | .node i c a l _ => trieWord i c a l == w
  | .leaf a _ => leafWord a == w

/-- The word at an address of the store. -/
def lpmWord (st : List LpmArr) (a : Nat) : Option LpmWord := st.findSome? fun r => if r.base ≤ a then r.words[a - r.base]? else none

/-- The levels of a family's trie: where each begins and its stride; 16, 8 and 8 bits, or 16 and then 8 bits to bit 128. -/
def strides (family : Nat) : List (Nat × Nat) := (0, 16) :: (List.range (if family = 1 then 2 else 14)).map fun k => (16 + 8 * k, 8)

/-- Bits of an address that is left-aligned in 128 bits. -/
def addrBits (addr first n : Nat) : Nat := addr / 2 ^ (128 - first - n) % 2 ^ n

/-- The place of a prefix within its node: its bits there under a leading one. -/
def innerAt (addr first n : Nat) : Nat := 2 ^ n + addrBits addr first n

/-- How many of a bitmap's ones lie below a position: where its item stands in the packed array. -/
def rank (bits : List Nat) (pos : Nat) : Nat := (bits.filter (· < pos)).length

/-- A lookup from a node on: the addresses it reads, and its leaf; `leaf` is the longest match so far (R151). -/
def lpmWalk (st : List LpmArr) (addr : Nat) : List (Nat × Nat) → Nat → Option Nat → List Nat × Option Nat
  | [], _, leaf => ([], leaf)
  | (b, n) :: rest, at_, leaf =>
    match lpmWord st at_ with
    | some (.node internal children childArray leafArray _) =>
      let best := (List.range (n + 1)).reverse.find? fun k => internal.contains (innerAt addr b k)
      let leaf := (best.map fun k => leafArray + rank internal (innerAt addr b k)) <|> leaf
      let k := addrBits addr b n
      if children.contains k then
        let r := lpmWalk st addr rest (childArray + rank children k) leaf
        (at_ :: r.1, r.2)
      else ([at_], leaf)
    | _ => ([at_], leaf)

/-- Families and VRFs as the root stride resolves them. -/
def rootKey (family vrf : Nat) : Nat := family * 4096 + vrf

/-- A lookup from a generation's root: the addresses it reads, and the action index of the longest match (R151). -/
def lpmLookup (st : List LpmArr) (x : Gen) (family vrf addr : Nat) : List Nat × Option Nat :=
  match tget none x.roots (rootKey family vrf) with
  | none => ([], none)
  | some root =>
    let r := lpmWalk st addr (strides family) root none
    (r.1 ++ r.2.toList, r.2.bind fun a => match lpmWord st a with | some (.leaf i _) => some i | _ => none)

/-- A node's arrays and those below it, by base. -/
def trieArrays (st : List LpmArr) : List (Nat × Nat) → LpmWord → List Nat
  | _ :: rest, .node internal children childArray leafArray _ =>
    (if internal.isEmpty then [] else [leafArray]) ++ (if children.isEmpty then [] else [childArray])
      ++ ((List.range children.length).filterMap fun k => lpmWord st (childArray + k)).flatMap fun w => trieArrays st rest w
  | _, _ => []

/-- The arrays under a root, that of the root node itself first. -/
def rootArrays (st : List LpmArr) (key : Nat) (root : Option Nat) : List Nat :=
  match root with
  | some b => b :: (match lpmWord st b with | some w => trieArrays st (strides (key / 4096)) w | none => [])
  | none => []

/-- The lowest free place for an array. -/
def freePlace (st : List LpmArr) (n : Nat) : Nat :=
  let fits := fun (b : Nat) => st.all fun r => decide (r.base + r.words.length ≤ b) || decide (b + n ≤ r.base)
  (((0 :: st.map fun r => r.base + r.words.length).filter fits).min?).getD 0

/-- An array of words: one of the arrays `olds` where it holds them already, else written into free node memory (R152). -/
def placeArray (olds : List Nat) (ws : List LpmWord) (st : List LpmArr) : Nat × List LpmArr :=
  if ws.isEmpty then (0, st)
  else
    match olds.find? fun b => st.any fun r => r.base == b && r.words == ws && r.freed.isNone with
    | some b => (b, st)
    | none => let b := freePlace st ws.length; (b, st ++ [{ base := b, words := ws }])

/-- The child of a node that serves some bits. -/
def childOf (st : List LpmArr) (k : Nat) : LpmWord → Option LpmWord
  | .node _ children childArray _ _ => if children.contains k then lpmWord st (childArray + rank children k) else none
  | .leaf _ _ => none

def leafArrayOf : LpmWord → List Nat
  | .node _ _ _ l _ => [l]
  | .leaf _ _ => []
def childArrayOf : LpmWord → List Nat
  | .node _ _ c _ _ => [c]
  | .leaf _ _ => []

/-- The node for some prefixes (address, length, action index), its new arrays written to the store; `olds` are the nodes that stood
in its place, whose unchanged arrays are shared (R152). -/
def trieNode : List (Nat × Nat) → List LpmWord → List (Nat × Nat × Nat) → List LpmArr → LpmWord × List LpmArr
  | [], _, _, st => (trieWord [] [] 0 0, st)
  | (b, n) :: rest, olds, ps, st =>
    let here := sortBy (fun p => innerAt p.1 b (p.2.1 - b)) (ps.filter fun p => decide (p.2.1 ≤ b + n))
    let below := ps.filter fun p => decide (b + n < p.2.1)
    let kids := sortBy id ((below.map fun p => addrBits p.1 b n).eraseDups)
    let (leaves, st) := placeArray (olds.flatMap leafArrayOf) (here.map fun p => leafWord p.2.2) st
    let (words, st) := kids.foldl (fun (acc : List LpmWord × List LpmArr) k =>
      let r := trieNode rest (olds.filterMap (childOf acc.2 k)) (below.filter fun p => addrBits p.1 b n == k) acc.2
      (acc.1 ++ [r.1], r.2)) ([], st)
    let (children, st) := placeArray (olds.flatMap childArrayOf) words st
    (trieWord (here.map fun p => innerAt p.1 b (p.2.1 - b)) kids children leaves, st)

/-- A generation's prefixes of a family and VRF: address, length and action index. -/
def prefixesOf (x : Gen) (key : Nat) : List (Nat × Nat × Nat) :=
  x.lpm.filterMap fun (k, r) => if k / 2 ^ 136 = key then r.map fun r => (k / 256 % 2 ^ 128, k % 256, r) else none

/-- A generation's trie of a family and VRF as its prefixes now ask: its root and the store. -/
def growTrie (key : Nat) (x : Gen) (olds : List Nat) (st : List LpmArr) : Option Nat × List LpmArr :=
  if (prefixesOf x key).isEmpty then (none, st)
  else
    let (w, st) := trieNode (strides (key / 4096)) (olds.filterMap (lpmWord st)) (prefixesOf x key) st
    let (b, st) := placeArray olds [w] st
    (some b, st)

/-- The store after a change of some tries: arrays of the roots `old` that none of the roots `now` leads to are on their way back to the
free list from this instant on (R152). -/
def retire (clock key : Nat) (old now : List (Option Nat)) (st : List LpmArr) : List LpmArr :=
  let live := now.flatMap (rootArrays st key)
  let gone := (old.flatMap (rootArrays st key)).filter fun b => !live.contains b
  st.map fun r => if gone.contains r.base && r.freed.isNone then { r with freed := some clock } else r

/-- The store without the arrays that are back on the free list: 64 Basin cycles after their switch (854 ticks, rounded up). -/
def reclaim (clock : Nat) (st : List LpmArr) : List LpmArr :=
  st.filter fun r => match r.freed with | some a => decide (clock < a + 854) | none => true

/-- Both generations' tries of a family and VRF are made to follow their prefixes, copied on write (R152). -/
def relink (key : Nat) (d : Dev) : Dev :=
  let t := d.tables
  let old := [tget none t.genA.roots key, tget none t.genB.roots key]
  let olds := old.flatMap Option.toList
  let (a, st) := growTrie key t.genA olds (reclaim d.clock t.lpm)
  let (b, st) := growTrie key t.genB (olds ++ a.toList) st
  { d with tables := { t with lpm := retire d.clock key old [a, b] st, genA := { t.genA with roots := tput none key a t.genA.roots },
                              genB := { t.genB with roots := tput none key b t.genB.roots } } }

/-- A generation whose tries are not yet grown. -/
def unrooted (x : Gen) : Gen := { x with roots := [] }

/-- Every trie is grown anew in an empty store. -/
def regrow (d : Dev) : Dev :=
  let t := d.tables
  let keys := ((t.genA.lpm ++ t.genB.lpm).map fun e => e.1 / 2 ^ 136).eraseDups
  keys.foldl (fun d k => relink k d) { d with tables := { t with lpm := [], genA := unrooted t.genA, genB := unrooted t.genB } }

/-- The node store's room holds every array (R152). -/
def lpmFits (st : List LpmArr) : Bool := st.all fun r => decide (r.base + r.words.length ≤ Config.lpmRoom.toNat)

end Sys2Proof.Machine
end

