-- ==== Sys2Proof/Machine/Lookup.lean ====
section
/-!
DEFINITION. Lookups (06_tables.md): exact match, longest-prefix match, the rule TCAM and their merge into one action, in the
frame's generation and in its Basin.
-/

namespace Sys2Proof.Machine

-- What the tables hold ---------------------------------------------------------------------------------------------------

def genOf (d : Dev) (g : Nat) : Gen := if g = 0 then d.tables.genA else d.tables.genB
def setGen (g : Nat) (x : Gen) (d : Dev) : Dev :=
  if g = 0 then { d with tables := { d.tables with genA := x } } else { d with tables := { d.tables with genB := x } }

def tableDef (d : Dev) (t : Nat) : EmDef := tget {} d.tables.defs t
def basinState (d : Dev) (b : Nat) : Basin := tget {} d.tables.basins b
def setBasin (b : Nat) (x : Basin) (d : Dev) : Dev := { d with tables := { d.tables with basins := tput {} b x d.tables.basins } }

/-- A profile's content after a cold reset (R140). -/
def coldProfile : List Byte :=
  [0xFF, 0xFF, 0xFF, 0xFF] ++ List.replicate 16 0 ++ [0x0F] ++ List.replicate 11 0

/-- An action entry after a cold reset: DROP, TRAILER_MODE 1 (R169), under its parity (R170). -/
def coldAction : List Nat := [3 + 2 ^ 50, 0, 0, 0].map parityWord

def profileOf (x : Gen) (n : Nat) : List Byte := (tget none x.profiles n).getD coldProfile
def actionOf (x : Gen) (n : Nat) : List Nat := (tget none x.actions n).getD coldAction
def rewriteOf (x : Gen) (n : Nat) : List Byte := (tget none x.rewrites n).getD (List.replicate 128 0)

/-- Slots of a table as a Basin holds them: a learned table's are its own (R143). -/
def slotTable (d : Dev) (basin t : Nat) : Tbl (Option (List Nat)) :=
  if (tableDef d t).kind = 2 then tget [] (basinState d basin).em t else tget [] d.tables.em t

/-- The entries of a programmed table. -/
def programmedOf (d : Dev) (t : Nat) : Tbl (Option Em) := emsOf (tableDef d t) (tget [] d.tables.em t)

/-- The entries of a learned table in one Basin. -/
def learnedOf (d : Dev) (basin t : Nat) : Tbl (Option Em) := emsOf (tableDef d t) (tget [] (basinState d basin).em t)

-- Parity (R153, R155, R156, R172, R504) --------------------------------------------------------------------------------------

/-- Addresses of table fault messages (R504), with word or segment 0. -/
def emAddr (t place : Nat) : Nat := t * 2 ^ 24 + place
def lpmAddr (word : Nat) : Nat := 2 ^ 38 + word
def tcamAddr (gen index : Nat) : Nat := 2 * 2 ^ 38 + gen * 2 ^ 14 + index
def actionAddr (rewrite : Bool) (gen index : Nat) : Nat := 3 * 2 ^ 38 + b2n rewrite * 2 ^ 17 + gen * 2 ^ 16 + index

/-- An address without the number of the failing word or segment. -/
def entryAddr (addr : Nat) : Nat :=
  match addr / 2 ^ 38 with
  | 0 => addr % 2 ^ 28
  | 2 => addr - addr % 2 ^ 21 + addr % 2 ^ 15
  | _ => addr

/-- A slot's words as a Basin reads them (R146, R374). -/
def slotWords (d : Dev) (basin t place : Nat) : List Nat :=
  let ws := (tget none (slotTable d basin t) place).getD (List.replicate (if (tableDef d t).wide then 12 else 3) 0)
  (ws.zipIdx).map fun (w, k) => rawOr d basin 0 (k * 2 ^ 32 + emAddr t place) w

/-- The words of an action entry as a Basin reads them (R170, R374). -/
def actionIn (d : Dev) (basin gen n : Nat) : List Nat :=
  ((actionOf (genOf d gen) n).zipIdx).map fun (w, k) => rawOr d basin 3 (k * 2 ^ 32 + gen * 2 ^ 16 + n) w

/-- A rewrite data entry as a Basin reads it (R182, R374). -/
def rewriteIn (d : Dev) (basin gen n : Nat) : List Byte :=
  (List.range 16).flatMap fun k => le 8 (rawOr d basin 3 (k * 2 ^ 32 + 2 ^ 17 + gen * 2 ^ 16 + n) (leAt (rewriteOf (genOf d gen) n) (8 * k) 8))

/-- A TCAM entry as a Basin reads it: the segments of its key, then of its mask, then its result (R504, R374). -/
def tcamIn (d : Dev) (basin gen n : Nat) (e : Tcam) : Tcam :=
  let seg := fun (k stored : Nat) => rawOr d basin 2 (gen * 2 ^ 14 + n + k * 2 ^ 15) stored
  let m := e.key.length / 8
  { e with
    key := (List.range m).flatMap fun k => be 8 (seg k (beNat (slice e.key (8 * k) 8)))
    mask := (List.range m).flatMap fun k => be 8 (seg (m + k) (beNat (slice e.mask (8 * k) 8)))
    result := seg (2 * m) e.result % 2 ^ 20 }

/-- A Basin's copy of an entry cannot be used: reported, and not yet rewritten by Helm, which rewrites it 1 ms after the report
while it is READY (R504, log 14). -/
def badNow (d : Dev) (basin addr : Nat) : Bool :=
  d.tables.bad.any fun e => !e.suspect && e.basin == basin && e.addr == addr && (decide (d.clock < e.at_ + 16000000) || d.helm.state != 1)

-- Exact match (R142 to R145) ---------------------------------------------------------------------------------------------------

/-- Segments as pairs of Field Vector byte and length; length 0 ends the list (R165). -/
def segmentsOf (b : List Byte) : List (Nat × Nat) :=
  ((List.range (b.length / 2)).map fun k => (u8 b (2 * k), u8 b (2 * k + 1))).takeWhile fun e => e.2 != 0

/-- The bytes that segments pick from a Field Vector, padded to a length (R144). -/
def keyFrom (segs : List Byte) (len : Nat) (fv : List Byte) : List Byte :=
  padTo len ((segmentsOf segs).flatMap fun (o, n) => slice fv o n)

/-- Buckets of a table (R142). -/
def bucketCount (x : EmDef) : Nat := x.count * (if x.wide then 256 else 1024)

/-- The two candidate buckets of a key (R144). -/
def bucket0 (x : EmDef) (key : List Byte) : Nat := (crcRun polyCast x.seed0 key ^^^ 0xFFFFFFFF) * bucketCount x / 2 ^ 32
def bucket1 (x : EmDef) (key : List Byte) : Nat := (crcRun polyIeee x.seed1 key ^^^ 0xFFFFFFFF) * bucketCount x / 2 ^ 32

/-- Places of a bucket, and of the stash (R145, R504). -/
def bucketPlaces (b : Nat) : List Nat := (List.range 4).map (4 * b + ·)
def stashPlaces : List Nat := (List.range 8).map (2 ^ 23 + ·)

/-- A key's candidate places in the order of R145: b0, b1, stash. -/
def placesOf (x : EmDef) (key : List Byte) : List Nat := (bucketPlaces (bucket0 x key) ++ bucketPlaces (bucket1 x key)).eraseDups ++ stashPlaces

def visible (kind gen : Nat) (e : Em) : Bool := kind == 2 || (if gen = 0 then e.genA else e.genB)

/-- The place and entry that a lookup of a key finds (R145, R156). -/
def emFind (d : Dev) (basin gen t : Nat) (key : List Byte) : Option (Nat × Em) :=
  let x := tableDef d t
  (placesOf x key).findSome? fun p =>
    match emOfWords x (slotWords d basin t p) with
    | some e => if e.key = key && visible x.kind gen e && !badNow d basin (emAddr t p) then some (p, e) else none
    | none => none

-- Longest-prefix match (R151) ------------------------------------------------------------------------------------------------------

/-- A prefix's key: family, VRF, the address left-aligned in 128 bits, and the length, in the order of R164. -/
def lpmKey (family vrf addr len : Nat) : Nat := ((family * 4096 + vrf) * 2 ^ 128 + addr) * 256 + len

/-- An address left-aligned in 128 bits and cut to a prefix length. -/
def cutAddr (addr len : Nat) : Nat := addr / 2 ^ (128 - len) * 2 ^ (128 - len)

/-- What a profile's LPM lookup reads, and the action index of the longest match (R140, R151). -/
def lpmRead (d : Dev) (gen : Nat) (prof fv : List Byte) : List Nat × Option Nat :=
  let family := u8 prof 4
  let vrf := if u8 prof 6 = 0xFF then u16 prof 8 else beAt fv (u8 prof 6) 2 % 4096
  let o := u8 prof 5
  let find := lpmLookup d.tables.lpm (genOf d gen)
  if family = 1 then find 1 vrf (beAt fv o 4 * 2 ^ 96)
  else if family = 2 then find 2 vrf (beAt fv o 16)
  else ([], none)

/-- A word of the store that fails parity in a Basin, or has failed there and is not yet rewritten (R153, R504). -/
def lpmFails (d : Dev) (basin a : Nat) : Bool := badNow d basin (lpmAddr a) || !(lpmWord d.tables.lpm a).all lpmGood

/-- The action index that a profile's LPM lookup finds in a Basin: a failure on any word that it reads is a miss (R153). -/
def lpmHit (d : Dev) (basin gen : Nat) (prof fv : List Byte) : Option Nat :=
  let r := lpmRead d gen prof fv
  if r.1.any (lpmFails d basin) then none else r.2

-- Rule TCAM (R154) --------------------------------------------------------------------------------------------------------------------

/-- Every bit that the mask names equals the key's. -/
def tcamMatches (e : Tcam) (key : List Byte) : Bool :=
  ((e.key.zip e.mask).zip key).all fun ((k, m), x) => (k &&& m) == (x &&& m)

/-- The lowest entry of a width that matches (R154). -/
def tcamFind (d : Dev) (basin gen : Nat) (wide : Bool) (key : List Byte) : Option Tcam :=
  ((genOf d gen).tcam.findSome? fun (i, e) => match e with
    | some e => if e.wide == wide && tcamMatches (tcamIn d basin gen i e) key && !badNow d basin (tcamAddr gen i) then some (tcamIn d basin gen i e) else none
    | none => none)

-- The merge (R140, R141, R189) ----------------------------------------------------------------------------------------------------------

/-- What a lookup gives: an action index, or a learned table's Port. -/
inductive Found where
  | action (index : Nat)
  | learned (table port : Nat)

/-- One source of a profile: 0 to 3 exact-match slots, 4 LPM, 5 TCAM (R140); `l2`: only exact match runs (R129). -/
def lookup (d : Dev) (basin gen : Nat) (prof fv : List Byte) (l2 : Bool) (src : Nat) : Option Found :=
  if src < 4 then
    let t := u8 prof src
    let x := tableDef d t
    if t > 15 || x.kind = 0 then none
    else
      match emFind d basin gen t (keyFrom x.segments x.keyBytes fv) with
      | some (_, e) => some (if x.kind = 2 then .learned t e.result else .action e.result)
      | none => none
  else if l2 then none
  else if src = 4 then
    (lpmHit d basin gen prof fv).map .action
  else
    let w := u8 prof 10
    let key := (List.range 4).flatMap fun k => slice fv (u8 prof (12 + 2 * k)) (u8 prof (13 + 2 * k))
    if w = 0 then none else (tcamFind d basin gen (w == 2) key).map fun e => .action e.result

/-- Source codes of a profile in merge order; 0xF ends the list (R140). -/
def priorities (prof : List Byte) : List Nat :=
  let n := leAt prof 20 3
  ((List.range 6).map fun k => n / 16 ^ k % 16).takeWhile (· != 0xF)

/-- The first listed source that hits, or the profile's MISS_ACTION (R141). -/
def merge (d : Dev) (basin gen : Nat) (fv : List Byte) (l2 : Bool) : Found :=
  let prof := profileOf (genOf d gen) (byteAt fv 1 % 16)
  ((priorities prof).findSome? fun s => if s < 6 then lookup d basin gen prof fv l2 s else none).getD (.action (u32 prof 24))

/-- The addresses (R504) of the stored words that fail parity among those that a frame's lookups read (R146, R153, R156). -/
def failingReads (d : Dev) (basin gen : Nat) (fv : List Byte) (l2 : Bool) : List Nat :=
  let prof := profileOf (genOf d gen) (byteAt fv 1 % 16)
  (priorities prof).flatMap fun s =>
    if s < 4 then
      let t := u8 prof s
      let x := tableDef d t
      if t > 15 || x.kind = 0 then []
      else ((placesOf x (keyFrom x.segments x.keyBytes fv)).filter fun p => wordsFail x (slotWords d basin t p) && !badNow d basin (emAddr t p)).map (emAddr t)
    else if s = 4 && !l2 then ((lpmRead d gen prof fv).1.filter fun a => !(lpmWord d.tables.lpm a).all lpmGood).map lpmAddr
    else []

def learnOf (d : Dev) (t : Nat) : LearnCfg := (tget none d.tables.learn t).getD {}

/-- The action index that a result reads (R189). -/
def foundIndex (d : Dev) (f : Found) : Nat := match f with | .action i => i | .learned t _ => (learnOf d t).template

/-- The action that a result gives in a Basin: a learned Port takes the table's TEMPLATE with DEST_KIND PORT (R189). -/
def foundAction (d : Dev) (basin gen : Nat) (f : Found) : List Nat :=
  let a := actionIn d basin gen (foundIndex d f)
  match f with
  | .action _ => a
  | .learned _ p => (a.headD 0 / 2 ^ 18 * 2 ^ 18 + 8 * p) :: a.drop 1

-- Fields of an action entry (R170) --------------------------------------------------------------------------------------------------------

def aw (a : List Nat) (i hi lo : Nat) : Nat := bitsOf (a.getD i 0) hi lo
def aDest (a : List Nat) : Nat := aw a 0 2 0
def aPort (a : List Nat) : Nat := aw a 0 11 3
def aGroup (a : List Nat) : Nat := aw a 0 17 3
def aQueue (a : List Nat) : Nat := aw a 0 27 18
def aReason (a : List Nat) : Nat := aw a 0 43 28
def aMirror (a : List Nat) : Bool := bitOf (a.getD 0 0) 44
def aSession (a : List Nat) : Nat := aw a 0 47 45
def aRecirc (a : List Nat) : Bool := bitOf (a.getD 0 0) 48
def aSpecDeny (a : List Nat) : Bool := bitOf (a.getD 0 0) 49
def aTrailer (a : List Nat) : Nat := aw a 0 51 50
def aLedger (a : List Nat) : Bool := bitOf (a.getD 0 0) 52
def aVlanOp (a : List Nat) : Nat := aw a 1 1 0
def aTpid (a : List Nat) : Nat := if bitOf (a.getD 1 0) 2 then 0x88A8 else 0x8100
def aVid (a : List Nat) : Nat := aw a 1 14 3
def aPcp (a : List Nat) : Nat := aw a 1 17 15
def aMacRewrite (a : List Nat) : Bool := bitOf (a.getD 1 0) 18
def aTtlDec (a : List Nat) : Bool := bitOf (a.getD 1 0) 19
def aDscpEn (a : List Nat) : Bool := bitOf (a.getD 1 0) 20
def aDscp (a : List Nat) : Nat := aw a 1 26 21
def aTunnel (a : List Nat) : Nat := aw a 1 28 27
def aRewrite (a : List Nat) : Nat := aw a 1 41 29
def aStream (a : List Nat) : Option Nat := if bitOf (a.getD 2 0) 0 then some (aw a 2 16 1) else none
def aConf (a : List Nat) : Option Nat := if bitOf (a.getD 2 0) 17 then some (aw a 2 23 18) else none
def aLevel (a : List Nat) : Option Nat := if bitOf (a.getD 2 0) 24 then some (aw a 2 32 25) else none
def aPolicer (a : List Nat) : Option Nat := if bitOf (a.getD 2 0) 33 then some (aw a 2 48 34) else none
def aCounter (a : List Nat) : Option Nat := if bitOf (a.getD 3 0) 0 then some (aw a 3 20 1) else none
def aLearn (a : List Nat) : Option Nat := if bitOf (a.getD 3 0) 21 then some (aw a 3 25 22) else none

-- In flight (R139, R158, R384) ----------------------------------------------------------------------------------------------------------------

/-- A frame between its root entry and its final confirmation, unless it has been dropped before that and no later pass can change it
(R139); one that is punted, or is Helm's own, is not dropped. -/
def flying (f : Frame) : Bool :=
  (f.state == 1 && !(((f.drop.isSome && f.punt.isNone && !f.forClock) || f.doomed.isSome) && !f.again && (f.pendingChecks ++ f.firstChecks).isEmpty)) || (f.state == 0 && f.pass == 2)

/-- A Basin's frames in flight of a generation (R139). -/
def basinInFlight (d : Dev) (b g : Nat) : Nat := (d.frames.filter fun (_, f) => flying f && f.gen == g && basinOf f.port == b).length

/-- Frames in flight of a generation in all eight Basins. -/
def inFlight (d : Dev) (g : Nat) : Nat := ((List.range 8).map fun b => basinInFlight d b g).sum

/-- A generation may be written: its count has been 0 for 2 µs (R158, R384). -/
def drained (d : Dev) (g : Nat) : Bool :=
  inFlight d g == 0 && match (genOf d g).zeroAt with | some a => decide (a + 32000 ≤ d.clock) | none => true

/-- The generation that frames entering a Basin's root node take: from beat N of a swap that the Steward has started, by the Basin's own
counter, the other one (R160). -/
def basinCurrent (d : Dev) (b : Nat) : Nat :=
  match d.tables.swap with
  | some x => if x.pushed && !x.flipped && decide (x.beat * 4096 ≤ islandTicks d (0x40 + b)) then 1 - d.tables.current else d.tables.current
  | none => d.tables.current

/-- Notes the instant at which a generation's count becomes 0. -/
def noteDrained (g : Nat) (d : Dev) : Dev := if inFlight d g = 0 then setGen g { genOf d g with zeroAt := some d.clock } d else d

end Sys2Proof.Machine
end

