-- ==== Sys2Proof/Machine/Work.lean ====
section
/-!
DEFINITION. What commands ask of the Steward and of the Cistern: the Steward's queue with its exclusion matrix, and
the Cistern's bytes by usable address.
-/

namespace Sys2Proof.Machine

-- The Steward's queue (R371, R383) ------------------------------------------------------------------------------------

/-- Priority class of an operation (R371). -/
def opClass (code : Nat) : Nat :=
  if code = 0x10 then 0
  else if code = 0x08 || code = 0x0A then 1
  else if code = 0x09 || code = 0x0C || code = 0x0F || code = 0x11 then 3
  else 2

/-- Whether R371 ever allows an abort of an operation. -/
def opAbortable (code : Nat) : Bool := !([0x08, 0x0B, 0x0D, 0x0E, 0x10, 0x13].contains code)

/-- How an operation in place bears on a request (R383): 0 not at all, 1 queued, 2 forbidden, 3 ST_BUSY. Keys are one
more than the table or TCAM block, 0 for none. -/
def exclusion (o : Op) (code key : Nat) : Nat :=
  if o.code = 0x13 then 1
  else if o.code = 0x11 && (code = 0x06 || code = 0x11) then 3
  else if o.code = 0x0D && (code = 0x0B || code = 0x11) then 2
  else if within o.code 1 7 && within code 1 7 then 1
  else if [1, 8, 9].contains o.code && [1, 8, 9].contains code && o.key = key then 1
  else if o.code = 3 && code = 0x0A && o.key != 0 && o.key = key then 1
  else if o.code = 0x0B && (code = 0x0B || code = 0x0C) then 1
  else if o.code = 0x0E && code = 0x0D then 1
  else if o.code = 0x0F && code = 0x0F then 1
  else 0

/-- What a request for an operation meets: ST_OK, ST_CONFLICT or ST_BUSY (R383). -/
def opVerdict (d : Dev) (code key : Nat) : Nat :=
  let es := d.steward.ops.map fun o => exclusion o code key
  if es.contains 2 then stConflict
  else if es.contains 3 then stBusy
  else if (d.steward.ops.filter fun o => o.state == 0).length ≥ 64 then stBusy
  else stOk

/-- Puts an operation at the end of the Steward's queue, under the next number. -/
def enqueueOp (o : Op) (d : Dev) : Dev :=
  let w := d.steward
  { d with steward := { w with ops := w.ops ++ [{ o with id := w.nextOp }], nextOp := w.nextOp + 1 } }

def addOp (code ticket fn : Nat) (req host : List Byte) (key : Nat) (d : Dev) : Dev :=
  enqueueOp { id := 0, code, ticket, fn, req, host, key } d

/-- A hardware request for an operation: dropped where the matrix or the queue turns it away. -/
def addHwOp (code : Nat) (req : List Byte) (key : Nat) (d : Dev) : Dev :=
  if opVerdict d code key = stOk then addOp code 0 0 req [] key d else d

/-- A command that becomes a Steward operation with its ticket (R371, R383, R415). -/
def pendOp (f code : Nat) (req host : List Byte) (key : Nat) (d : Dev) : Reply :=
  if opVerdict d code key = stOk then pend f d (fun n d => addOp code n f req host key d)
  else rej (opVerdict d code key) d

def opOf (d : Dev) (id : Nat) : Option Op := d.steward.ops.find? (fun o => o.id == id)

/-- What an operation's end tells others: the partner or the manager that sent its command, and the workers that the manager's
own programmed command goes to (R305, R389, R395); a swap has been pushed when it started (R396). -/
def tellEnd (o : Op) (status : Nat) (d : Dev) : Dev :=
  let d := match o.ack with
    | some (0, n) => tetherAck 0x24 n d
    | some (_, n) => cascadeAck (upstreamPort d).toList 0x46 n 0 0xFF d
    | none => d
  flushPushes (if status = stOk && o.own && o.opcode != 0x0603 then pushCommand o.opcode o.beat (o.req ++ o.host) d else d)

/-- An operation leaves the Steward, and its ticket completes with the bytes given (R371, R415). -/
def endOpWith (o : Op) (status : Nat) (bytes : List Byte) (d : Dev) : Dev :=
  let d := { d with steward := { d.steward with ops := d.steward.ops.filter (fun x => x.id != o.id),
                                                tokens := d.steward.tokens.filter (fun k => k.op != o.id) } }
  let d := tellEnd o status d
  if o.ticket = 0 then d else finishProgrammed o.ticket status bytes d

/-- The end of an operation whose command has the usual layout: STATUS at 0 and TICKET at 4; that of a swap or a sync has its
beat number between them (R167). -/
def endOp (o : Op) (status : Nat) (extra : List Byte) (d : Dev) : Dev :=
  endOpWith o status (if o.code = 6 || o.code = 7 then le 2 status ++ le 2 0 ++ le 8 o.beat ++ le 4 o.ticket
    else le 2 status ++ le 2 0 ++ le 4 o.ticket ++ extra) d

-- The Cistern's bytes (R328 to R332) ------------------------------------------------------------------------------------

/-- Usable bytes: 26,843,545 storage groups of 128 data bytes in each of 16 channels (R328). -/
def usableBytes : Nat := 26843545 * 128 * 16

def mib : Nat := 1048576

/-- Where a burst lies in a channel's storage: rank, row, bank, bank group and column (R329). -/
structure DramPlace where
  rank : Nat
  row : Nat
  bank : Nat
  bankGroup : Nat
  column : Nat
  deriving DecidableEq, Repr

/-- The mapping of a storage offset (R329). -/
def placeAt (off : Nat) : DramPlace :=
  { rank := off / 2 ^ 31, row := off / 2 ^ 15 % 2 ^ 16, bank := off / 2 ^ 13 % 4, bankGroup := off / 2 ^ 11 % 4, column := off % 2 ^ 11 }

/-- Where a usable byte lies in the DRAM: its channel and storage group, the storage offsets of its data burst and of that burst's check
words, and the places of both (R329). -/
structure DramAddr where
  channel : Nat
  group : Nat
  data : Nat
  check : Nat
  dataPlace : DramPlace
  checkPlace : DramPlace
  deriving DecidableEq, Repr

/-- The mapping of R329. -/
def dramAt (addr : Nat) : DramAddr :=
  let chunk := addr / 256
  let group := chunk / 16 * 2 + addr / 128 % 2
  let burst := addr / 32 % 4
  let data := group * 160 + 32 * burst
  let check := group * 160 + 128 + 8 * burst
  { channel := chunk % 16, group, data, check, dataPlace := placeAt data, checkPlace := placeAt check }

def channelOf (addr : Nat) : Nat := (dramAt addr).channel
def chanOf (d : Dev) (c : Nat) : Channel := tget {} d.cistern.channels c
def setChan (c : Nat) (x : Channel) (d : Dev) : Dev := { d with cistern := { d.cistern with channels := tput {} c x d.cistern.channels } }

/-- Where the regions begin (R332). -/
def ledgerBase (d : Dev) : Nat := d.cistern.layout.1 * mib
def spillBase (d : Dev) : Nat := ledgerBase d + d.cistern.layout.2.1 * mib
def spillBytes (d : Dev) : Nat := d.cistern.layout.2.2 * mib

/-- Firmware/archive: the rest, rounded down to 64 MiB (R332, R333). -/
def archiveMib (l : Nat × Nat × Nat) : Nat := (usableBytes / mib - (l.1 + l.2.1 + l.2.2)) / 64 * 64

/-- A usable address of the firmware/archive region (R332). -/
def inArchive (d : Dev) (addr : Nat) : Bool :=
  let base := spillBase d + spillBytes d
  decide (base ≤ addr) && decide (addr < base + archiveMib d.cistern.layout * mib)

/-- Channels that `n` bytes from a usable address reach. -/
def channelsOf (addr n : Nat) : List Nat := (List.range (ceilDiv (addr % 256 + n) 256)).map fun k => channelOf (addr + 256 * k)

/-- A master has asked the Cistern for something now: it stays out of Dry for 10 µs (R473). -/
def askCistern (d : Dev) : Dev := { d with cistern := { d.cistern with askedAt := d.clock } }

/-- The storage segment of 256 MiB that the last byte of a usable address's storage group lies in (R328, R334). -/
def segmentOf (addr : Nat) : Nat := ((dramAt addr).group * 160 + 159) / 268435456

/-- Segments of each channel that PASR keeps: those up to the storage group of the last byte of ledger staging (R334). -/
def keptSegments (d : Dev) : Nat := segmentOf (spillBase d - 1) + 1

/-- MR23 as self-refresh begins: every segment that is not kept (R334, R344). -/
def pasrMask (d : Dev) : Nat := 2 ^ 16 - 2 ^ min 16 (keptSegments d)

/-- Set bits among the 80 of a stored word. -/
def onesIn (mask : Nat) : Nat := (List.range 80).countP fun k => bitOf mask k

/-- A usable 8-byte word as it was written. -/
def Cistern.word (x : Cistern) (w : Nat) : Word64 := BitVec.ofNat 64 (leAt ((List.range 8).map fun k => tget 0 x.mem (8 * w + k)) 0 8)

/-- What a read gets for a word: flips of up to two bits corrected, three detected, and of more the code may make anything; none where the
word is uncorrectable (R26, R328, R331, R347). -/
def Cistern.wordRead (x : Cistern) (w : Nat) : Option Word64 :=
  let flips := onesIn (tget 0 x.flips w)
  if flips ≤ 2 then some (x.word w) else if flips = 3 then none else Config.misread (x.word w) (tget 0 x.flips w)

/-- Usable 8-byte words that read uncorrectable (R331). -/
def Cistern.badWords (x : Cistern) : List Nat := (x.flips.filter fun (w, _) => (x.wordRead w).isNone).map (·.1)

/-- The 80 stored bits of a word: its data bits, its check word above them, and the flips (R328). -/
def Cistern.stored (x : Cistern) (w : Nat) : BitVec 80 := (Config.checkWord (x.word w) ++ x.word w) ^^^ BitVec.ofNat 80 (tget 0 x.flips w)

/-- A byte of a channel's 4 GiB of storage: data bursts and check bursts of storage groups of 160 bytes (R326, R328); the last position
of a channel holds no group. -/
def storageByte (x : Cistern) (channel off : Nat) : Byte :=
  let group := off / 160
  let at_ := off % 160
  let base := (group / 2 * 16 + channel) * 256 + group % 2 * 128
  if 26843545 ≤ group then 0
  else if at_ < 128 then BitVec.ofNat 8 ((x.stored ((base + at_) / 8)).toNat / 2 ^ (8 * (at_ % 8)))
  else BitVec.ofNat 8 ((x.stored (base / 8 + (at_ - 128) / 2)).toNat / 2 ^ (64 + 8 * (at_ % 2)))

/-- A channel trains: at the cold reset until it is in service or has failed, or since (R343, R345). -/
def Channel.trains (x : Channel) : Bool := x.training || (!x.inService && !x.failed)

/-- A channel that a request reaches trains: the request waits (R345). -/
def channelsTrain (d : Dev) (addr n : Nat) : Bool := (channelsOf addr n).any fun k => (chanOf d k).trains

/-- Whether `n` bytes at a usable address can be written: inside the usable space, and none of its channels out of service for good (R343). -/
def storable (d : Dev) (addr n : Nat) : Bool := decide (addr + n ≤ usableBytes) && (channelsOf addr n).all fun k => !(chanOf d k).failed

/-- Whether a read of `n` bytes at a usable address can be returned: what it reaches is in service, and no word of it is uncorrectable (R331,
R343) or lost at step Dry (R332, R334). -/
def memGood (d : Dev) (addr n : Nat) : Bool :=
  storable d addr n
    && d.cistern.badWords.all (fun w => decide (8 * w + 8 ≤ addr) || decide (addr + n ≤ 8 * w))
    && match d.cistern.lostSpill with
      | none => true
      | some ws => decide (addr + n ≤ spillBase d)
          || (List.range (ceilDiv (addr % 8 + n) 8)).all fun k => tget false ws (addr / 8 + k) || decide (segmentOf (8 * (addr / 8 + k)) < keptSegments d)

/-- A byte as a read gets it; that of an uncorrectable word is free (R331). -/
def byteRead (d : Dev) (a : Nat) : Byte :=
  if !memGood d (a / 8 * 8) 8 then Config.unreadable a
  else if tget 0 d.cistern.flips (a / 8) = 0 then tget 0 d.cistern.mem a
  else match d.cistern.wordRead (a / 8) with
    | some x => BitVec.ofNat 8 (x.toNat / 2 ^ (8 * (a % 8)))
    | none => Config.unreadable a

/-- `n` bytes from a usable address, as a read gets them. -/
def memBytes (d : Dev) (addr n : Nat) : List Byte := (List.range n).map fun k => byteRead d (addr + k)

/-- `n` bytes from a usable address as they were written. -/
def memWritten (d : Dev) (addr n : Nat) : List Byte := (List.range n).map fun k => tget 0 d.cistern.mem (addr + k)

/-- A word that a read found uncorrectable is counted and reported with its address (R331). -/
def wordBad (w : Nat) (d : Dev) : Dev :=
  let c := channelOf (8 * w)
  let x := chanOf d c
  report (0x900 + c) 0x05 (8 * w) (setChan c { x with uncorrectable := min 0xFFFF (x.uncorrectable + 1) } d)

/-- A word that a read corrected is counted and reported with its address (R331). -/
def wordCorrected (w : Nat) (d : Dev) : Dev :=
  let c := channelOf (8 * w)
  let x := chanOf d c
  report (0x900 + c) 0x01 (8 * w) (setChan c { x with corrected := min 0xFFFF (x.corrected + 1) } d)

/-- A read of `n` bytes counts and reports the words that it corrects and those that it finds uncorrectable (R331). -/
def noteRead (addr n : Nat) (d : Dev) : Dev :=
  ((List.range (ceilDiv (addr % 8 + n) 8)).map fun k => addr / 8 + k).foldl (fun d w =>
    let flips := onesIn (tget 0 d.cistern.flips w)
    if !memGood d (8 * w) 8 then wordBad w d else if flips = 1 || flips = 2 then wordCorrected w d else d) (askCistern d)

def putBytes : Nat → List Byte → Tbl Byte → Tbl Byte
  | _, [], t => t
  | a, b :: bs, t => putBytes (a + 1) bs (tput 0 a b t)

/-- Writes bytes at a usable address, and new check words with them: a word written whole is good again, and so is one that the controller
merges with what it could correct (R328, R330). A write-back of the scrub that waits on a storage group written is dropped (R346). -/
def memWrite (addr : Nat) (bs : List Byte) (d : Dev) : Dev :=
  let x := d.cistern
  let last := addr + bs.length
  let words := (List.range (bs.length / 8)).map fun k => ceilDiv addr 8 + k
  { d with cistern := { x with
      mem := putBytes addr bs x.mem, askedAt := d.clock,
      lostSpill := x.lostSpill.map fun ws => (words.filter fun w => decide (8 * w + 8 ≤ last)).foldl (fun ws w => tput false w true ws) ws,
      flips := x.flips.filter fun (w, m) =>
        decide (8 * w + 8 ≤ addr) || decide (last ≤ 8 * w) || (decide (2 < onesIn m) && (decide (8 * w < addr) || decide (last < 8 * w + 8))),
      scrubBack := x.scrubBack.filter fun w => bs.isEmpty || decide (w / 16 < addr / 128) || decide ((last - 1) / 128 < w / 16) } }

/-- A master's write; one that reaches a channel out of service fails, and is reported (R343). -/
def memStore (addr : Nat) (bs : List Byte) (d : Dev) : Dev :=
  if storable d addr bs.length then memWrite addr bs d else report 0x910 0x04 0 (askCistern d)

/-- Bytes of the retention ring: the region without its 16 MiB control area (R332). -/
def retentionRing (d : Dev) : Nat := d.cistern.layout.1 * mib - 16 * mib

/-- Where `n` bytes from an offset of the retention ring lie: usable addresses and lengths, two where they pass the ring's end (R332). -/
def retainSpans (d : Dev) (pos n : Nat) : List (Nat × Nat) :=
  let head := min n (retentionRing d - pos)
  if head < n then [(16 * mib + pos, head), (16 * mib, n - head)] else [(16 * mib + pos, head)]

/-- Bytes of the retention ring that a Retained copy takes: aligned pieces of 64 bytes (R330). -/
def retainSize (f : Frame) : Nat := ceilDiv (holdSize f) 64 * 64

/-- A Retained copy's bytes: the frame with its FCS, and zeros up to the piece's end (DESIGN CHOICE, log 73). -/
def retainBytes (f : Frame) : List Byte := padTo (retainSize f) (f.bytes ++ le 4 f.fcs)

/-- Where a Retained copy lies. -/
def spansOf (d : Dev) (r : Retain) : List (Nat × Nat) := retainSpans d r.pos (retainSize r.frame)

/-- Channels that hold a Retained copy. -/
def retainChannels (d : Dev) (r : Retain) : List Nat := (spansOf d r).flatMap fun (a, n) => channelsOf a n

/-- A Retained copy can be read. -/
def retainReads (d : Dev) (r : Retain) : Bool := (spansOf d r).all fun (a, n) => memGood d a n

/-- A Retained copy whose write has neither completed nor failed. -/
def retainOpen (r : Retain) : Bool := !r.done && !r.lost

/-- Bytes go to their spans, one after the other. -/
def storeSpans : List (Nat × Nat) → List Byte → Dev → Dev
  | [], _, d => d
  | (a, n) :: t, bs, d => storeSpans t (bs.drop n) (memWrite a (bs.take n) d)

/-- Retained copies with a word that cannot be read cover their frames no longer (R48, R61, R332, R344). -/
def loseCover (d : Dev) : Dev :=
  { d with guard := { d.guard with retains := d.guard.retains.map fun r => if retainReads d r then r else { r with lost := true } } }

/-- Records that the record ring holds: the staging region less 64 MiB (R289). -/
def ringRecords (d : Dev) : Nat := (d.cistern.layout.2.1 - 64) * mib / 32

/-- Where the slot of a record, and that of a seal, lies: the seal ring first (R289, log 113). -/
def recordAddr (d : Dev) (n : Nat) : Nat := ledgerBase d + 64 * mib + 32 * (n % ringRecords d)
def sealAddr (d : Dev) (n : Nat) : Nat := ledgerBase d + 256 * (n % 262144)

/-- A GAP record's bytes (R281). -/
def gapBytes (d : Dev) (cause lost guarded first : Nat) : List Byte :=
  stampBytes (coreStamp d false) ++ le 4 (min 0xFFFFFFFF lost) ++ le 2 cause ++ le 4 (min 0xFFFFFFFF guarded) ++ le 2 (3 * 8192) ++ le 8 first

/-- A record of the ring that cannot be read: a STORE gap record takes its place, counted and reported (R283). -/
def storeGap (n : Nat) (d : Dev) : Dev :=
  if d.ledger.nextRecord ≤ n || tget [] d.ledger.bad n != [] then d
  else
    let d := noteRead (recordAddr d n) 32 d
    let l := d.ledger
    let old := memWritten d (recordAddr d n) 32
    let guarded := b2n (u16 old 22 / 8192 ≤ 1 && u16 old 22 / 512 % 16 != 15)
    count 0x809 0 (report 0x603 0x1C 0 { d with ledger := { l with bad := tput [] n (gapBytes d 3 1 guarded 0) l.bad, lost := l.lost + 1 } })

/-- The gap records of those records from `first` on that cannot be read (R283, R287). -/
def storeGaps (first : Nat) (d : Dev) : Dev :=
  (((List.range (d.ledger.nextRecord - first)).map fun k => first + k).filter fun n => !memGood d (recordAddr d n) 32).foldl (fun d n => storeGap n d) d

/-- A record of the ring as it is read: its STORE gap record where it has one (R283, R287). -/
def ringRecord (d : Dev) (n : Nat) : List Byte := let g := tget [] d.ledger.bad n; if g.isEmpty then memBytes d (recordAddr d n) 32 else g

end Sys2Proof.Machine
end

