-- ==== Sys2Proof/Machine/Dma.lean ====
section
/-!
DEFINITION. DMA rings and completion queues (18_dma.md). A descriptor, an index table and the bytes 0 to 7 of a parked
descriptor lie in host memory: a row that reads one takes what it read as an operand, none for a failed read (log 4).
-/

namespace Sys2Proof.Machine

def ringOf (d : Dev) (r : Nat) : Ring := tget {} d.dma.rings r
def setRing (r : Nat) (x : Ring) (d : Dev) : Dev := { d with dma := { d.dma with rings := tput {} r x d.dma.rings } }
def cqOf (d : Dev) (q : Nat) : Cq := tget {} d.dma.cqs q
def setCq (q : Nat) (x : Cq) (d : Dev) : Dev := { d with dma := { d.dma with cqs := tput {} q x d.dma.cqs } }

-- Completion queues (R433 to R436) ----------------------------------------------------------------------------------------

def cqSize (x : Cq) : Nat := 2 ^ x.sizeLog

/-- Entries written and not yet read. -/
def cqUsed (x : Cq) : Nat := (x.tail + cqSize x - x.head % cqSize x) % cqSize x

/-- One more entry would reach CQ_HEAD (R434). -/
def cqFull (x : Cq) : Bool := decide (cqSize x ≤ cqUsed x + 1)

/-- An entry can still be reserved (R434). -/
def cqRoom (x : Cq) : Bool := x.enabled && decide (cqUsed x + x.reserved + 1 < cqSize x)

/-- The queue's message; hardware clears ARM as it sends (R436). -/
def signalCq (q : Nat) (d : Dev) : Dev :=
  let x := cqOf d q
  emit (.msix x.fn (64 + q)) (setCq q { x with arm := false, since := 0 } d)

/-- The queue's conditions for its message hold (R436). -/
def cqDue (d : Dev) (x : Cq) : Bool :=
  decide (x.since ≥ x.coCount) || (decide (x.since > 0) && decide (d.clock - x.oldest ≥ 16 * x.coNs))

/-- Writes one completion record at CQ_TAIL (R433 to R436). -/
def cqWrite (q ring index status flags count detail : Nat) (d : Dev) : Dev :=
  let x := cqOf d q
  let rec16 := le 2 (ring + 32768 * x.phase) ++ le 1 status ++ le 1 flags ++ le 2 index ++ le 2 count ++ le 8 detail
  let d := emit (.hostWrite x.fn (x.base + 16 * x.tail) false false rec16) d
  let wraps := decide (x.tail + 1 = cqSize x)
  let x := { x with tail := if wraps then 0 else x.tail + 1, phase := if wraps then 1 - x.phase else x.phase,
                    oldest := if x.since = 0 then d.clock else x.oldest, since := x.since + 1 }
  let d := setCq q x d
  if x.arm && cqDue d x then signalCq q d else d

-- Byte swapping (R432) ---------------------------------------------------------------------------------------------------------

def swap16 : List Byte → List Byte
  | a :: b :: t => b :: a :: swap16 t
  | t => t
def swap32 : List Byte → List Byte
  | a :: b :: c :: e :: t => e :: c :: b :: a :: swap32 t
  | t => t
def swapHalves : List Byte → List Byte
  | a :: b :: c :: e :: t => c :: e :: a :: b :: swapHalves t
  | t => t

def swapBytes (mode : Nat) (bs : List Byte) : List Byte :=
  match mode with
  | 1 => swap16 bs
  | 2 => swap32 bs
  | 3 => swapHalves bs
  | _ => bs

def swapUnit (mode : Nat) : Nat := match mode with | 0 => 1 | 1 => 2 | _ => 4

/-- The source a RECORD ring serves: 0 ledger records, 1 seals, 2 samples, 3 events of its function, 5 health, 6 notes,
7 links (R428). -/
def sourceOfRing (d : Dev) (r : Nat) : Option Nat :=
  if d.ledger.recordRing = some r then some 0
  else if d.ledger.sealRing = some r then some 1
  else if d.tm.sampling.ring = some r then some 2
  else if (fnOf d 0).evRing = some r || (fnOf d 1).evRing = some r then some 3
  else if d.pair.healthRing = some r then some 5
  else if d.cascade.noteRing = some r then some 6
  else if d.cascade.linkRing = some r then some 7
  else none

/-- The start tag of a band 1 ring: start-time fair queuing, in bytes over its WEIGHT, of which the least goes first (R444, log 114). -/
def startTag (d : Dev) (r : Nat) : Nat := max d.dma.virtual (ringOf d r).finish

/-- A ring of band 0: a RECORD ring of ledger records, seals, events, health records, notes or links (R444). -/
def inBand0 (d : Dev) (r : Nat) : Bool := match sourceOfRing d r with | some src => src != 2 && (ringOf d r).kind == 0 | none => false

/-- A ring has moved some bytes: in band 0 the round goes on from it, in band 1 its tag does (R444). -/
def tookTurn (r n : Nat) (d : Dev) : Dev :=
  if inBand0 d r then { d with dma := { d.dma with lastTurn := r } }
  else
    let tag := startTag d r
    setRing r { ringOf d r with finish := tag + n * 65536 / max 1 (ringOf d r).weight } { d with dma := { d.dma with virtual := tag } }

/-- Writes a ring's data to host memory, with its attributes (R432, R435, R439). -/
def ringData (r addr : Nat) (bs : List Byte) (d : Dev) : Dev :=
  let x := ringOf d r
  emit (.hostWrite x.fn addr x.relaxed x.noSnoop (swapBytes x.swap bs)) (tookTurn r bs.length d)

-- Descriptors (R430, R437, R438) ---------------------------------------------------------------------------------------------

def ringSize (x : Ring) : Nat := 2 ^ x.sizeLog

/-- Descriptors from HEAD up to TAIL − 1 (R437). -/
def ringAvail (x : Ring) : Nat := (x.tail + ringSize x - x.head) % ringSize x

/-- An engine may start the descriptor at HEAD: enabled, not parked, none started with END, and a completion entry can be
reserved (R434, R437). -/
def ringReady (d : Dev) (r : Nat) : Bool :=
  let x := ringOf d r
  x.state == 1 && decide (ringAvail x > 0) && !x.started.any (·.last) && cqRoom (cqOf d x.cq)

/-- DMA.HEAD.STATE (18_dma.md): DISABLED, IDLE with nothing available or started, STALLED on a full queue, PARKED and
STOPPING as they stand, else RUNNING. -/
def ringState (d : Dev) (x : Ring) : Nat :=
  if x.state = 1 then
    if x.started.isEmpty && ringAvail x = 0 then 1
    else if x.started.isEmpty && !cqRoom (cqOf d x.cq) then 4
    else 2
  else x.state

/-- END as bytes 0 to 7 of a descriptor hold it; a read that failed leaves the ring as it was. -/
def endSet (b : Option (List Byte)) : Bool := match b with | some bs => bitOf (u32 bs 0) 0 | none => true

/-- Starts the descriptor at HEAD: a completion entry is reserved and HEAD moves on. A descriptor that could not be read
counts as one with END 0 and fails. -/
def startDesc (r : Nat) (desc : Option (List Byte)) (d : Dev) : Dev × Started :=
  let x := ringOf d r
  let b := desc.getD []
  let s : Started := { index := x.head, last := desc.isSome && bitOf (u32 b 0) 0, noCq := bitOf (u32 b 0) 1, addr := u64 b 8, len := u32 b 4 }
  let q := cqOf d x.cq
  let d := setCq x.cq { q with reserved := q.reserved + 1 } d
  (setRing r { x with head := (x.head + 1) % ringSize x, started := x.started ++ [s] } d, s)

/-- Fields that every kind checks: reserved bits, LENGTH, and the SWAP unit of its buffer (R430, R432). -/
def descOk (x : Ring) (desc : List Byte) : Bool :=
  decide (u32 desc 0 < 4) && within (u32 desc 4) 1 65535
    && (x.kind == 2 || u32 desc 4 % swapUnit x.swap == 0)
    && (!(x.kind == 0 || x.kind == 1) || zerosAt desc 16 16)

/-- A started descriptor's result; completions follow in descriptor order, and the engine parks after END (R434, R438). -/
def drainStarted (r : Nat) : List Started → Dev → Dev
  | [], d => let x := ringOf d r; setRing r { x with started := [] } d
  | s :: t, d =>
    match s.result with
    | none => let x := ringOf d r; setRing r { x with started := s :: t } d
    | some (status, flags, count, detail) =>
      let x := ringOf d r
      let q := cqOf d x.cq
      let d := setCq x.cq { q with reserved := q.reserved - 1 } d
      let d := if s.noCq && status = 0 then d else cqWrite x.cq r s.index status flags count detail d
      let x := { x with hostError := x.hostError || status == 3 }
      let x := if s.last then (if x.state = 5 then { x with parkedStop := true } else { x with state := 3 }) else x
      drainStarted r t (setRing r x d)

/-- FLUSHED completions of the descriptors left, as far as completion entries allow; then the ring is DISABLED and its
ticket completes (R445). -/
def flushRing (r : Nat) : Nat → Dev → Dev
  | 0, d =>
    let x := ringOf d r
    completeOpt x.ticket stOk [] (setRing r { x with state := 0, ticket := none, held := false, parkedStop := false } d)
  | n + 1, d =>
    let x := ringOf d r
    if cqRoom (cqOf d x.cq) then
      flushRing r n (cqWrite x.cq r x.head 1 0 0 0 (setRing r { x with head := (x.head + 1) % ringSize x } d))
    else d

/-- What follows once no descriptor is in progress: a held doorbell's re-read of END, and the end of a disable (R438,
R445). -/
def settleRing (r : Nat) (reread : Option (List Byte)) (d : Dev) : Dev :=
  let x := ringOf d r
  if !x.started.isEmpty then d
  else if x.state = 3 && x.held then setRing r { x with held := false, state := if endSet reread then 3 else 1 } d
  else if x.state = 5 then
    if x.parkedStop && endSet reread then flushRing r 0 d
    else flushRing r (ringAvail x) (setRing r { x with parkedStop := false } d)
  else d

/-- Completes a started descriptor with its status, FLAGS, COUNT and DETAIL; a host read error is reported (R433). -/
def finishDesc (r index status flags count detail : Nat) (reread : Option (List Byte)) (d : Dev) : Dev :=
  let x := ringOf d r
  let d := if status = 3 then report 0xC00 0x2A r d else d
  let ss := x.started.map fun s => if s.index == index && s.result.isNone then { s with result := some (status, flags, count, detail) } else s
  settleRing r reread (drainStarted r ss d)

/-- DETAIL where a kind gives none. -/
def noDetail : Nat := 0xFFFFFFFFFFFFFFFF

-- Record sources (R428, R429) ---------------------------------------------------------------------------------------------------

def recordSize (src : Nat) : Nat := match src with | 0 => 32 | 1 => 256 | 2 => 32 | 3 => 64 | 5 => 64 | 6 => 48 | _ => 192

/-- A ring that a source may name: none, or an enabled RECORD ring of the issuing function that no other source uses
(R428). `now` is the ring the source names at present. -/
def nameable (d : Dev) (fn r : Nat) (now : Option Nat) : Bool :=
  r == 0xFFFF ||
    (let x := ringOf d r
     decide (r < 1024) && x.kind == 0 && (x.state == 1 || x.state == 3) && x.fn == fn
       && (now == some r || ((sourceOfRing d r).isNone && d.ledger.newRecordRing != some (some r) && d.ledger.newSealRing != some (some r))))

def ringName (r : Nat) : Option Nat := if r = 0xFFFF then none else some r

/-- An event record's 64 bytes (R416). -/
def eventBytes (e : EvRec) (seq : Nat) : List Byte :=
  le 2 e.code ++ le 2 e.subject ++ le 4 seq ++ stampBytes e.stamp ++ le 4 e.detail
    ++ le 1 (min 32 e.ext.length) ++ le 1 (b2n e.deferred) ++ le 6 0 ++ padTo 32 e.ext

/-- A sample record written after losses carries LOST and their count (R242). -/
def lostInto (lost : Nat) (b : List Byte) : List Byte :=
  if lost = 0 then b else overwrite (overwrite b 10 (le 2 (u16 b 10 / 2 * 2 + 1))) 24 (le 4 (min lost 0xFFFFFFFF))

/-- The entries of a ledger ring from one number up to another, as far as no channel that holds them trains: the reads of one master complete
in their order (R337, R345). -/
def ringAhead (d : Dev) (at_ : Nat → Nat) (size first next : Nat) : List Nat :=
  ((List.range (next - first)).map fun k => first + k).takeWhile fun n => !channelsTrain d (at_ n) size

/-- The records a source has waiting, oldest first, and the DETAIL of the first (R428). -/
def waiting (d : Dev) (fn src : Nat) : List (List Byte) × Nat :=
  match src with
  | 0 =>
    let l := d.ledger
    ((ringAhead d (recordAddr d) 32 l.exported l.nextRecord).map (ringRecord d), l.exported)
  | 1 =>
    let l := d.ledger
    ((ringAhead d (sealAddr d) 256 l.sealExported l.nextSeal).map fun n => memBytes d (sealAddr d n) 256, l.sealExported)
  | 2 => (d.tm.sampling.out.mapIdx (fun k b => if k = 0 then lostInto d.tm.sampling.lost b else b), 0)
  | 3 =>
    let x := fnOf d fn
    if helmStopped d then ([], x.evSeq)
    else ((x.evq.zipIdx).map fun (e, k) => eventBytes e ((x.evSeq + k) % 2 ^ 32), x.evSeq)
  | 5 => (d.pair.healthOut, 0)
  | 6 => (d.dma.notes, 0)
  | _ => (d.dma.links.map (·.2), (d.dma.links.head?.map (·.1)).getD 0)

/-- `n` of a source's records have been packed. -/
def dropWaiting (fn src n : Nat) (d : Dev) : Dev :=
  match src with
  | 0 => { d with ledger := { d.ledger with exported := d.ledger.exported + n } }
  | 1 => { d with ledger := { d.ledger with sealExported := d.ledger.sealExported + n } }
  | 2 =>
    let m := d.tm.sampling
    { d with tm := { d.tm with sampling := { m with out := m.out.drop n, lost := if n = 0 then m.lost else 0 } } }
  | 3 =>
    let x := fnOf d fn
    setFn fn { x with evq := x.evq.drop n, evSeq := (x.evSeq + n) % 2 ^ 32, evWritten := x.evWritten + n } d
  | 5 => { d with pair := { d.pair with healthOut := d.pair.healthOut.drop n } }
  | 6 => { d with dma := { d.dma with notes := d.dma.notes.drop n } }
  | _ => { d with dma := { d.dma with links := d.dma.links.drop n } }

/-- The gap records of freed slots go with them (R289). -/
def pruneLedger (d : Dev) : Dev :=
  let l := d.ledger
  { d with ledger := { l with bad := l.bad.filter fun (n, _) => n ≥ l.freeFrom } }

/-- A completed buffer frees the ledger slots that it exported (R289). -/
def freeSlots (src upTo : Nat) (d : Dev) : Dev :=
  match src with
  | 0 => pruneLedger { d with ledger := { d.ledger with freeFrom := max d.ledger.freeFrom upTo } }
  | 1 => { d with ledger := { d.ledger with sealFree := max d.ledger.sealFree upTo } }
  | _ => d

/-- A ring stands at a descriptor boundary. -/
def atBoundary (d : Dev) (r : Option Nat) : Bool := match r with | some r => (ringOf d r).started.isEmpty | none => true

/-- A change of the ledger's rings applies at the next descriptor boundary of the old ring (R292). -/
def applyRings (d : Dev) : Dev :=
  let l := d.ledger
  let l := match l.newRecordRing with
    | some r => if atBoundary d l.recordRing then { l with recordRing := r, newRecordRing := none } else l
    | none => l
  let l := match l.newSealRing with
    | some r => if atBoundary d l.sealRing then { l with sealRing := r, newSealRing := none } else l
    | none => l
  { d with ledger := l }

/-- Completes the RECORD buffer in progress. -/
def closeBuffer (r flags : Nat) (reread : Option (List Byte)) (d : Dev) : Dev :=
  match (ringOf d r).started.head? with
  | none => d
  | some s =>
    let d := finishDesc r s.index 0 flags s.records s.detail reread d
    match sourceOfRing d r with
    | some src => applyRings (freeSlots src (s.detail + s.records) d)
    | none => d

/-- The exporter's reads of `n` records or seals from `first` on (R331, R336); a record with a gap record has been read. -/
def noteExport (src first n : Nat) (d : Dev) : Dev :=
  let ns := (List.range n).map fun k => first + k
  match src with
  | 0 => (ns.filter fun k => tget [] d.ledger.bad k == []).foldl (fun d k => noteRead (recordAddr d k) 32 d) d
  | 1 => ns.foldl (fun d k => noteRead (sealAddr d k) 256 d) d
  | _ => d

/-- Packs a source's records into the buffer in progress, whole records only, and completes it when the next would not
fit (R429); a ledger record that cannot be read goes out as its STORE gap record (R283). -/
def packRecords (r src : Nat) (reread : Option (List Byte)) (d : Dev) : Dev :=
  let d := if src = 0 then storeGaps d.ledger.exported d else d
  let x := ringOf d r
  match x.started.head? with
  | none => d
  | some s =>
    let (recs, detail) := waiting d x.fn src
    let size := recordSize src
    let n := min recs.length ((s.len - s.used) / size)
    let d := noteExport src detail n d
    let d := if n = 0 then d else ringData r (s.addr + s.used) (recs.take n).flatten d
    let s := { s with used := s.used + n * size, records := s.records + n, detail := if s.records = 0 then detail else s.detail,
                      oldest := if s.records = 0 then d.clock else s.oldest }
    let d := dropWaiting x.fn src n (setRing r { x with started := [s] } d)
    if s.len - s.used < size then closeBuffer r 0 reread d else d

/-- What a source does with its records while no descriptor or completion entry is free (R428). -/
def keepOrLose (fn src : Nat) (d : Dev) : Dev :=
  let n := (waiting d fn src).1.length
  match src with
  | 2 => repeatCount 0x806 0 n { d with tm := { d.tm with sampling := { d.tm.sampling with out := [], lost := d.tm.sampling.lost + n } } }
  | 5 => repeatCount 0x804 0 n { d with pair := { d.pair with healthOut := [] } }
  | _ => d

/-- Every channel is in service (R343, R349). -/
def cisternWhole (d : Dev) : Bool := (List.range 16).all fun c => (chanOf d c).inService

/-- After a cold reset with a channel out of service there is no export and no genesis seal, until all are in service or a retrain has
been asked for (R343). -/
def ledgerHeld (d : Dev) : Bool := d.ledger.nextSeal == 0 && !cisternWhole d && !d.cistern.retrained

/-- A to-host ring has something that it can move now (R437, R441, R444). -/
def ringWaits (d : Dev) (r : Nat) : Bool :=
  let x := ringOf d r
  match x.kind with
  | 0 =>
    match sourceOfRing d r with
    | some src => (!x.started.isEmpty || ringReady d r) && !(src ≤ 1 && (ledgerHeld d || !islandAwake d 0x4E)) && !(waiting d x.fn src).1.isEmpty
    | none => false
  | 1 => ringReady d r && ((d.dma.punts.head?).map fun p => p.1 == r) == some true
  | 2 => ringReady d r
  | _ => false

/-- Where a band 0 ring stands in the round. -/
def turnOf (d : Dev) (r : Nat) : Nat := (r + 1023 - d.dma.lastTurn % 1024) % 1024

/-- Ring `k` is served before ring `r`: band 0 first, round robin in it, and by fair queuing in band 1 (R444). -/
def servedBefore (d : Dev) (k r : Nat) : Bool :=
  match inBand0 d k, inBand0 d r with
  | true, false => true
  | false, true => false
  | true, true => decide (turnOf d k < turnOf d r)
  | false, false => decide (startTag d k < startTag d r) || (startTag d k == startTag d r && decide (k < r))

/-- A ring that would move something waits while another that is served before it has something (R444). -/
def outOfTurn (d : Dev) (r : Nat) : Bool := ringWaits d r && d.dma.rings.any fun (k, _) => ringWaits d k && servedBefore d k r

/-- A source fills its ring's buffer: the one in progress, or a new descriptor's (R429); what the Cistern holds waits while its island
sleeps (R29), and each ring for its turn (R444). -/
def fillRing (r src : Nat) (desc reread : Option (List Byte)) (d : Dev) : Dev :=
  let x := ringOf d r
  if (src ≤ 1 && (ledgerHeld d || !islandAwake d 0x4E)) || outOfTurn d r then d
  else if x.kind != 0 || x.state = 0 then keepOrLose x.fn src d
  else if !x.started.isEmpty then packRecords r src reread d
  else if (waiting d x.fn src).1.isEmpty then d
  else if !ringReady d r then keepOrLose x.fn src d
  else
    let (d, s) := startDesc r desc d
    match desc with
    | none => finishDesc r s.index 3 0 0 noDetail reread d
    | some b =>
      if !descOk x b || s.len < recordSize src then finishDesc r s.index 2 0 0 0 reread d
      else packRecords r src reread d

/-- RECORD_FILL (R429): a source's records are packed into its ring's buffer. -/
def execRecordFill (t ring : Nat) (desc reread : Option (List Byte)) (s : State) : Host.Outcome State Fault Refusal :=
  act (fun d =>
    let d := advance t d
    match sourceOfRing d ring with
    | some src => fillRing ring src desc reread d
    | none => d) s

/-- RECORD_PARTIAL_TIMEOUT (R429): the oldest record of a buffer has waited 100 µs. -/
def execRecordPartialTimeout (t ring : Nat) (reread : Option (List Byte)) (s : State) : Host.Outcome State Fault Refusal :=
  act (fun d =>
    let d := advance t d
    let x := ringOf d ring
    match x.started.head? with
    | some b => if x.kind = 0 && b.records > 0 && d.clock - b.oldest ≥ 1600000 then closeBuffer ring 2 reread d else d
    | none => d) s

-- GATHER (R431) --------------------------------------------------------------------------------------------------------------------

/-- An element of a space: its bytes, and 0 good, 2 outside the space, 4 uncorrectable. -/
def element (d : Dev) (space at_ : Nat) : List Byte × Nat :=
  match space with
  | 0 => if at_ < 1048576 then (le 4 (counterSeen d at_), 0) else (List.replicate 4 255, 2)
  | 1 => if at_ < 1048576 && at_ % 2 = 0 then (le 4 (counterSeen d at_) ++ le 4 (counterSeen d (at_ + 1)), 0) else (List.replicate 8 255, 2)
  | _ =>
    if 64 * at_ + 64 ≤ spillBytes d then
      (let a := spillBase d + 64 * at_
       if memGood d a 64 then (memBytes d a 64, 0) else (List.replicate 64 255, 4))
    else (List.replicate 64 255, 2)

/-- The elements that an index table selects: bytes, the first bad index, and whether any was uncorrectable. -/
def gather (d : Dev) (space base : Nat) (index : List Byte) (n : Nat) : List Byte × Option Nat × Bool :=
  (List.range n).foldl (fun (bs, bad, unc) k =>
    let (e, st) := element d space (u32 index (4 * k) + base)
    (bs ++ e, if bad.isNone && st = 2 then some k else bad, unc || st == 4)) ([], none, false)

/-- The addresses of the spill region that a gather reads: those of the elements inside it. -/
def spillReads (d : Dev) (base : Nat) (index : List Byte) (n : Nat) : List Nat :=
  ((List.range n).map fun k => u32 index (4 * k) + base).filterMap fun e => if 64 * e + 64 ≤ spillBytes d then some (spillBase d + 64 * e) else none

/-- GATHER_DESCRIPTOR (R430, R431, R444); a gather from the Cistern waits while that is at Dry (R473), and while a channel it reads trains
(R345). -/
def execGatherDescriptor (t ring : Nat) (desc index reread : Option (List Byte)) (s : State) : Host.Outcome State Fault Refusal :=
  act (fun d =>
    let d := advance t d
    let x := ringOf d ring
    let asleep := (desc.any fun b => u8 b 24 == 2) && !islandAwake d 0x4E
    if x.kind != 2 || !ringReady d ring || outOfTurn d ring || asleep then d
    else
      let idle := d
      let (d, st) := startDesc ring desc d
      match desc with
      | none => finishDesc ring st.index 3 0 0 noDetail reread d
      | some b =>
        let space := u8 b 24
        if !descOk x b || u64 b 16 % 4 != 0 || space > 2 || !zerosAt b 25 3 then finishDesc ring st.index 2 0 0 noDetail reread d
        else
          match index with
          | none => finishDesc ring st.index 3 0 0 noDetail reread d
          | some ix =>
            let reads := if space = 2 then spillReads d (u32 b 28) ix st.len else []
            if reads.any fun a => channelsTrain d a 64 then idle
            else
              let (bs, bad, unc) := gather d space (u32 b 28) ix st.len
              let d := ringData ring st.addr bs (reads.foldl (fun d a => noteRead a 64 d) d)
              finishDesc ring st.index (if bad.isSome then 2 else if unc then 4 else 0) 0 st.len (bad.getD noDetail) reread d) s

-- Doorbells, arms and resets (R436, R438, R446) -------------------------------------------------------------------------------------

/-- RING_DOORBELL (R438): a write of TAIL by the owning function; a parked engine re-reads END. -/
def execRingDoorbell (t fn ring tail : Nat) (reread : Option (List Byte)) (s : State) : Host.Outcome State Fault Refusal :=
  act (fun d =>
    let d := advance t d
    let x := ringOf d ring
    if ring ≥ 2048 then d
    else if x.state = 0 || (x.state = 5 && x.fn = fn) then setRing ring { x with dbIgnored := true } d
    else if x.fn != fn then d
    else
      let x := { x with tail := tail % 65536 % ringSize x }
      if x.state = 3 then setRing ring { x with state := if endSet reread then 3 else 1 } d
      else if x.started.any (·.last) then setRing ring { x with held := true } d
      else setRing ring x d) s

/-- CQ_ARM_WRITE (R436): setting ARM while entries wait sends the message at once. -/
def execCqArmWrite (t fn cq : Nat) (value : BitVec 32) (s : State) : Host.Outcome State Fault Refusal :=
  act (fun d =>
    let d := advance t d
    let x := cqOf d cq
    if cq ≥ 64 || (x.enabled && x.fn != fn) then d
    else
      let arm := bitOf value.toNat 0
      let d := setCq cq { x with arm } d
      if arm && x.enabled && (x.tail != x.head || cqDue d x) then signalCq cq d else d) s

/-- CQ_SIGNAL (R436): an armed queue's oldest unsignalled entry has waited COALESCE_NS. -/
def execCqSignal (t cq : Nat) (s : State) : Host.Outcome State Fault Refusal :=
  act (fun d =>
    let d := advance t d
    let x := cqOf d cq
    if x.enabled && x.arm && cqDue d x then signalCq cq d else d) s

/-- A ring and a completion queue of a function that has been reset (R446). -/
def ringOff (fn : Nat) (x : Ring) : Ring :=
  if x.fn = fn then { x with state := 0, started := [], held := false, parkedStop := false, ticket := none } else x
def cqOff (fn : Nat) (x : Cq) : Cq :=
  if x.fn = fn then { x with enabled := false, reserved := 0, since := 0, arm := false } else x

/-- Rings and completion queues of a function go DISABLED at once, with no further access (R446); ledger slots that no
completion freed are exported again (R289). -/
def disableRings (fn : Nat) (d : Dev) : Dev :=
  let mine := d.dma.rings.filter fun (_, x) => x.fn == fn && x.state != 0
  let d := { d with dma := { d.dma with rings := d.dma.rings.map fun (r, x) => (r, ringOff fn x),
                                        cqs := d.dma.cqs.map fun (q, x) => (q, cqOff fn x) } }
  let hit := fun (ro : Option Nat) => mine.any fun (r, _) => ro == some r
  let l := d.ledger
  let d := { d with ledger := { l with exported := if hit l.recordRing then l.freeFrom else l.exported,
                                       sealExported := if hit l.sealRing then l.sealFree else l.sealExported } }
  mine.foldl (fun d (_, x) => completeOpt x.ticket stOk [] d) d

/-- Transactions whose mailbox has been reset have their turn and are answered to none (box 16). -/
def orphanJobs (fn : Nat) (d : Dev) : Dev :=
  let one := fun (j : I2cJob) => if boxFn d j.box = fn then { j with box := 16 } else j
  { d with masters := d.masters.map fun (m, x) => (m, { x with jobs := x.jobs.map one }) }

/-- FUNCTION_LEVEL_RESET (R407, R446): the function's rings, completion queues and mailboxes. `reading` names the INJECT
rings whose frame was partly read. -/
def execFunctionLevelReset (t fn : Nat) (reading : List Nat) (s : State) : Host.Outcome State Fault Refusal :=
  act (fun d =>
    let d := advance t d
    let cut := reading.eraseDups.filter fun r => let x := ringOf d r; x.fn == fn && x.kind == 3 && ringReady d r
    let d := disableRings fn (repeatCount 0x803 0 cut.length d)
    orphanJobs fn { d with boxes := d.boxes.filter fun (m, _) => boxFn d m != fn }) s

-- Commands (R447 to R449) --------------------------------------------------------------------------------------------------------------

/-- DMA_RING (R445, R447). `reread` holds bytes 0 to 7 of the descriptor a parked ring stands after. -/
def execDmaRing (c : Cmd) (reread : Option (List Byte)) (s : State) : Host.Outcome State Fault Refusal :=
  cmd 0x1101 16 8 c (fun q fn d =>
    let r := u16 q 0
    let kind := u8 q 2
    let flags := u8 q 3
    let x := ringOf d r
    let y := cqOf d (u8 q 6)
    if r > 2047 || flags > 7 || kind > 3 || (kind == 3) != decide (r ≥ 1024) || !within (u8 q 4) 6 16 || u8 q 5 > 3 || u8 q 6 > 63 || u8 q 7 = 0
        || u64 q 8 % 64 != 0 then rej stRange d
    else if x.state != 0 && x.fn != fn then rej stDenied d
    else if !bitOf flags 0 then
      if x.state = 5 then rej stConflict d
      else
        pend fn d (fun n d =>
          settleRing r reread (setRing r { x with state := 5, ticket := some n, parkedStop := x.state == 3, held := false,
                                                  tail := if x.state = 0 then x.head else x.tail } d))
    else if x.state != 0 || !y.enabled || y.fn != fn then rej stConflict d
    else
      okay (setRing r { fn, kind, state := 1, noSnoop := bitOf flags 1, relaxed := bitOf flags 2, sizeLog := u8 q 4, swap := u8 q 5,
                        cq := u8 q 6, weight := u8 q 7, base := u64 q 8, dbIgnored := x.dbIgnored, hostError := x.hostError } d)) s

/-- DMA_CQ (R448). -/
def execDmaCq (c : Cmd) (s : State) : Host.Outcome State Fault Refusal :=
  cmd 0x1102 24 4 c (fun q fn d =>
    let n := u8 q 0
    let x := cqOf d n
    let on := u8 q 1 == 1
    if n > 63 || u8 q 1 > 1 || !within (u8 q 2) 6 16 || u8 q 3 != 0 || !within (u16 q 4) 1 1024 || u16 q 6 != 0 || u32 q 8 > 1000000 || u32 q 12 != 0
        || u64 q 16 % 64 != 0 then rej stRange d
    else if x.enabled && x.fn != fn then rej stDenied d
    else if !on then
      if x.enabled && d.dma.rings.any (fun (_, y) => y.state != 0 && y.cq == n) then rej stConflict d
      else okay (setCq n { x with enabled := false, arm := false } d)
    else if x.enabled then rej stConflict d
    else okay (setCq n { fn, enabled := true, sizeLog := u8 q 2, coCount := u16 q 4, coNs := u32 q 8, base := u64 q 16 } d)) s

/-- DMA_PUNT (R449). -/
def execDmaPunt (c : Cmd) (s : State) : Host.Outcome State Fault Refusal :=
  cmd 0x1103 8 4 c (fun q fn d =>
    let r := u16 q 4
    let x := ringOf d r
    if u16 q 2 < u16 q 0 || u16 q 6 != 0 then rej stRange d
    else if r != 0xFFFF && !(decide (r < 1024) && x.kind == 1 && (x.state == 1 || x.state == 3) && x.fn == fn) then rej stRange d
    else okay { d with dma := { d.dma with punt := (u16 q 0, u16 q 2, ringName r) :: d.dma.punt } }) s

/-- The PUNT ring of a reason (R441, R449). -/
def puntRing (d : Dev) (reason : Nat) : Option Nat :=
  match d.dma.punt.find? (fun (a, b, _) => a ≤ reason && reason ≤ b) with
  | some (_, _, r) => r
  | none => none

end Sys2Proof.Machine
end

