-- ==== Sys2Proof/Machine/Helm.lean ====
section
/-!
DEFINITION. Helm (17_helm_mailboxes.md): identification, the event ring, firmware, tickets, and how Helm stops and
starts again.
-/

namespace Sys2Proof.Machine

/-- DEVICE_IDENTIFY (R420). -/
def execDeviceIdentify (c : Cmd) (s : State) : Host.Outcome State Fault Refusal :=
  cmd 0x0001 4 32 c (fun q _ d =>
    if !zerosAt q 0 4 then rej stRange d
    else
      let b := le 2 d.helm.fwRelease ++ (List.range 16).map Config.serial ++ [0x42, 0x30, 0x45]
        ++ [if Config.packingTray then 0x54 else 0x53] ++ le 4 (Config.bootCount.toNat + d.helm.boots) ++ le 4 Config.romId.toNat
      { dev := d, status := stOk, body := b }) s

/-- EVENT_CONFIGURE (R421, R428). -/
def execEventConfigure (c : Cmd) (s : State) : Host.Outcome State Fault Refusal :=
  cmd 0x0002 4 4 c (fun q fn d =>
    let r := u16 q 0
    let x := fnOf d fn
    if u16 q 2 != 0 || !nameable d fn r x.evRing then rej stRange d
    else okay (setFn fn { x with evRing := ringName r } d)) s

/-- FIRMWARE_UPDATE (R422): the image is read and written to the bank that does not run; FLASH_WRITE_DONE ends it. -/
def execFirmwareUpdate (c : Cmd) (s : State) : Host.Outcome State Fault Refusal :=
  cmd 0x0003 16 8 c (fun q fn d =>
    if u64 q 0 % 64 != 0 || u32 q 8 > 31457280 || !zerosAt q 12 4 then rej stRange d
    else if d.helm.update.isSome then rej stBusy d
    else pend fn d (fun n d => { d with helm := { d.helm with update := some (n, u64 q 0, u32 q 8) } })) s

def bankOf (d : Dev) (n : Nat) : Bank := if n = 0 then d.helm.bank0 else d.helm.bank1
def setBank (n : Nat) (b : Bank) (d : Dev) : Dev :=
  if n = 0 then { d with helm := { d.helm with bank0 := b } } else { d with helm := { d.helm with bank1 := b } }

/-- FLASH_WRITE_DONE (R422): `image` is what was read from host memory, `good` whether the flash took it, and `left` what
the bank holds where it did not. -/
def execFlashWriteDone (t : Nat) (image : Option (List Byte)) (good : Bool) (left : List Byte) (s : State) :
    Host.Outcome State Fault Refusal :=
  act (fun d =>
    let d := advance t d
    match d.helm.update with
    | none => d
    | some (n, _, len) =>
      let d := { d with helm := { d.helm with update := none } }
      let bank := 1 - d.helm.running
      match image with
      | none => completeTicket n stFault [] d
      | some b =>
        if !Config.imageSigned (padTo len b) then completeTicket n stFault [] d
        else if good then
          completeTicket n stOk [] (setBank bank { image := some (padTo len b) } { d with helm := { d.helm with marked := bank } })
        else completeTicket n stFault [] (report 0xB05 0x27 0 (setBank bank { image := some left } d))) s

/-- TICKET_STATUS (R423). -/
def execTicketStatus (c : Cmd) (s : State) : Host.Outcome State Fault Refusal :=
  cmd 0x0004 4 36 c (fun q _ d =>
    let n := u32 q 0
    match d.helm.done.find? (fun x => x.num == n) with
    | some x => { dev := d, status := stOk, body := [1, 0] ++ x.bytes }
    | none => if d.helm.open_.any (fun x => x.num == n) then { dev := d, status := stOk, body := [0, 0] } else rej stRange d) s

/-- UNKNOWN_OPCODE (R411, R419): an opcode of no command, or a request shorter than its command's fixed part; of a command whose
doorbell a register write rang, the request locked then is judged. -/
def execUnknownOpcode (c : Cmd) (opcode : Nat) (s : State) : Host.Outcome State Fault Refusal :=
  let b := boxOf s.dev c.box
  let req := if b.state == 1 && b.opcode == opcode % 65536 then b.req else c.req
  let short := match fixedRequest.find? (fun e => e.1 == opcode % 65536) with
    | some (_, n) => decide (req.length < n)
    | none => true
  if short then cmd (opcode % 65536) 0 4 c (fun _ _ d => rej stRange d) s else act (advance c.t) s

-- When Helm stops (R424 to R426) ---------------------------------------------------------------------------------------------

/-- Helm's STATE changes, and its vector goes to every function (R418). -/
def setHelmState (st : Nat) (d : Dev) : Dev :=
  if d.helm.state = st then d
  else
    let d := if d.helm.state = 1 then settleBad false d else if st = 1 then settleBad true d else d
    toBoth 3 { d with helm := { d.helm with state := st } }

/-- Ends the mailboxes whose command had been taken and not committed: ST_FAULT, with nothing changed (R425). -/
def endTaken (d : Dev) : Dev :=
  (d.boxes.filterMap fun (m, b) => if b.state == 1 && b.taken then some m else none).foldl
    (fun d m => respond m 4 (rej stFault d)) d

/-- HELM_WATCHDOG (R424): Helm restarts, or halts at the third expiry within 600 s, and BUSY mailboxes then stay BUSY (R426). -/
def execHelmWatchdog (t cpu : Nat) (s : State) : Host.Outcome State Fault Refusal :=
  act (fun d =>
    let d := advance t d
    if d.helm.state = 3 then d
    else
      let d := report (0xB00 + cpu % 4) 0x25 0 d
      let recent := d.helm.expiries.filter fun a => decide (d.clock - a < 9600000000000)
      let d := { d with helm := { d.helm with expiries := recent ++ [d.clock] },
                        masters := d.masters.map fun (m, x) => (m, { x with jobs := [] }) }
      if recent.length ≥ 2 then
        raise 0x0003 0xFFFF (d.helm.restarts + 256) [] (setHelmState 3 d)
      else setHelmState 2 { d with helm := { d.helm with restarts := min 255 (d.helm.restarts + 1) } }) s

/-- HELM_HEARTBEAT (R409). -/
def execHelmHeartbeat (t : Nat) (s : State) : Host.Outcome State Fault Refusal :=
  act (fun d =>
    let d := advance t d
    if d.helm.state = 1 then { d with helm := { d.helm with heartbeat := (d.helm.heartbeat + 1) % 2 ^ 32 } } else d) s

/-- EVENT_VECTOR (R417): records have been written, and the latest vector is at least 10 µs old. -/
def execEventVector (t fn : Nat) (s : State) : Host.Outcome State Fault Refusal :=
  act (fun d =>
    let d := advance t d
    let x := fnOf d fn
    let due := match x.evTold with | some a => decide (d.clock - a ≥ 160000) | none => true
    if x.evWritten > 0 && due then emit (.msix fn 2) (setFn fn { x with evWritten := 0, evTold := some d.clock } d) else d) s

end Sys2Proof.Machine
end

