-- ==== Sys2Proof/Machine/Counter.lean ====
section
/-!
DEFINITION. Counters and bandwidth windows (19_counters.md): programs and epoch boundaries, snapshots, windows, and the
BAR2 window's reads.
-/

namespace Sys2Proof.Machine

/-- How many instances an event's scope has, and whether it may count bytes (R451); none for an unknown code. -/
def eventScope (e : Nat) : Option (Nat × Bool) :=
  if e = 0 then some (1048576, true)
  else if within e 0x100 0x117 then some (512, e == 0x100)
  else if within e 0x200 0x20D then some (512, e == 0x200)
  else if within e 0x300 0x317 then some (8, e == 0x300)
  else if within e 0x340 0x34B then some (8, false)
  else if within e 0x400 0x402 then some (65536, true)
  else if within e 0x500 0x50D then some (2, false)
  else if within e 0x600 0x603 then some (64, false)
  else if e = 0x610 then some (256, false)
  else if within e 0x700 0x702 then some (32768, true)
  else if within e 0x800 0x80C then some (1, false)
  else none

/-- Time of the island that holds a counter's bank (R450, R455). -/
def bankTicks (d : Dev) (c : Nat) : Nat := islandTicks d (if c < 0x80000 then 0x48 else 0x49)

/-- The first counter epoch boundary at least `after` ticks from now (R455). -/
def nextBoundary (d : Dev) (c after : Nat) : Nat := ceilDiv (bankTicks d c + after) 65536 * 65536

/-- A run of counters overlaps a bandwidth window's block (R455, R464). -/
def inWindow (d : Dev) (first n : Nat) : Bool := d.counters.windows.any fun w => w.base < first + n && first < w.base + 8

/-- COUNTER_PROGRAM (R451, R455, R462). -/
def execCounterProgram (c : Cmd) (s : State) : Host.Outcome State Fault Refusal :=
  cmd 0x1201 16 8 c (fun q fn d =>
    let first := u32 q 0
    let n := u32 q 4
    let chain := u8 q 11 == 1
    let inst := u32 q 12
    let insts := if chain then n / 2 else n
    match eventScope (u16 q 8) with
    | none => rej stRange d
    | some (scope, bytes) =>
      if !within n 1 65536 || first + n > 1048576 || u8 q 10 > 1 || u8 q 11 > 1 || (chain && (first % 2 != 0 || n % 2 != 0))
          || (u8 q 10 == 1 && !bytes) || (u16 q 8 != 0 && inst + insts > scope) then rej stRange d
      else if inWindow d first n then rej stConflict d
      else
        let p : Prog := { event := u16 q 8, inst := if u16 q 8 = 0 then 0 else inst, bytes := u8 q 10 == 1, chain }
        let b := nextBoundary d first 16000
        pend fn d (fun k d => { d with counters := { d.counters with pending := d.counters.pending ++
          [{ boundary := b, runFirst := first, runCount := n, prog := p, ticket := some k }] } })) s

/-- One counter takes a new program and the value 0, with its high half where it is or was chained (R455). -/
def programOne (c : Nat) (p : Prog) (d : Dev) : Dev :=
  let old := progOf d c
  if c % 2 = 1 && isHighHalf d c then { d with counters := { d.counters with progs := tput none c (some p) d.counters.progs } }
  else
    let d := { d with counters := { d.counters with progs := tput none c (some p) d.counters.progs } }
    let d := setCounter c 0 d
    if c % 2 = 0 && (p.chain || old.chain) then setCounter (c + 1) 0 d else d

/-- A run of programs takes effect: counter FIRST + i, or FIRST + 2i with CHAIN, takes INSTANCE + i (R462). -/
def programRun (p : PendProg) (d : Dev) : Dev :=
  let step := if p.prog.chain then 2 else 1
  let one := fun (d : Dev) (i : Nat) =>
    programOne (p.runFirst + step * i) { p.prog with inst := if p.prog.event = 0 || p.prog.event = 0x900 then p.prog.inst else p.prog.inst + i } d
  completeOpt p.ticket stOk (le 8 p.boundary) ((List.range (p.runCount / step)).foldl one d)

/-- COUNTER_SNAPSHOT (R456, R457, R463): the capture waits for a boundary, the image for the Steward. -/
def execCounterSnapshot (c : Cmd) (s : State) : Host.Outcome State Fault Refusal :=
  cmd 0x1202 20 8 c (fun q fn d =>
    let recover := bitOf (u8 q 16) 1
    let n := match d.counters.shadow with
      | some x => if recover then x.2.1.length else u32 q 4
      | none => u32 q 4
    if !within (u32 q 4) 1 1048576 || u32 q 0 + u32 q 4 > 1048576 || u64 q 8 % 64 != 0 || u8 q 16 > 3 || !zerosAt q 17 3
        || u64 q 8 + 4 * n > spillBytes d then rej stRange d
    else if recover && d.counters.shadow.isNone then rej stConflict d
    else if opVerdict d 0x0F 0 != stOk then rej (opVerdict d 0x0F 0) d
    else
      pend fn d (fun k d =>
        addOp 0x0F k fn q [] 0 { d with counters := { d.counters with snaps := d.counters.snaps ++
          [{ first := u32 q 0, count := n, offset := u64 q 8, clear := bitOf (u8 q 16) 0, recover, ticket := some k, due := nextBoundary d 0 1,
             boundary := if recover then d.counters.shadow.map (·.2.2) else none }] } })) s

/-- What a counter of a run holds once the run is cleared in this bank cycle: the cycle's increments, which count after the clear; in a
chained pair the low half's carry is not one of them (R456). -/
def sinceCycle (d : Dev) (first c : Nat) : Nat :=
  let borrow := isHighHalf d c && decide (first < c) && decide (counterWord d (c - 1) < counterSeen d (c - 1))
  (counterWord d c + 2 ^ 32 - counterSeen d c - b2n borrow) % 2 ^ 32

/-- Clears a run of counters (R456): what a read of this cycle would return of each is 0 from here on. -/
def clearRun (first n : Nat) (d : Dev) : Dev :=
  (List.range n).foldl (fun e i =>
    let e := setCounter (first + i) 0 e
    if sinceCycle d first (first + i) = 0 then e else bumpCounter (first + i) (sinceCycle d first (first + i)) e) d

/-- The first snapshot in the queue captures its run into the shadow bank, and clears it where CLEAR is set (R453, R456). -/
def captureSnap (boundary : Nat) (d : Dev) : Dev :=
  match d.counters.snaps with
  | sn :: rest =>
    if sn.boundary.isSome || boundary < sn.due then d
    else
      let vs := (List.range sn.count).map fun i => counterSeen d (sn.first + i)
      let d := { d with counters := { d.counters with shadow := some (sn.first, vs, boundary),
                                                      snaps := { sn with boundary := some boundary } :: rest } }
      if sn.clear then clearRun sn.first sn.count d else d
  | [] => d

/-- COUNTER_EPOCH_BOUNDARY (R455, R456): programs whose boundary has come take effect, and a snapshot captures. -/
def execCounterEpochBoundary (t : Nat) (s : State) : Host.Outcome State Fault Refusal :=
  act (fun d =>
    let d := advance t d
    let due := d.counters.pending.filter fun p => decide (p.boundary ≤ bankTicks d p.runFirst)
    let d := { d with counters := { d.counters with pending := d.counters.pending.filter fun p => !decide (p.boundary ≤ bankTicks d p.runFirst) } }
    let d := captureSnap (bankTicks d 0 / 65536 * 65536) d
    due.foldl (fun d p => programRun p d) d) s

/-- COUNTER_SNAP ends (R456): the shadows stand in the spill region; with a channel of it out of service the write fails (R343). -/
def endSnap (o : Op) (d : Dev) : Dev :=
  match d.counters.snaps.find? (fun x => x.ticket == some o.ticket), d.counters.shadow with
  | some sn, some (_, held, b) =>
    let vs := held.take sn.count
    let good := storable d (spillBase d + sn.offset) (4 * vs.length)
    let d := memStore (spillBase d + sn.offset) (vs.flatMap (le 4)) d
    let d := { d with counters := { d.counters with snaps := d.counters.snaps.filter (fun x => x.ticket != some o.ticket),
                                                    image := some (sn.offset, 4 * vs.length, good) } }
    endOp o (if good then stOk else stFault) (if good then le 8 b else []) d
  | _, _ => endOp o stFault [] d

/-- COUNTER_SNAP is aborted: its image is invalid, and the shadows stay (R457). -/
def abortSnap (o : Op) (d : Dev) : Dev :=
  match d.counters.snaps.find? (fun x => x.ticket == some o.ticket) with
  | some sn =>
    endOp o stFault [] { d with counters := { d.counters with snaps := d.counters.snaps.filter (fun x => x.ticket != some o.ticket),
                                                              image := some (sn.offset, 4 * sn.count, false) } }
  | none => endOp o stFault [] d

-- Windows (R459 to R461, R464) -------------------------------------------------------------------------------------------------

/-- Programs a window's block at the next boundary: four chained pairs of EVENT 0x900, or eight counters of EVENT 0x000
(R460, R464). -/
def programBlock (base : Nat) (on : Bool) (d : Dev) : Dev :=
  let p : PendProg := { boundary := nextBoundary d base 1, runFirst := base, runCount := 8,
                        prog := if on then { event := 0x900, chain := true } else {}, ticket := none }
  { d with counters := { d.counters with pending := d.counters.pending ++ [p] } }

/-- The settings that a window had, once new ones take over at tick `at_`: what they began before closes; on another block they end at
once (R461, log 115). -/
def outgoing (port dir base at_ : Nat) (ws : List Window) : List Window :=
  let one := fun (w : Window) =>
    if !(w.port == port && w.dir == dir) then some w
    else if w.base == base then some { w with until_ := some (min at_ (w.until_.getD at_)) }
    else none
  ws.filterMap one

/-- COUNTER_WINDOW (R459, R461, R464). -/
def execCounterWindow (c : Cmd) (s : State) : Host.Outcome State Fault Refusal :=
  cmd 0x1203 16 4 c (fun q _ d =>
    let port := u16 q 0
    let dir := u8 q 2
    let len := u32 q 4
    let subs := u16 q 8
    let base := u32 q 12
    let old := d.counters.windows.find? fun w => w.port == port && w.dir == dir && w.until_.isNone
    let others := d.counters.windows.filter fun w => !(w.port == port && w.dir == dir)
    if portUnused d port || dir > 1 || u8 q 3 > 1 || u16 q 10 != 0 || !within len 1 1000000 || !within subs 1 1024
        || len * 1000 % subs != 0 || len * 1000 / subs < 64 || base % 8 != 0 || base + 8 > 1048576 then rej stRange d
    else if u8 q 3 = 0 then
      match old with
      | some w => okay (programBlock w.base false { d with counters := { d.counters with windows := others } })
      | none => okay d
    else if others.any (fun w => w.base == base) then rej stConflict d
    else
      let at_ := ceilDiv (bankTicks d base) (len * 16000) * (len * 16000)
      let w : Window := { port, dir, length := len, subs, base, from_ := at_ }
      let d' := { d with counters := { d.counters with windows := outgoing port dir base at_ d.counters.windows ++ [w] } }
      match old with
      | some w => if w.base = base then okay d' else okay (programBlock base true (programBlock w.base false d'))
      | none => okay (programBlock base true d')) s

/-- The latest end of a window of these settings that is due to close: 16.384 µs old, and no later than the first window of the settings
that replace them (R460, R461). -/
def windowEnd (d : Dev) (w : Window) : Nat :=
  let ticks := bankTicks d w.base - 262144
  min ticks (w.until_.getD ticks) / (w.length * 16000) * (w.length * 16000)

/-- Chained pairs from a counter on take values of 64 bits (R452). -/
def setPairs (base : Nat) (vs : List Nat) (d : Dev) : Dev :=
  vs.zipIdx.foldl (fun d e => setCounter (base + 2 * e.2 + 1) (e.1 / 2 ^ 32) (setCounter (base + 2 * e.2) e.1 d)) d

/-- A window's four chained pairs are written at once: bytes, frames, peak and the TICKS of its end; zeros where the Port is not UP
(R460, R461). -/
def closeWindow (w : Window) (d : Dev) : Dev :=
  let len := w.length * 16000
  let end_ := windowEnd d w
  if end_ < w.from_ + len then d
  else
    let mine := if (portOf d w.port).state = 4 then w.counts.filter fun e => e.1 == end_ - len else []
    let bytes := mine.foldl (fun a (_, _, n, _) => a + n) 0
    let frames := mine.foldl (fun a (_, _, _, k) => a + k) 0
    let peak := mine.foldl (fun a (_, _, n, _) => max a n) 0
    let w' := { w with counts := w.counts.filter fun e => decide (e.1 ≥ end_), from_ := end_ }
    setPairs w.base [bytes, frames, peak, end_]
      { d with counters := { d.counters with windows := d.counters.windows.map fun x => if x = w then w' else x } }

/-- Settings that have been replaced and close no window any more (R461). -/
def spent (d : Dev) (w : Window) : Bool := w.until_.any fun u => decide (u + 262144 ≤ bankTicks d w.base)

/-- WINDOW_CLOSE (R460, R461): 16.384 µs after a window's end it closes. -/
def execWindowClose (t port dir : Nat) (s : State) : Host.Outcome State Fault Refusal :=
  act (fun d =>
    let d := advance t d
    let mine := d.counters.windows.filter fun w => w.port == port && w.dir == dir
    let d := mine.foldl (fun d w => closeWindow w d) d
    { d with counters := { d.counters with windows := d.counters.windows.filter fun w => !(w.port == port && w.dir == dir && spent d w) } }) s

-- BAR2 (R454) ---------------------------------------------------------------------------------------------------------------------

/-- COUNTER_READ (R453, R454): what a BAR2 read of `len` bytes at `off` returns; a 4-byte read of an even counter loads the
function's pair latch. -/
def execCounterRead (t fn off len : Nat) (s : State) : Host.Outcome State Fault Refusal :=
  act (fun d =>
    let d := advance t d
    let n := off / 4
    let x := fnOf d fn
    if !(functions d).contains fn then d
    else if len = 4 && off % 4 = 0 then
      if n % 2 = 0 then emit (.readData fn off (le 4 (counterSeen d n))) (setFn fn { x with pairLatch := counterSeen d (n + 1) } d)
      else emit (.readData fn off (le 4 (if isHighHalf d n then x.pairLatch else counterSeen d n))) d
    else
      let bytes := (List.range (len / 4 + 2)).flatMap fun i => le 4 (counterSeen d (n + i))
      emit (.readData fn off ((bytes.drop (off % 4)).take len)) d) s

end Sys2Proof.Machine
end

