-- ==== Sys2Proof/Machine/Collector.lean ====
section
/-!
DEFINITION. The Fault Collector (14_collector.md): taking messages, severity, capture, reaction, clears, and its commands.
-/

namespace Sys2Proof.Machine

def classOf (d : Dev) (c : Nat) : Class := tget {} d.coll.classes c
def setClass (c : Nat) (x : Class) (d : Dev) : Dev := { d with coll := { d.coll with classes := tput {} c x d.coll.classes } }

/-- The count of a class's open window after one more message, opening a window where none is open (R357). -/
def countWindow (x : Class) (clock : Nat) : Class :=
  match x.openAt with
  | some o => if clock - o < x.w * 16000 then { x with seen := x.seen + 1 } else { x with openAt := some clock, seen := 1 }
  | none => { x with openAt := some clock, seen := 1 }

/-- Stored bits [45:40] of a history entry (R364). -/
def storedBits (simul severe reacted : Bool) (mode : Nat) : Nat :=
  2 ^ 40 * (b2n simul + 2 * b2n severe + 4 * b2n reacted + 8 * (mode % 4))

/-- Whether a severe message of this source and kind is a guard-bit fault that triggers a reaction in the unit's role
(R359). -/
def triggers (d : Dev) (source kind : Nat) : Bool :=
  isGuardKind kind && tget false d.coll.guard source

/-- The unit reacts to a guard-bit fault: safe state in solo mode, a yield or STALE in a Pair (R359). -/
def reacts (d : Dev) : Bool := d.pair.mode == 0 || d.pair.role ≤ 2

/-- Raises INT_PENDING: a rise sends the FAULT vector (R362). -/
def raiseInt (d : Dev) : Dev :=
  if d.coll.intPending then d else toBoth 0 { d with coll := { d.coll with intPending := true } }

/-- A history entry that failed its DEC-TED check reads as 0 until it is written again (R364). -/
def loseHist (i : Nat) (d : Dev) : Dev := { d with coll := { d.coll with hist := tput (0, 0) i (0, 0) d.coll.hist } }

/-- The Collector takes one message: counts, history, and for a severe one the status bit, the interrupt, FIRST and the
start of the reaction (R358, R364); HISTORY_UNCORR names the entry that is lost. Answers whether it triggers. -/
def takeOne (simul : Bool) (w : Word64) (d : Dev) : Dev × Bool :=
  let src := msgSource w
  let kind := msgKind w
  let cls := src / 256
  let x := countWindow (classOf d cls) d.clock
  let severe := d.coll.mode == 0 || decide (x.n ≤ x.seen)
  let x := { (if d.coll.mode == 0 then classOf d cls else x) with count := min (x.count + 1) 0xFFFFFFFF }
  let trig := severe && triggers d src kind
  let stored := BitVec.ofNat 64 (src * 2 ^ 52 + kind * 2 ^ 46 + storedBits simul severe (trig && reacts d) d.coll.mode + msgAddr w)
  let tick := islandTicks d 0x4C
  let d := setClass cls x d
  let d := if src / 256 = 0xF && kind = 0x34 then loseHist (msgAddr w % 32) d else d
  let std := d.coll.profile == 0
  let i := tget {} d.coll.info src
  let d := { d with coll := { d.coll with
    info := if std then tput {} src { i with count := min (i.count + 1) 0xFFFF, lastKind := kind } d.coll.info else d.coll.info,
    hist := if std then tput (0, 0) (d.coll.histCount % 32) (stored, tick) d.coll.hist else d.coll.hist,
    histCount := if std then (d.coll.histCount + 1) % 2 ^ 32 else d.coll.histCount } }
  let d := if tget false d.coll.guard src then noteBad d else d
  if severe then
    let d := { d with coll := { d.coll with status := tput false src true d.coll.status } }
    let d := if d.coll.firstValid || d.guard.cause != 0 then d
      else { d with coll := { d.coll with firstValid := true, firstMsg := stored, firstTick := tick } }
    (raiseInt d, trig)
  else (d, false)

/-- Takes the messages of one cycle, ascending by source (R354). -/
def takeAll (simul : Bool) : List Word64 → Dev → Dev × List Nat
  | [], d => (d, [])
  | w :: ws, d =>
    let (d, trig) := takeOne simul w d
    let (d, rest) := takeAll simul ws d
    (d, if trig then msgSource w :: rest else rest)

/-- The reporters let go of the messages the Collector takes (R353). -/
def dequeueMsg (w : Word64) (d : Dev) : Dev :=
  { d with coll := { d.coll with reporters := tmod {} (msgSource w) (fun r => { r with queue := r.queue.erase w }) d.coll.reporters } }

/-- The first message of each source (R353). -/
def oneEach : List Word64 → List Word64
  | [] => []
  | w :: ws => w :: (oneEach ws).filter fun x => msgSource x != msgSource w

/-- A crossing of the Steward's own routine times out: an abort of it is pending, where it may be aborted (R382). -/
def crossingTimeout (d : Dev) : Dev :=
  let hit := fun (o : Op) => o.state == 1 && opAbortable o.code && !o.past
  { d with steward := { d.steward with ops := d.steward.ops.map fun o => if hit o then { o with aborting := true } else o } }

/-- A message waits in its source's reporter (R353, R354); a handshake of the Steward not completed in time is the routine's own (R382). -/
def leaveMsg (w : Word64) (d : Dev) : Dev :=
  if (tget {} d.coll.reporters (msgSource w)).queue.contains w then d
  else
    let d := report (msgSource w) (msgKind w) (msgAddr w) d
    if msgSource w = 0xA00 && msgKind w = 0x11 then crossingTimeout d else d

/-- The message that a reporter sends next: its oldest, else the one given (R353). -/
def nextMsg (d : Dev) (w : Word64) : Word64 := (tget {} d.coll.reporters (msgSource w)).queue.headD w

/-- One cycle of the Collector: up to 16 messages, the oldest of each source and the lowest sources first; the others wait. Several
triggering messages cause one reaction (R353, R354, R359). -/
def takeMessages (msgs : List Word64) (d : Dev) : Dev :=
  let msgs := msgs.map fun w => faultWord (msgSource w) (msgKind w) (msgAddr w)
  let d := msgs.foldl (fun d w => leaveMsg w d) d
  let ws := ((sortBy msgSource (oneEach msgs)).take 16).map (nextMsg d)
  let d := ws.foldl (fun d w => dequeueMsg w d) d
  let (d, starters) := takeAll (decide (ws.length > 1)) ws d
  if starters.isEmpty then d
  else if d.pair.mode == 0 then
    let d := { d with guard := { d.guard with starters := (d.guard.starters ++ starters).eraseDups } }
    enterSafe 1 d
  else yieldUnit d

/-- FAULT_MESSAGE (R358): the Collector takes the messages of one cycle. -/
def execFaultMessage (t : Nat) (msgs : List Word64) (s : State) : Host.Outcome State Fault Refusal :=
  act (fun d => takeMessages msgs (advance t d)) s

/-- COALESCED (R353): a reporter with room sends one message with the count of those it did not queue. -/
def execCoalesced (t source : Nat) (s : State) : Host.Outcome State Fault Refusal :=
  act (fun d =>
    let d := advance t d
    let r := tget {} d.coll.reporters source
    if r.dropped = 0 || r.queue.length ≥ 16 then d
    else
      let r' : Reporter := { queue := r.queue ++ [faultWord source 0x35 r.dropped], dropped := 0 }
      { d with coll := { d.coll with reporters := tput {} source r' d.coll.reporters } }) s

/-- DUPLICATE_MISMATCH (R366): the two copies of a register differ: safe state with cause 2, SELF_OK clears, and
COLLECTOR_MISMATCH is recorded from source 0xF00. -/
def execDuplicateMismatch (t : Nat) (s : State) : Host.Outcome State Fault Refusal :=
  act (fun d =>
    let d := advance t d
    let d := enterSafe 2 { d with coll := { d.coll with selfOk := false } }
    takeMessages [faultWord 0xF00 0x33 0] d) s

/-- CONDITION_END (R355): the source's PRESENT line falls. -/
def execConditionEnd (t source kind : Nat) (s : State) : Host.Outcome State Fault Refusal :=
  act (fun d => endCondition source kind (advance t d)) s

/-- A mode change takes effect and restarts every window (R357, R368). -/
def setMode (m : Nat) (d : Dev) : Dev :=
  if m = d.coll.mode then d
  else { d with coll := { d.coll with mode := m, classes := d.coll.classes.map fun (k, x) => (k, { x with openAt := none, seen := 0 }) } }

/-- RECOVERY_TIME_EXPIRY (R356): RECOVERY_TIME after warm-reset replay completed, RECOVERY gives way to SERVICE. -/
def execRecoveryTimeExpiry (t : Nat) (s : State) : Host.Outcome State Fault Refusal :=
  act (fun d =>
    let d := advance t d
    match d.coll.replayDone with
    | some a => if d.coll.mode = 3 && d.clock - a ≥ d.coll.recoveryTime * 16000000000 then setMode 0 { d with coll := { d.coll with replayDone := none } } else d
    | none => d) s

/-- Clears one STATUS bit: refused and counted while the source's PRESENT line is high (R365). -/
def clearStatus (src : Nat) (d : Dev) : Dev :=
  if !tget false d.coll.status src then d
  else if !(tget [] d.coll.present src).isEmpty then
    let i := tget {} d.coll.info src
    let info := if d.coll.profile = 0 then tput {} src { i with refused := min (i.refused + 1) 0xFF } d.coll.info else d.coll.info
    { d with coll := { d.coll with refused := (d.coll.refused + 1) % 2 ^ 32, info } }
  else { d with coll := { d.coll with status := tput false src false d.coll.status } }

/-- Of the sources that started cause 1 those still do whose STATUS bit has stayed set (R365). -/
def keepStarters (d : Dev) : Dev :=
  { d with guard := { d.guard with starters := d.guard.starters.filter fun k => tget false d.coll.status k } }

/-- STATUS_CLEAR (R365): a write to COLLECTOR.STATUS[word]; a severe message of the same cycle sets its bit again
(R11). -/
def execStatusClear (t _fn word : Nat) (bits : BitVec 32) (msgs : List Word64) (s : State) : Host.Outcome State Fault Refusal :=
  act (fun d =>
    let d := advance t d
    let d := if word < 128 then
      ((List.range 32).filter (fun b => bits.getLsbD b)).foldl (fun d b => clearStatus (32 * word + b) d) d else d
    keepStarters (if msgs.isEmpty then d else takeMessages msgs d)) s

/-- INT_PENDING_CLEAR (R362): the bit clears; a severe message of the same cycle leaves it set and sends a new message. -/
def execIntPendingClear (t _fn : Nat) (msgs : List Word64) (s : State) : Host.Outcome State Fault Refusal :=
  act (fun d =>
    let d := advance t d
    let d := { d with coll := { d.coll with intPending := false } }
    if msgs.isEmpty then d else takeMessages msgs d) s

/-- FIRST_VALID_CLEAR (R358): a new capture is armed. -/
def execFirstValidClear (t _fn : Nat) (msgs : List Word64) (s : State) : Host.Outcome State Fault Refusal :=
  act (fun d =>
    let d := advance t d
    let d := { d with coll := { d.coll with firstValid := false } }
    if msgs.isEmpty then d else takeMessages msgs d) s

/-- CLASS_COUNT_READ (R11): the read returns the count and clears it; a message of the same cycle counts after the
clear. -/
def execClassCountRead (t fn cls : Nat) (msgs : List Word64) (s : State) : Host.Outcome State Fault Refusal :=
  act (fun d =>
    let d := advance t d
    let x := classOf d cls
    let d := if cls < 16 then emit (.readData fn (0x20080 + 4 * cls) (le 4 x.count)) (setClass cls { x with count := 0 } d) else d
    if msgs.isEmpty then d else takeMessages msgs d) s

/-- COLLECTOR_MODE (R368). -/
def execCollectorMode (c : Cmd) (s : State) : Host.Outcome State Fault Refusal :=
  cmd 0x0E01 4 4 c (fun q _ d =>
    let m := u8 q 0
    let r := orDefault (u16 q 2) 10
    if m = 1 || m > 3 || u8 q 1 != 0 || !within r 1 3600 then rej stRange d
    else okay (setMode m { d with coll := { d.coll with recoveryTime := r } })) s

/-- The GUARD bits of a run of sources. -/
def setGuards (first value : Nat) : Nat → Dev → Dev
  | 0, d => d
  | n + 1, d => setGuards (first + 1) value n { d with coll := { d.coll with guard := tput false first (value == 1) d.coll.guard } }

/-- COLLECTOR_GUARD (R369). -/
def execCollectorGuard (c : Cmd) (s : State) : Host.Outcome State Fault Refusal :=
  cmd 0x0E02 8 4 c (fun q _ d =>
    let first := u16 q 0
    let n := u16 q 2
    if first > 0xFFF || n = 0 || first + n > 4096 || u8 q 4 > 1 || !zerosAt q 5 3 then rej stRange d
    else okay (setGuards first (u8 q 4) n d)) s

/-- COLLECTOR_THRESHOLD (R370). -/
def execCollectorThreshold (c : Cmd) (s : State) : Host.Outcome State Fault Refusal :=
  cmd 0x0E03 8 4 c (fun q _ d =>
    let k := u8 q 0
    let n := u8 q 1
    let w := u32 q 4
    if k > 15 || n = 0 || !zerosAt q 2 2 || !within w 1 10000000 then rej stRange d
    else okay (setClass k { classOf d k with n, w, openAt := none, seen := 0 } d)) s

end Sys2Proof.Machine
end

