-- ==== Sys2Proof/Machine/Guard.lean ====
section
/-!
DEFINITION. Guarded delivery (02_guarded_delivery.md): the stream table, acceptance deadlines, the Hold Pool and retention,
supply freezes, and the way out of the safe state.
-/

namespace Sys2Proof.Machine

/-- Whether any frame of a stream is in flight or queued, or any Hold copy of it is held (R38); one that its action assigns and that is not
yet confirmed is of the stream too. -/
def streamBusy (d : Dev) (st : Nat) : Bool :=
  d.frames.any (fun (_, f) => f.stream == some st || (decide (f.state < 2) && f.wants == some st)) || d.guard.holds.any (fun h => h.stream == st)

/-- The response of `guard.stream` from STATE on; the fields of slots not in force read 0 (DESIGN CHOICE, log 99). -/
def streamBody (d : Dev) (st : Nat) : List Byte :=
  let x := streamOf d st
  le 1 (b2n (!x.slots.isEmpty) + 2 * b2n x.diverged) ++ le 1 x.slots.length ++ le 2 x.ingress ++ le 2 0 ++ le 4 x.next
    ++ x.slots.flatMap (fun sl => le 2 sl.port ++ le 2 sl.queue ++ le 4 sl.lastSent)

/-- The slots a set names. -/
def slotsIn (q : List Byte) (n base : Nat) : List Slot :=
  (List.range n).map fun i => { port := u16 q (12 + 4 * i), queue := u16 q (14 + 4 * i), lastSent := (base + 2 ^ 32 - 1) % 2 ^ 32 }

/-- The Retained copies of a stream's earlier configuration are replayed no more; they keep their room in the ring (R38, R53, log 98). -/
def forgetRetained (st : Nat) (d : Dev) : Dev :=
  { d with guard := { d.guard with retains := d.guard.retains.map fun r => if r.stream == st then { r with lost := true } else r } }

/-- `guard.stream` on a unit that may take it: set, remove or read (R37, R38). EGRESS_PORT and QUEUE beyond SLOTS are not looked at, whatever
they hold (DESIGN CHOICE, log 99). -/
def guardStreamBody (q : List Byte) (d : Dev) : Reply :=
  let st := u16 q 0
  let op := u8 q 2
  let n := u8 q 3
  let ingress := u16 q 4
  let slots := slotsIn q n (u32 q 8)
  let ports := slots.map (·.port)
  if op > 2 || !zerosAt q 6 2 then rej stRange d
  else if op = 0 then
    if !within n 1 4 || portUnused d ingress || ports.any (portUnused d) || ports.eraseDups.length != n
        || slots.any (fun sl => sl.queue ≥ (queueRange d sl.port).2) then rej stRange d
    else if (ingress :: ports).any (portPooled d) then rej stConflict d
    else if !(streamOf d st).slots.isEmpty && streamBusy d st then rej stConflict d
    else
      let d := setStream st { slots, ingress, next := u32 q 8 } (forgetRetained st d)
      { dev := d, status := stOk, body := streamBody d st }
  else if n != 0 then rej stRange d
  else if op = 1 then
    if !(streamOf d st).slots.isEmpty && streamBusy d st then rej stConflict d
    else let d := setStream st {} (forgetRetained st d); { dev := d, status := stOk, body := streamBody d st }
  else { dev := d, status := stOk, body := streamBody d st }

/-- GUARD_STREAM (R38): set and remove are the sending unit's, and are mirrored. -/
def execGuardStream (c : Cmd) (s : State) : Host.Outcome State Fault Refusal :=
  cmd 0x0302 28 44 c (fun q _ d =>
    if u8 q 2 < 2 && !sendingUnit d then rej stDenied d
    else
      let r := guardStreamBody q d
      if u8 q 2 < 2 && effective r.status then { r with dev := mirror 0x0302 0 q none r.dev } else r) s

/-- A cause that still holds: a starter's STATUS bit (cause 1), VIN low (4), the disagreement (5); causes 2 and 3 never
leave (R56, R58, R365). -/
def causeAsserted (d : Dev) (c : Nat) : Bool :=
  c == 2 || c == 3 || (c == 1 && d.guard.starters.any (fun x => tget false d.coll.status x))
    || (c == 4 && (tget [] d.coll.present 0xE1F).contains 0x2F) || (c == 5 && (d.time.mismatch.isSome || d.time.unresolved))

/-- Leaving the safe state: a solo device resumes acceptance and sends each stream's held accepted frames above
last-sent; a unit of a Pair returns as STALE (R58). -/
def leaveSafe (d : Dev) : Dev :=
  let old := d.guard.cause
  let d := { d with guard := { d.guard with cause := 0, more := [], starters := [] },
                    ports := d.ports.map fun (p, x) => (p, if stopInSafeFlag x then { x with txOff := false } else x) }
  let d := toBoth 1 (raise 0x0004 0xFFFF (16 * old) [] d)
  if d.pair.mode = 1 then changeRole 3 20 d
  else
    let d := unfreeze d
    releaseHolds (fun h => h.frame.outcome == some 0) (d.frames.foldl (fun d (i, _) => tryAccept i d) d)

/-- GUARD_SAFE_EXIT (R58). -/
def execGuardSafeExit (c : Cmd) (s : State) : Host.Outcome State Fault Refusal :=
  cmd 0x0301 4 8 c (fun q _ d =>
    if !zerosAt q 0 4 then rej stRange d
    else if d.guard.cause = 0 then { dev := d, status := stOk, body := le 2 0 ++ le 4 (safeStatus d) }
    else if (d.guard.cause :: d.guard.more).any (causeAsserted d) then
      { dev := d, status := stDenied, body := le 2 0 ++ le 4 (safeStatus d) }
    else let d := leaveSafe d; { dev := d, status := stOk, body := le 2 0 ++ le 4 (safeStatus d) }) s

/-- VIN_LOW (R52): VIN below 11.0 V for 200 ns freezes guarded egress, and LEAVING is driven (R302). -/
def execVinLow (t : Nat) (s : State) : Host.Outcome State Fault Refusal :=
  act (fun d =>
    let d := freeze (report 0xE1F 0x2F 0 (advance t d))
    { d with guard := { d.guard with leaving := true } }) s

/-- VIN_RECOVER (R52): after a supply-fail freeze the device enters the safe state with cause 4. -/
def execVinRecover (t : Nat) (s : State) : Host.Outcome State Fault Refusal :=
  act (fun d =>
    let d := endCondition 0xE1F 0x2F (advance t d)
    if d.guard.leaving && d.guard.frozen then enterSafe 4 { d with guard := { d.guard with leaving := false } } else d) s

/-- FREEZE_STORE_DONE (R50 step 5): the closed table and each stream's next sequence are in the retained region. -/
def execFreezeStoreDone (t : Nat) (s : State) : Host.Outcome State Fault Refusal :=
  act (fun d =>
    let d := advance t d
    if d.guard.storing then
      let table := d.guard.streams.map fun (i, x) => (i, x.next, x.slots.map (·.lastSent))
      { d with guard := { d.guard with storing := false, stored := some table } }
    else d) s

/-- A frame ends with an outcome once its deadline has passed without acceptance (R42). -/
def deadline (frame ticks code : Nat) (d : Dev) : Dev :=
  let f := frameOf d frame
  match f.confirmed with
  | some a => if f.seq.isSome && f.outcome.isNone && d.clock - a ≥ ticks then setOutcome frame code d else d
  | none => d

/-- RECEIPT_DEADLINE (R42): no receipt 1 µs after confirmation ends NO_RECEIPT. -/
def execReceiptDeadline (t frame : Nat) (s : State) : Host.Outcome State Fault Refusal :=
  act (fun d => let d := advance t d; if (frameOf d frame).cond = 2 then deadline frame 16000 3 d else d) s

/-- RETENTION_DEADLINE (R42): no retention write 20 µs after confirmation ends RETAIN_LATE; with the write done, acceptance has been
suspended all the while, and the frame ends SUSPENDED (log 49). -/
def execRetentionDeadline (t frame : Nat) (s : State) : Host.Outcome State Fault Refusal :=
  act (fun d =>
    let d := advance t d
    if (frameOf d frame).cond = 2 then d else deadline frame 320000 (if (frameOf d frame).retained then 8 else 5) d) s

/-- RETENTION_WRITE_DONE (R41, R42): the Retained copy is in the Cistern and the frame may be accepted; an uncorrectable
error on the write path, or a channel of the copy that has been taken out of service, ends it STORE_FAULT and is reported (R343). The write waits
for the retention writer's earlier ones (R337), while a channel trains and while the Cistern is at Dry (R345, R473). -/
def execRetentionWriteDone (t frame : Nat) (good : Bool) (s : State) : Host.Outcome State Fault Refusal :=
  act (fun d =>
    let d := advance t d
    let f := frameOf d frame
    let mine := fun (r : Retain) => f.stream == some r.stream && f.seq == some r.seq
    let due := d.guard.retains.filter mine
    let chans := (due.flatMap (retainChannels d)).map (chanOf d)
    let later := (due.any retainOpen) && ((d.guard.retains.find? retainOpen).map mine) == some false
    if later || chans.any Channel.trains || !islandAwake d 0x4E then d
    else if good && !chans.any (·.failed) then
      let d := due.foldl (fun d r => storeSpans (spansOf d r) (retainBytes r.frame) d) d
      let d := { d with guard := { d.guard with retains := d.guard.retains.map fun r => if mine r then { r with done := true } else r } }
      tryAccept frame (modFrame frame (fun f => { f with retained := true }) d)
    else
      let d := { d with guard := { d.guard with retains := d.guard.retains.map fun r => if mine r then { r with lost := true } else r } }
      let d := report 0x910 0x04 0 d
      if f.confirmed.isSome then setOutcome frame 10 d else d) s

/-- HOLD_POOL_SCRUB (R48): an uncorrectable Hold copy is restored from its Retained copy; without one it is marked lost,
counted and reported. -/
def execHoldPoolScrub (t stream seq : Nat) (s : State) : Host.Outcome State Fault Refusal :=
  act (fun d =>
    let d := advance t d
    let mine := fun (h : Hold) => h.stream == stream && h.seq == seq
    if !d.guard.holds.any mine then d
    else
      let kept := d.guard.retains.find? fun r => r.stream == stream && r.seq == seq && r.done && !r.lost
      let d := match kept with | some r => (spansOf d r).foldl (fun d (a, n) => noteRead a n d) d | none => d
      let d := report 0x602 0x05 stream { d with pair := { d.pair with scrubUncorr := d.pair.scrubUncorr + 1, bad := true } }
      if kept.any (retainReads d) then d
      else
        let die := ((d.guard.holds.find? mine).map (fun h => dieOf h.frame.port)).getD 0
        let d := { d with guard := { d.guard with holds := d.guard.holds.map fun h => if mine h then { h with lost := true } else h } }
        report 0x602 0x04 stream (count 0x50C die d)) s

end Sys2Proof.Machine
end

