-- ==== Sys2Proof/Machine/Release.lean ====
section
/-!
DEFINITION. Confluence and Level Release (10_confluence_level.md).
-/

namespace Sys2Proof.Machine

def confOf (d : Dev) (g : Nat) : ConfGroup := tget {} d.release.conf g
def setConf (g : Nat) (x : ConfGroup) (d : Dev) : Dev := { d with release := { d.release with conf := tput {} g x d.release.conf } }
def levelOf (d : Dev) (g : Nat) : LevelGroup := tget {} d.release.level g
def setLevel (g : Nat) (x : LevelGroup) (d : Dev) : Dev := { d with release := { d.release with level := tput {} g x d.release.level } }

/-- Device time in the traffic manager of a die. -/
def tmTicks (d : Dev) (die : Nat) : Nat := islandTicks d (0x48 + die)

-- Confluence (R255 to R263) ------------------------------------------------------------------------------------------

/-- The requirement N_p of a member Port (R260); none for a Port that has no mode. -/
def confNeed (d : Dev) (g : ConfGroup) (p : Nat) (offset : Int) : Option Int :=
  let x := portOf d p
  let v := portSpeed x
  if v = 0 then none
  else some ((fusedIn (modeOf x) (fecOf x) + 160 + ceilDiv 32768 v + 624 + (if dieOf p = dieOf g.port then 0 else 192)
    + (if g.recirc then 880 else 0) + 16 : Nat) - offset)

/-- W_MIN in ns: the largest N_p rounded up to whole ns, never less than 40 (R260). -/
def confMin (d : Dev) (g : ConfGroup) : Nat :=
  g.members.foldl (fun a (p, o) => match confNeed d g p o with
    | some n => max a (ceilDiv n.toNat 16)
    | none => a) 40

/-- UNSAFE follows W_MIN and W; becoming UNSAFE raises CONF_UNSAFE (R261, R276). -/
def judgeConf (g : Nat) (d : Dev) : Dev :=
  let x := confOf d g
  let m := confMin d x
  if m ≤ x.window then setConf g { x with unsafe_ := false } d
  else if x.unsafe_ then d
  else raise 0x0A01 g (g + 65536 * m) [] (setConf g { x with unsafe_ := true } d)

/-- Groups of which a Port is a member, judged again after its mode or FEC changed (R261). -/
def judgeConfsOf (p : Nat) (d : Dev) : Dev :=
  (d.release.conf.filterMap fun (g, x) => if x.members.any (fun m => m.1 == p) then some g else none).foldl (fun d g => judgeConf g d) d

/-- The held copy that is first in key order: equal keys go lower ingress Port first, then in order of entry (R256). -/
def confFirst : List (Nat × Nat × Nat) → Option (Nat × Nat × Nat)
  | [] => none
  | e :: t => match confFirst t with
    | none => some e
    | some f => if e.2.1 < f.2.1 || (e.2.1 == f.2.1 && e.2.2 ≤ f.2.2) then some e else some f

/-- A copy joins the end of its queue, released (R225, R256). -/
def joinQueue (i : Nat) (d : Dev) : Dev :=
  let c := copyOf d i
  let q := queueOf d c.queue
  setQueue c.queue { q with copies := if q.copies.contains i then q.copies else q.copies ++ [i] } (setCopy i { c with state := 1 } d)

/-- The held copy that a group may release now: a LATE copy with its verdict (R257), else the first in key order, once it has its
verdict and, in an enabled group, its key + W has come (R256, R263). A held copy without a verdict, LATE or not, holds back every larger key
(R256). -/
def confNext (d : Dev) (x : ConfGroup) : Option (Nat × Nat × Nat) :=
  match x.held.find? fun e => (copyOf d e.1).late && (copyOf d e.1).verdict with
  | some e => some e
  | none =>
    match confFirst x.held with
    | none => none
    | some e =>
      if (copyOf d e.1).verdict && (!x.enabled || decide (e.2.1 + 16 * x.window ≤ tmTicks d (dieOf x.port))) then some e else none

/-- A held copy leaves its group for its queue. -/
def confLeave (g : Nat) (e : Nat × Nat × Nat) (d : Dev) : Dev :=
  let x := confOf d g
  joinQueue e.1 (setConf g { x with held := x.held.erase e } d)

/-- Releases the copies that are due; `n` bounds their number (R256, R257, R263). -/
def confRelease (g : Nat) : Nat → Dev → Dev
  | 0, d => d
  | n + 1, d => match confNext d (confOf d g) with
    | none => d
    | some e => confRelease g n (confLeave g e d)

def releaseDue (g : Nat) (d : Dev) : Dev := confRelease g (confOf d g).held.length d

/-- Releases every held copy that has its verdict, in key order; `n` bounds their number (R263). -/
def confFlush (g : Nat) : Nat → Dev → Dev
  | 0, d => d
  | n + 1, d => match confFirst ((confOf d g).held.filter fun e => (copyOf d e.1).verdict) with
    | none => d
    | some e => confFlush g n (confLeave g e d)

/-- Disables a group: its held copies with a verdict go at once in key order, and the others follow as their verdicts arrive, in key
order (R263). -/
def disableConf (g : Nat) (d : Dev) : Dev := confFlush g (confOf d g).held.length (setConf g { confOf d g with enabled := false } d)

/-- A group's members are replaced. A frame stamped by now keeps the offset that its ingress Port has had, while it is in flight (R262). -/
def setMembers (d : Dev) (x : ConfGroup) (members : List (Nat × Int)) : ConfGroup :=
  let now := tmTicks d (dieOf x.port)
  let olds := x.members.filterMap fun (p, o) => match members.find? fun m => m.1 == p with
    | some (_, n) => if n == o then none else some (p, o, now)
    | none => none
  let kept := x.earlier.filter fun e => members.any (fun m => m.1 == e.1)
    && d.frames.any fun (_, f) => decide (f.state < 2) && !f.enqueued && decide (f.stamp.ticks ≤ e.2.2)
  { x with members, earlier := kept ++ olds }

/-- CONFLUENCE_CONFIGURE (R272) on a unit that may take it. W_MIN of a refused command is that of the unchanged group (log 50). -/
def confConfigureBody (q : List Byte) (d : Dev) : Reply :=
  let g := u8 q 0
  let fl := u8 q 1
  let p := u16 q 2
  let k := u16 q 4
  let w := u16 q 6
  let x := confOf d g
  let y : ConfGroup := { x with enabled := bitOf fl 0, recirc := bitOf fl 1, port := p, queue := k, window := w }
  if g > 63 || fl > 3 || portUnused d p || k ≥ (queueRange d p).2 || !within w 40 2000 then { dev := d, status := stRange, body := le 2 (confMin d x) }
  else if x.enabled && (p != x.port || k != x.queue) then { dev := d, status := stConflict, body := le 2 (confMin d x) }
  else if w < confMin d y then { dev := d, status := stRange, body := le 2 (confMin d x) }
  else
    let d := setConf g { y with unsafe_ := false } d
    let d := if x.enabled && !y.enabled then disableConf g d else releaseDue g d
    { dev := d, status := stOk, body := le 2 (confMin d y) }

/-- CONFLUENCE_CONFIGURE (R272): mirrored, and refused to a unit that does not send (R304, R305). -/
def execConfluenceConfigure (c : Cmd) (s : State) : Host.Outcome State Fault Refusal :=
  cmd 0x0A01 8 4 c (fun q _ d =>
    if !sendingUnit d then rej stDenied d
    else let r := confConfigureBody q d; if effective r.status then { r with dev := mirror 0x0A01 0 q none r.dev } else r) s

/-- CONFLUENCE_MEMBER (R273) on a unit that may take it. -/
def confMemberBody (q : List Byte) (d : Dev) : Reply :=
  let g := u8 q 0
  let op := u8 q 1
  let p := u16 q 2
  let o := signed 16 (u16 q 4)
  let x := confOf d g
  let rest := x.members.filter (fun m => m.1 != p)
  let y := setMembers d x (if op = 0 then rest ++ [(p, o)] else rest)
  if g > 63 || op > 1 || portUnused d p || decide (o < -8000) || decide (8000 < o) || u8 q 6 > 1 || u8 q 7 != 0 then
    { dev := d, status := stRange, body := le 2 (confMin d x) }
  else if op = 0 && u8 q 6 = 0 && confMin d y > x.window then { dev := d, status := stRange, body := le 2 (confMin d x) }
  else { dev := judgeConf g (setConf g y d), status := stOk, body := le 2 (confMin d y) }

/-- CONFLUENCE_MEMBER (R273): mirrored. -/
def execConfluenceMember (c : Cmd) (s : State) : Host.Outcome State Fault Refusal :=
  cmd 0x0A02 8 4 c (fun q _ d =>
    if !sendingUnit d then rej stDenied d
    else let r := confMemberBody q d; if effective r.status then { r with dev := mirror 0x0A02 0 q none r.dev } else r) s

/-- CONF_RELEASE (R256): the group's due copies are released. -/
def execConfRelease (t group : Nat) (s : State) : Host.Outcome State Fault Refusal :=
  act (fun d => releaseDue group (advance t d)) s

-- Level Release (R264 to R271) -----------------------------------------------------------------------------------------

/-- A member's launch reach L_p for frames of an ingress die (R265). -/
def launchReach (d : Dev) (p die : Nat) : Nat := 336 + egDelay (portOf d p) + (if dieOf p = die then 0 else 192)

/-- The group reach of an ingress die: the largest L_p − offset_p over the members that are UP; 0 with none (log 17). -/
def groupReach (d : Dev) (x : LevelGroup) (die : Nat) : Int :=
  let ls := (x.members.filter fun m => (portOf d m.1).state == 4).map fun (p, o) => ((launchReach d p die : Nat) : Int) - o
  match ls with
  | [] => 0
  | l :: t => t.foldl max l

def keepReaches (g : Nat) (d : Dev) : Dev :=
  let x := levelOf d g
  setLevel g { x with reachW := groupReach d x 0, reachE := groupReach d x 1 } d

/-- Both reaches of every group of which a Port is a member, kept again at its LINK_UP or LINK_DOWN (R265). -/
def keepReachesOf (p : Nat) (d : Dev) : Dev :=
  (d.release.level.filterMap fun (g, x) => if x.members.any (fun m => m.1 == p) then some g else none).foldl (fun d g => keepReaches g d) d

/-- Copies a Level Release group holds (R275). -/
def levelHeld (d : Dev) (g : Nat) : List Nat :=
  d.copies.filterMap fun (i, c) => match c.level with | some (k, _) => if k == g && c.state == 0 then some i else none | none => none

/-- Copies of a group that have not started and would still leave at their due tick. -/
def levelWaiting (d : Dev) (g : Nat) : List Nat :=
  d.copies.filterMap fun (i, c) => match c.level with | some (k, _) => if k == g && c.state < 2 && !c.unequal then some i else none | none => none

/-- A copy that has not started will not leave at its due tick: it becomes eligible as UNEQUAL, at its verdict where that is still to come
(R270, R271). -/
def missLevel (i : Nat) (d : Dev) : Dev := markUnequal i (modCopy i (fun c => if c.verdict then { c with state := 1 } else c) d)

/-- Disables a group: every copy that has not started becomes eligible and is sent as UNEQUAL (R271). -/
def freeLevel (g : Nat) (d : Dev) : Dev := (levelWaiting d g).foldl (fun d i => missLevel i d) d

/-- The member entries of a `level.configure` list (R274). -/
def levelEntries (b : List Byte) (n : Nat) : List (Nat × Int) :=
  (List.range n).map fun i => (u16 b (4 * i), signed 16 (u16 b (4 * i + 2)))

/-- LEVEL_CONFIGURE (R274) on a unit that may take it, with the list as host memory gave it. -/
def levelConfigureBody (q : List Byte) (host : Option (List Byte)) (d : Dev) : Reply :=
  let g := u8 q 0
  let fl := u8 q 1
  let m := u16 q 2
  let n := u16 q 4
  if fl > 1 || !within m 20 2000 || n > 512 || u16 q 6 != 0 || u64 q 8 % 4 != 0 then rej stRange d
  else
    match (if n = 0 then some [] else host) with
    | none => rej stFault d
    | some b =>
      let es := levelEntries b n
      if (es.map (·.1)).eraseDups.length != n || es.any (fun (p, o) => portUnused d p || decide (o < -8000) || decide (8000 < o)) then rej stRange d
      else
        let x := levelOf d g
        let d := keepReaches g (setLevel g { x with enabled := bitOf fl 0, margin := m, members := es } d)
        let d := if x.enabled && fl = 0 then freeLevel g d else d
        let y := levelOf d g
        { dev := d, status := stOk, body := le 2 0 ++ le 4 (unsigned 32 y.reachW) ++ le 4 (unsigned 32 y.reachE) }

/-- LEVEL_CONFIGURE (R274): mirrored, with the list it read. -/
def execLevelConfigure (c : Cmd) (host : Option (List Byte)) (s : State) : Host.Outcome State Fault Refusal :=
  cmd 0x0A03 16 12 c (fun q _ d =>
    if !sendingUnit d then rej stDenied d
    else
      let r := levelConfigureBody q host d
      if effective r.status then { r with dev := mirror 0x0A03 0 (q.take 16 ++ host.getD []) none r.dev } else r) s

/-- RELEASE_STATUS (R275). -/
def execReleaseStatus (c : Cmd) (s : State) : Host.Outcome State Fault Refusal :=
  cmd 0x0A04 4 24 c (fun q _ d =>
    let g := u8 q 1
    if u8 q 0 > 1 || u16 q 2 != 0 || (u8 q 0 = 0 && g > 63) then rej stRange d
    else if u8 q 0 = 0 then
      let x := confOf d g
      { dev := d, status := stOk, body := le 1 (b2n x.enabled + 2 * b2n x.unsafe_) ++ le 1 0 ++ le 4 x.held.length ++ le 4 (confMin d x) ++ le 4 0 ++ le 8 x.late }
    else
      let x := levelOf d g
      { dev := d, status := stOk, body := le 1 (b2n x.enabled) ++ le 1 0 ++ le 4 (levelHeld d g).length ++ le 4 (unsigned 32 x.reachW)
          ++ le 4 (unsigned 32 x.reachE) ++ le 8 x.unequal }) s

/-- LR_ELIGIBLE (R268): from 14 ns before its launch tick a copy with its verdict is eligible; one whose launch tick has
passed by then is UNEQUAL (R269). -/
def execLrEligible (t copy : Nat) (s : State) : Host.Outcome State Fault Refusal :=
  act (fun d =>
    let d := advance t d
    let c := copyOf d copy
    match c.level with
    | none => d
    | some _ =>
      let now := portTicks d c.port
      if c.state = 0 && c.verdict && now + 224 ≥ launchTick d c then
        let d := setCopy copy { c with state := 1 } d
        if now > launchTick d c then markUnequal copy d else d
      else d) s

/-- Whether a copy may start on its Port now: the Port is UP and free, the inter-frame gap over, its gate holds it, and no shaper on its
path is in debt (R67, R225, R269). -/
def canStart (d : Dev) (i : Nat) : Bool :=
  let c := copyOf d i
  let s := schedOf d c.port
  let bytes := c.out.length + 4 + (leavingTrailer d c).1.length
  (portOf d c.port).state == 4 && s.sending.isNone && gapOver d c.port && s.shaper.ok d.clock && (queueOf d c.queue).shaper.ok d.clock
    && (groupOf d (queueGroup d c.queue)).shaper.ok d.clock && gateFits d c.port c.queue bytes
    && (c.slot.isNone || guardedMayStart d)

/-- How far the start position nearest a launch tick can lie from it: half the Port's start granularity, rounded up to a tick (R210, R266,
log 89). -/
def startReach (d : Dev) (p : Nat) : Nat := (startGrain (portSpeed (portOf d p)) + 1) / 2

/-- LR_LAUNCH (R266, R269): `t` is the start position nearest the launch tick, where an eligible copy at the head of its queue starts; one
that cannot, whose Port is granted to a cut-through copy (R227), or whose position has passed, is UNEQUAL and is sent when it can be. `marker`: the position lies in an alignment-marker slot. -/
def execLrLaunch (t copy : Nat) (marker : Bool) (s : State) : Host.Outcome State Fault Refusal :=
  act (fun d =>
    let d := advance t d
    let c := copyOf d copy
    match c.level with
    | none => d
    | some _ =>
      let now := portTicks d c.port
      if c.state != 1 || c.unequal || now + startReach d c.port < launchTick d c then d
      else
        let there := decide (now ≤ launchTick d c + startReach d c.port)
        if !marker && there && c.listed && canStart d copy && !grantWaits d c.port && (queueOf d c.queue).copies.head? == some copy then
          startCopy copy now (noteSelected c.port c.queue d)
        else markUnequal copy d) s

end Sys2Proof.Machine
end

