-- ==== Sys2Proof/Machine/Queue.lean ====
section
/-!
DEFINITION. Queues, scheduling, shaping, policing, gates and sampling (09_traffic_manager.md).
-/

namespace Sys2Proof.Machine

-- Allocation (R21, R221, R243, R244) -------------------------------------------------------------------------------------

/-- Some copy in the queue still references cells. -/
def queueHolds (d : Dev) (q : Nat) : Bool := d.copies.any fun (_, c) => c.queue == q && decide (c.state < 3)

/-- The queues of a Port's allocation. -/
def portQueues (d : Dev) (p : Nat) : List Nat :=
  let (b, n) := queueRange d p
  ((List.range n).map (b + ·)).filter (owns d p)

/-- Whether every queue of a range is free, a Port's own set aside. -/
def rangeFree (d : Dev) (p b n : Nat) : Bool := (List.range n).all fun i => match queuePort d (b + i) with | some x => x == p | none => true

/-- The queue base that an allocation takes, if any (R21, R243). -/
def chooseBase (d : Dev) (p n base : Nat) : Option Nat :=
  if base = 0xFFFFFFFF then ((List.range 4096).map (fun k => dieOf p * 32768 + 8 * k)).find? fun b => decide (b + n ≤ dieOf p * 32768 + 32768) && rangeFree d p b n
  else if rangeFree d p base n then some base else none

/-- A queue with the defaults of R222; its histograms, which only a read and a change of units clear, go on (R241, R253). -/
def plainQueue (x : Queue) : Queue :=
  { depth := x.depth, sojourn := x.sojourn, depthHits := x.depthHits, sojournHits := x.sojournHits, histBase := x.histBase }

/-- Queues return to the defaults of R222; what they had reserved goes back to the shared part. -/
def dropQueues (qs : List Nat) (d : Dev) : Dev :=
  qs.foldl (fun d q =>
    let x := queueOf d q
    let d := setQueue q (plainQueue x) d
    { d with tm := { d.tm with mins := d.tm.mins - x.minCells } }) d

/-- The class group that an allocation gives a Port's local queue (R222): its own, or where that has been moved to another Port the
lowest-numbered group that the Port has (DESIGN CHOICE, log 101). -/
def groupFor (d : Dev) (p n : Nat) : Nat :=
  let g := p * 16 + n / 8 % 16
  if groupPort d g = p then g
  else
    let gs := ((List.range 16).map (p * 16 + ·) ++ d.tm.groups.map (·.1)).filter fun k => groupPort d k == p
    gs.foldl min (gs.headD g)

/-- The queues of a new allocation take their class groups (R222). -/
def placeQueues (p b n : Nat) (d : Dev) : Dev :=
  (List.range n).foldl (fun d k =>
    let g := groupFor d p k
    if g = p * 16 + k / 8 % 16 then d else setQueue (b + k) { queueOf d (b + k) with group := some g } d) d

/-- QUEUE_ALLOCATE (R243): a refused command's response carries the base that stays in force. -/
def execQueueAllocate (c : Cmd) (s : State) : Host.Outcome State Fault Refusal :=
  cmd 0x0901 8 8 c (fun q _ d =>
    let p := u16 q 0
    let n := u16 q 2
    let base := u32 q 4
    let lo := dieOf p * 32768
    let old := portQueues d p
    if portUnused d p then rej stRange d
    else if !within n 8 1024 || n % 8 != 0 || (base != 0xFFFFFFFF && (base % 8 != 0 || base < lo || base + n > lo + 32768)) then
      { rej stRange d with body := le 2 0 ++ le 4 (queueRange d p).1 }
    else if (portOf d p).state != 0 || old.any (queueHolds d) then { rej stConflict d with body := le 2 0 ++ le 4 (queueRange d p).1 }
    else
      match chooseBase d p n base with
      | none => { rej stFull d with body := le 2 0 ++ le 4 (queueRange d p).1 }
      | some b =>
        let x := schedOf d p
        let d := dropQueues ((List.range n).map (b + ·)) (dropQueues old d)
        { dev := placeQueues p b n (setSched p { x with range := some (b, n), freed := [] } d), status := stOk, body := le 2 0 ++ le 4 b }) s

/-- QUEUE_FREE (R244). -/
def execQueueFree (c : Cmd) (s : State) : Host.Outcome State Fault Refusal :=
  cmd 0x0902 8 4 c (fun q _ d =>
    let b := u32 q 0
    let n := u16 q 4
    let qs := (List.range n).map (b + ·)
    let ports := (qs.filterMap (queuePort d)).eraseDups
    if b + n > 65536 || u16 q 6 != 0 then rej stRange d
    else if ports.any (fun p => (portOf d p).state != 0) || qs.any (queueHolds d)
        || ports.any (fun p => !portUnused d p && !(portQueues d p).all (fun x => decide (b ≤ x) && decide (x < b + n))) then rej stConflict d
    else
      let d' := dropQueues (qs.filter fun x => (queuePort d x).isSome) d
      okay (ports.foldl (fun e p =>
        let x := schedOf e p
        if (portQueues d p).all (fun x => decide (b ≤ x) && decide (x < b + n)) then setSched p { x with range := some (0, 0), freed := [] } e
        else setSched p { x with range := some (queueRange d p), freed := x.freed ++ [(b, n)] } e) d')) s

-- Queues, groups and shapers (R222, R223, R245 to R248) --------------------------------------------------------------------

/-- The shared part of a die would keep 4,096 cells with `more` cells taken from it (R216, R245). -/
def floorKept (d : Dev) (die : Nat) (more : Int) : Bool := decide (4096 ≤ sharedCells d die - more)

/-- QUEUE_CONFIGURE (R245). -/
def execQueueConfigure (c : Cmd) (s : State) : Host.Outcome State Fault Refusal :=
  cmd 0x0903 16 4 c (fun q _ d =>
    let n := u32 q 0
    let g := u16 q 4
    let m := u16 q 10
    let x := queueOf d n
    let more : Int := (m : Int) - x.minCells
    match queuePort d n with
    | none => rej stRange d
    | some p =>
      if g > 8191 || groupPort d g != p || u8 q 6 > 7 || u8 q 7 > 7 || u16 q 8 = 0 || m > 4095 || u8 q 12 > 11 || !zerosAt q 13 3 then rej stRange d
      else if g != queueGroup d n && !x.copies.isEmpty then rej stConflict d
      else if more > 0 && !(floorKept d 0 more && floorKept d 1 more) then rej stFull d
      else
        let x := { x with group := some g, band := u8 q 6, gate := some (u8 q 7), weight := u16 q 8, minCells := m, alpha := u8 q 12 }
        let d := setQueue n x d
        okay { d with tm := { d.tm with mins := (d.tm.mins + more).toNat } }) s

/-- GROUP_CONFIGURE (R246). -/
def execGroupConfigure (c : Cmd) (s : State) : Host.Outcome State Fault Refusal :=
  cmd 0x0904 8 4 c (fun q _ d =>
    let g := u16 q 0
    let p := u16 q 2
    let old := groupPort d g
    if g > 8191 || portUnused d p || dieOf p != g / 4096 || u8 q 4 > 7 || u8 q 5 != 0 || u16 q 6 = 0 then rej stRange d
    else if p != old && (portQueues d old).any (fun x => queueGroup d x == g) then rej stConflict d
    else okay (setGroup g { groupOf d g with port := some p, band := u8 q 4, weight := u16 q 6 } d)) s

/-- A shaper takes a rate and a burst: the credit stays the same number of bytes, cut to the new burst where it is above
(R230). -/
def Shaper.set (s : Shaper) (clock rate burst : Nat) : Shaper :=
  let s := s.now clock
  { s with rate, burst, credit := if 0 < s.credit then min s.credit (burst * creditByte) else s.credit }

/-- SHAPER_SET (R247). -/
def execShaperSet (c : Cmd) (s : State) : Host.Outcome State Fault Refusal :=
  cmd 0x0905 12 4 c (fun q _ d =>
    let i := u16 q 2
    let rate := u32 q 4
    let burst := u32 q 8
    if u8 q 0 > 2 || u8 q 1 != 0 || (u8 q 0 == 1 && i > 8191) || (u8 q 0 == 2 && portUnused d i) || rate % 8 != 0
        || rate > 800000000 || burst > 16777215 then rej stRange d
    else if u8 q 0 = 0 then okay (setQueue i { queueOf d i with shaper := (queueOf d i).shaper.set d.clock rate burst } d)
    else if u8 q 0 = 1 then okay (setGroup i { groupOf d i with shaper := (groupOf d i).shaper.set d.clock rate burst } d)
    else okay (setSched i { schedOf d i with shaper := (schedOf d i).shaper.set d.clock rate burst } d)) s

/-- BUFFER_CONFIGURE (R248). -/
def execBufferConfigure (c : Cmd) (s : State) : Host.Outcome State Fault Refusal :=
  cmd 0x0906 8 12 c (fun q _ d =>
    let die := u8 q 0
    let n := orDefault (u32 q 4) 16384
    let body := fun (d : Dev) => le 2 0 ++ le 4 (headroom d die) ++ le 4 (sharedCells d die).toNat
    if die > 1 then rej stRange d
    else if !zerosAt q 1 3 || !within n 1024 131072 then { rej stRange d with body := body d }
    else if n < guardUsed d die then { rej stConflict d with body := body d }
    else if !floorKept d die ((n : Int) - guardCells d die) then { rej stFull d with body := body d }
    else
      let d := if die = 0 then { d with tm := { d.tm with guardWest := n } } else { d with tm := { d.tm with guardEast := n } }
      { dev := d, status := stOk, body := body d }) s

-- Policers (R232 to R235, R249, R250) -----------------------------------------------------------------------------------------

/-- A policer's buckets now: they fill at CIR and PIR up to CBS and PBS (RFC 2698, R233). -/
def Policer.now (p : Policer) (clock : Nat) : Policer :=
  { p with tc := min (max p.tc (p.cbs * creditByte)) (p.tc + p.cir * (clock - p.at_)),
           tp := min (max p.tp (p.pbs * creditByte)) (p.tp + p.pir * (clock - p.at_)), at_ := clock }

/-- POLICER_CONFIGURE (R249): both buckets are kept and cut to the new bursts, or filled where MODE changes (R235). -/
def execPolicerConfigure (c : Cmd) (s : State) : Host.Outcome State Fault Refusal :=
  cmd 0x0907 20 4 c (fun q _ d =>
    let n := u16 q 0
    let cir := u32 q 4
    let pir := u32 q 8
    let cbs := u32 q 12
    let pbs := u32 q 16
    if n > 32767 || u8 q 2 > 2 || u8 q 3 > 1 || !within cir 8 800000000 || !within pir cir 800000000
        || !within cbs 64 16777215 || !within pbs 64 16777215 then rej stRange d
    else
      let old := (tget ({} : Policer) d.tm.policers n).now d.clock
      let full := old.mode != u8 q 2
      let cut := fun (t : Int) (b : Nat) => if full then b * creditByte else min t (b * creditByte)
      let x : Policer := { mode := u8 q 2, src := u8 q 3, cir, pir, cbs, pbs, tc := cut old.tc cbs, tp := cut old.tp pbs, at_ := d.clock }
      okay { d with tm := { d.tm with policers := tput {} n x d.tm.policers } }) s

/-- POLICER_MAP (R250). -/
def execPolicerMap (c : Cmd) (s : State) : Host.Outcome State Fault Refusal :=
  cmd 0x0908 16 4 c (fun q _ d =>
    let m := (List.range 64).map fun k => byteAt q (k / 4) / 4 ^ (k % 4) % 4
    if m.contains 3 then rej stRange d else okay { d with tm := { d.tm with colourMap := m } }) s

-- Gates (R236 to R239, R251) ----------------------------------------------------------------------------------------------------

/-- GATE_LIST (R239, R251): no entries stand for the removal of the list. -/
def execGateList (c : Cmd) (s : State) : Host.Outcome State Fault Refusal :=
  cmd 0x0909 24 24 c (fun q _ d =>
    let p := u16 q 0
    let n := u16 q 2
    let base := u64 q 8
    let cycle := u32 q 16
    let es := (List.range n).map fun k => (u8 q (24 + 8 * k), u32 q (28 + 8 * k))
    if portUnused d p || n > 256 || !zerosAt q 4 4 || !within cycle 1000 1000000000 || !zerosAt q 20 4 || q.length < 24 + 8 * n
        || es.any (fun e => !within e.2 8 1000000000) || (List.range n).any (fun k => !zerosAt q (25 + 8 * k) 3) then rej stRange d
    else
      let now := portTicks d p
      let k := ceilDiv (now + 32000 - base) (16 * cycle)
      let start := base + k * (16 * cycle)
      let x := schedOf d p
      { dev := setSched p { x with pendGates := some { start, cycle, entries := es } } d,
        status := if k = 0 then stOk else stAdvanced, body := le 6 0 ++ le 8 start ++ le 8 now }) s

/-- The Port's gate states as its list has them now; a copy of an older list whose gate they close is counted once as
gate-overrun (R238). -/
def setGates (p : Nat) (d : Dev) : Dev :=
  let x := schedOf d p
  let st := match x.gates with | some l => gateStates l (gateTicks d p) | none => 0xFF
  let d := setSched p { x with states := st } d
  let d := match x.sending with
    | some i =>
      let c := copyOf d i
      if c.gateStart != x.listNo && !bitOf st (queueGate d c.queue) then countEgress 0x207 c (setCopy i { c with gateStart := x.listNo } d) else d
    | none => d
  refreshPort p d

/-- GATE_CHANGE (R236): an entry boundary of the list in force. -/
def execGateChange (t port : Nat) (s : State) : Host.Outcome State Fault Refusal :=
  act (fun d => setGates port (advance t d)) s

/-- GATE_LIST_START (R236, R239): the pending list starts, and cuts the cycle of the old one. -/
def execGateListStart (t port : Nat) (s : State) : Host.Outcome State Fault Refusal :=
  act (fun d =>
    let d := advance t d
    let x := schedOf d port
    match x.pendGates with
    | some l =>
      if gateTicks d port < l.start then d
      else
        let x := { x with gates := if l.entries.isEmpty then none else some l, pendGates := none, listNo := x.listNo + 1 }
        setGates port (setSched port x d)
    | none => d) s

-- Sampling (R240 to R242, R252, R253) -------------------------------------------------------------------------------------------

/-- SAMPLE_CONFIGURE (R252). -/
def execSampleConfigure (c : Cmd) (s : State) : Host.Outcome State Fault Refusal :=
  cmd 0x090A 12 4 c (fun q fn d =>
    let n := u16 q 8
    let period := u32 q 4
    let m := d.tm.sampling
    if !nameable d fn (u16 q 0) m.ring || !within (u8 q 2) 6 16 || u8 q 3 > 16 || !within period 1 1000000 || n > 1024 || u16 q 10 != 0
        || q.length < 12 + 2 * n || n * 1000 > 16384 * period then rej stRange d
    else
      let clear := m.depthLog != u8 q 2 || m.sojournLog != u8 q 3
      let m := { m with ring := ringName (u16 q 0), depthLog := u8 q 2, sojournLog := u8 q 3, period, since := 0,
                        watched := (List.range n).map fun k => u16 q (12 + 2 * k) }
      let d := { d with tm := { d.tm with sampling := m } }
      okay (if clear then
        { d with tm := { d.tm with sampling := { m with closed := 0 },
                                   queues := d.tm.queues.map fun (k, x) => (k, { x with depth := [], sojourn := [], depthHits := 0, sojournHits := 0, histBase := 0 }) } }
      else d)) s

/-- The 16 bins of a histogram (R241). -/
def bins (closed base hits : Nat) (t : Tbl Nat) : List Byte :=
  le 4 (min 0xFFFFFFFF (closed - base - hits)) ++ (List.range 15).flatMap fun k => le 4 (tget 0 t (k + 1))

/-- QUEUE_HISTOGRAM (R253). -/
def execQueueHistogram (c : Cmd) (s : State) : Host.Outcome State Fault Refusal :=
  cmd 0x090B 8 132 c (fun q _ d =>
    let n := u32 q 0
    let x := queueOf d n
    let k := d.tm.sampling.closed
    let body := le 2 0 ++ bins k x.histBase x.depthHits x.depth ++ bins k x.histBase x.sojournHits x.sojourn
    if n > 65535 || u8 q 4 > 1 || !zerosAt q 5 3 then rej stRange d
    else
      let y := { x with depth := [], sojourn := [], depthHits := 0, sojournHits := 0, histBase := k }
      { dev := if u8 q 4 = 1 then setQueue n y d else d, status := stOk, body }) s

/-- The copies that reference a queue's cells, in queue order, and after them those enqueued for it that a Confluence group holds or that wait
for their verdict aside (R202, R240, R257). -/
def queuedCopies (d : Dev) (q : Nat) : List Nat :=
  let x := queueOf d q
  x.copies ++ d.copies.filterMap fun (i, c) => if c.queue == q && c.state < 3 && !x.copies.contains i then some i else none

/-- The queues of a die with copies. -/
def loadedQueues (d : Dev) (die : Nat) : List Nat :=
  ((d.copies.filterMap fun (_, c) => if c.state < 3 then some c.queue else none).eraseDups).filter fun q => q / 32768 == die

/-- What a sample holds of a queue (R240, R242). -/
def sampleQueue (d : Dev) (q : Nat) : SampleQ :=
  let x := queueOf d q
  let p := (queuePort d q).getD 0
  { queue := q, copies := ((queuedCopies d q).filter fun i => (frameOf d (copyOf d i).frame).state != 3).map fun i => ((copyOf d i).frame, received d (frameOf d (copyOf d i).frame), (copyOf d i).enqAt),
    gateClosed := !bitOf (schedOf d p).states (queueGate d q), inDebt := !x.shaper.ok d.clock }

/-- The watched queues whose records a sample taken now writes: every PERIOD samples, where a ring is named (R242, R252). -/
def watchedNow (m : Sampling) : List Nat := if m.since + 1 < m.period || m.ring.isNone then [] else m.watched

/-- The instant that a die's traffic manager samples at by now (R240). -/
def sampleTick (d : Dev) (die : Nat) : Nat := tmTicks d die / 16384 * 16384

/-- The queues of a die that a sample holds: those with copies, and the watched ones whose records it writes. -/
def sampledQueues (d : Dev) (die : Nat) (watched : List Nat) : List SampleQ :=
  ((watched.filter (fun q => q / 32768 == die)) ++ loadedQueues d die).eraseDups.map (sampleQueue d)

/-- A die's traffic manager adds its queues to the sample of an instant, which the first of the two opens. -/
def sampleDie (die : Nat) (d : Dev) : Dev :=
  let at_ := sampleTick d die
  let m := d.tm.sampling
  let last := if die = 0 then m.sampledAt else m.sampledEast
  if at_ = last then d
  else
    let n := if die = 0 then { m with sampledAt := at_ } else { m with sampledEast := at_ }
    let n := if m.open_.any (fun x => x.at_ == at_) then
        { n with open_ := m.open_.map fun x => if x.at_ = at_ then { x with queues := x.queues ++ sampledQueues d die x.watched } else x }
      else
        { n with since := if m.since + 1 < m.period then m.since + 1 else 0,
                 open_ := m.open_ ++ [{ at_, queues := sampledQueues d die (watchedNow m), watched := watchedNow m }] }
    { d with tm := { d.tm with sampling := n } }

/-- SAMPLE_INSTANT (R240): at a multiple of 16,384 ticks of device time, which each die's traffic manager reaches by its own, once for each,
the state of every queue with copies, and of the watched queues whose records are due. -/
def execSampleInstant (t : Nat) (s : State) : Host.Outcome State Fault Refusal :=
  act (fun d => sampleDie 1 (sampleDie 0 (advance t d))) s

/-- A failed frame's copies appear in no sample (R202, R240). -/
def leaveSamples (frame : Nat) (d : Dev) : Dev :=
  let m := d.tm.sampling
  let cut := fun (x : SampleQ) => { x with copies := x.copies.filter fun e => e.1 != frame }
  { d with tm := { d.tm with sampling := { m with open_ := m.open_.map fun x => { x with queues := x.queues.map cut } } } }

/-- The bin of a value with a unit of 2^log (R241). -/
def binOf (v log : Nat) : Nat := if v = 0 then 0 else if v < 2 ^ (log + 1) then 1 else min 15 (v / 2 ^ log).log2.succ

/-- A bin is incremented; bin 0 only by the sample itself. -/
def hitBin (b : Nat) (t : Tbl Nat) : Tbl Nat := if b = 0 then t else tput 0 b (min 0xFFFFFFFF (tget 0 t b + 1)) t

/-- Depth and sojourn of a sampled queue at its close: only copies of frames that have committed count (R240). -/
def sampleValues (d : Dev) (at_ : Nat) (x : SampleQ) : Nat × Nat :=
  let cs := x.copies.filter fun (f, _, e) => decide (e < at_) && (tget ({} : Frame) d.frames f).state != 1
  (cs.foldl (fun a (_, n, _) => a + n) 0, match cs.head? with | some (_, _, e) => at_ - e | none => 0)

/-- Record of a watched queue (R242). -/
def sampleRecord (at_ q depth sojourn drops : Nat) (closedGate debt : Bool) : List Byte :=
  le 8 at_ ++ le 2 q ++ le 2 (2 * b2n closedGate + 4 * b2n debt) ++ le 4 depth ++ le 4 (min 0xFFFFFFFF sojourn)
    ++ le 4 (min 0xFFFFFFFF drops) ++ le 4 0 ++ le 4 0

/-- A closed sample's values enter the histograms, in the units in force at the close (R241). -/
def closeHistograms (x : Sample) (d : Dev) : Dev :=
  let m := d.tm.sampling
  let d := x.queues.foldl (fun d y =>
    let (v, w) := sampleValues d x.at_ y
    let q := queueOf d y.queue
    let b := binOf v m.depthLog
    let k := binOf w m.sojournLog
    setQueue y.queue { q with depth := hitBin b q.depth, sojourn := hitBin k q.sojourn, depthHits := q.depthHits + b2n (b != 0),
                              sojournHits := q.sojournHits + b2n (k != 0) } d) d
  { d with tm := { d.tm with sampling := { m with closed := m.closed + 1 } } }

/-- The record of one of a closed sample's watched queues (R242). -/
def watchedRecord (d : Dev) (x : Sample) (q : Nat) : List Byte :=
  match x.queues.find? (fun y => y.queue == q) with
  | some y => let (v, w) := sampleValues d x.at_ y; sampleRecord x.at_ q v w (queueOf d q).drops y.gateClosed y.inDebt
  | none => sampleRecord x.at_ q 0 0 (queueOf d q).drops false false

/-- A closed sample: its values enter the histograms, and the records of the queues it watches leave (R241, R242). -/
def closeSample (x : Sample) (d : Dev) : Dev :=
  let d := closeHistograms x d
  let m := d.tm.sampling
  if m.ring.isNone then d
  else
    let recs := x.watched.map (watchedRecord d x)
    let d := x.watched.foldl (fun d q => setQueue q { queueOf d q with drops := 0 } d) d
    { d with tm := { d.tm with sampling := { d.tm.sampling with out := m.out ++ recs } } }

/-- SAMPLE_CLOSE (R240): the oldest open sample is 16.384 µs old. -/
def execSampleClose (t : Nat) (s : State) : Host.Outcome State Fault Refusal :=
  act (fun d =>
    let d := advance t d
    let m := d.tm.sampling
    match m.open_ with
    | x :: rest =>
      if tmTicks d 0 < x.at_ + 262144 || tmTicks d 1 < x.at_ + 262144 then d
      else closeSample x { d with tm := { d.tm with sampling := { m with open_ := rest } } }
    | [] => d) s

-- Selection (R224 to R226) --------------------------------------------------------------------------------------------------------

/-- MEMBER_ELIGIBLE (R226): the Port's queues and groups that have become eligible take the band's virtual time. -/
def execMemberEligible (t port : Nat) (s : State) : Host.Outcome State Fault Refusal :=
  act (fun d => refreshPort port (advance t d)) s

/-- A Port free to start a copy: UP, sending none, the inter-frame gap over, and granted to no copy that waits for its launch tick (R67, R70,
R224, R227). -/
def portFree (d : Dev) (p : Nat) : Bool :=
  (portOf d p).state == 4 && (schedOf d p).sending.isNone && gapOver d p && !grantWaits d p

/-- The scheduler's choice starts (R224, R226). -/
def selectAndStart (p : Nat) (d : Dev) : Dev :=
  match selectQueue d p with
  | none => d
  | some q =>
    match (queueOf d q).copies.head? with
    | some i => startCopy i (portTicks d p) (noteSelected p q d)
    | none => d

/-- PORT_SELECTION (R224). -/
def execPortSelection (t port : Nat) (s : State) : Host.Outcome State Fault Refusal :=
  act (fun d =>
    let d := refreshPort port (advance t d)
    if portFree d port then selectAndStart port d else d) s

end Sys2Proof.Machine
end

