-- ==== Sys2Proof/Machine/Ports.lean ====
section
/-!
DEFINITION. Ports, lanes and link partners, and the modules of their cages (03_ports.md). What negotiation, training,
alignment and a module answer comes from outside the device and is an operand.
-/

namespace Sys2Proof.Machine

-- A frame that fails (R198, R202, R205) -------------------------------------------------------------------------------------

/-- A frame fails: counted as stomped, once, where egress had begun for some copy of it, whatever has become of that copy since (R66, R72,
R205; DEDUCED, log 105); its cells are free and no sample knows it. Its copies end when the verdict reaches their egress Basins. -/
def failAs (i : Nat) (code : Option Nat) (d : Dev) : Dev :=
  let f := frameOf d i
  let started := f.copies.any fun c => (copyOf d c).departed.isSome
  let d := if started then countRx 0x109 f.port 0 d else d
  noteDrained f.gen <| reap i (leaveSamples i (setFrame i { f with state := 3, failCode := code, seq := none, recordDue := false } d))

/-- A frame fails confirmation with a cause, counted under its code above 0x100. -/
def failFrame (i code : Nat) (d : Dev) : Dev :=
  let f := frameOf d i
  if f.state ≥ 2 then d else failAs i (some code) (countRx (0x100 + code) f.port 0 d)

-- Modules (R78 to R81, R85) ---------------------------------------------------------------------------------------------------------

def masterOf (d : Dev) (m : Nat) : I2cMaster := tget {} d.masters m
def setMaster (m : Nat) (x : I2cMaster) (d : Dev) : Dev := { d with masters := tput {} m x d.masters }

/-- The master of a lane: Nozzles 4m to 4m + 3 (R78). -/
def masterFor (lane : Nat) : Nat := lane / 32

def cageOf (d : Dev) (lane : Nat) : Option Cage := (masterOf d (masterFor lane)).cages.find? fun g => g.lane == lane

def modCage (lane : Nat) (f : Cage → Cage) (d : Dev) : Dev :=
  let x := masterOf d (masterFor lane)
  setMaster (masterFor lane) { x with cages := x.cages.map fun g => if g.lane = lane then f g else g } d

/-- A transaction joins its master's line (R81). -/
def pushJob (j : I2cJob) (d : Dev) : Dev :=
  let m := masterFor j.lane
  let x := masterOf d m
  setMaster m { x with jobs := x.jobs ++ [j] } d

/-- A write of Helm's own to a module's control bytes (R80; pages and offsets PRESUMED, log 19). -/
def helmWrite (lane page offset : Nat) (data : List Byte) (d : Dev) : Dev :=
  pushJob { box := 16, lane, op := 1, bank := 0, page, offset, length := data.length, data, own := some .control } d

/-- The lanes that a Port takes in its module, one bit each. -/
def hostLanes (x : Port) : Nat := 2 ^ min 8 (modeLanes x.mode) - 1

/-- The low-power request of a module (R80). -/
def askLowPower (lane : Nat) (on : Bool) (d : Dev) : Dev :=
  modCage lane (fun g => { g with lowPower := on }) (helmWrite lane 0 26 (le 1 (16 * b2n on)) d)

/-- Data-path activation and deactivation on a Port's lanes (R80). -/
def askDataPath (lane : Nat) (on : Bool) (d : Dev) : Dev :=
  modCage lane (fun g => { g with active := on }) (helmWrite lane 0x10 128 (le 1 (if on then 0 else hostLanes (portOf d lane))) d)

/-- The Application whose host interface matches a Port's mode, by its code (R80). -/
def matchApp (g : Cage) (mode : Nat) : Option Nat := (g.apps.findIdx? fun m => m == mode).map (· + 1)

/-- Helm supports the module for the Port: a CMIS revision from 4.0 to 5.2, and an Application for the Port's mode (R80). -/
def supportedApp (g : Cage) (mode : Nat) : Option Nat := if within g.revision 0x40 0x52 then matchApp g mode else none

/-- Helm selects the Application of a module for its Port's mode, and has the low-power request cleared; a module with none that matches
is reported and left in low power (R80). A Port without a mode selects nothing yet. -/
def selectApp (lane : Nat) (d : Dev) : Dev :=
  match cageOf d lane with
  | none => d
  | some g =>
    let x := portOf d lane
    if x.mode = 0 || g.revision = 0 || !g.present then d
    else
      match supportedApp g x.mode with
      | some a =>
        let d := if g.lowPower then askLowPower lane false d else d
        let d := helmWrite lane 0x10 143 (le 1 (hostLanes x)) (helmWrite lane 0x10 145 (List.replicate (min 8 (modeLanes x.mode)) (BitVec.ofNat 8 (16 * a))) d)
        modCage lane (fun g => { g with app := a, unsupported := false }) d
      | none =>
        let d := if g.lowPower then d else askLowPower lane true d
        let d := modCage lane (fun g => { g with app := 0, unsupported := true, ready := false }) d
        if g.unsupported then d else raise 0x0116 lane g.revision [] d

/-- The data path of a module that is ready runs while its Port is enabled (R80). -/
def followPath (lane : Nat) (d : Dev) : Dev :=
  match cageOf d lane with
  | some g =>
    let on := g.ready && (portOf d lane).state != 0
    if g.present && g.active != on then askDataPath lane on d else d
  | none => d

/-- A read of Helm's own: the 128 bytes of a page from an offset on (R80). -/
def helmRead (lane page offset : Nat) (own : HelmJob) (d : Dev) : Dev :=
  pushJob { box := 16, lane, op := 0, bank := 0, page, offset, length := 128, data := [], own := some own } d

/-- What a poll of a cage finds (R79, R80): at insertion the identity and the Application table are read from pages 0x00 and 0x01. -/
def pollCage (lane : Nat) (reply : Option (Nat × Nat × List Nat)) (d : Dev) : Dev :=
  match cageOf d lane, reply with
  | none, _ => d
  | some g, none =>
    if g.missed + 1 ≥ 3 && g.present then
      modCage lane (fun g => { lane := g.lane, path := g.path, addr := g.addr }) (raise 0x0112 lane 0 [] d)
    else modCage lane (fun g => { g with missed := g.missed + 1 }) d
  | some g, some (ident, rev, apps) =>
    if g.present then modCage lane (fun g => { g with missed := 0 }) d
    else
      let d := modCage lane (fun g => { g with present := true, missed := 0, revision := rev, apps }) (raise 0x0111 lane ident [] d)
      selectApp lane (helmRead lane 1 128 .control (helmRead lane 0 0 .control d))

/-- What the read of a module's monitors and flags finds (R80, R82). -/
def monitorCage (lane : Nat) (flags : List (Nat × Nat)) (cause : Option Nat) (d : Dev) : Dev :=
  match cageOf d lane with
  | some g =>
    if !g.present then d
    else
      let d := flags.foldl (fun d (a, b) => raise 0x0115 lane (a % 65536 + 65536 * (b % 256)) [] d) d
      let d := match cause with
        | some b => if g.fault then d else raise 0x0114 lane (b % 256) [] d
        | none => d
      modCage lane (fun g => { g with fault := cause.isSome }) d
  | none => d

/-- The effect of a transaction of Helm's own. -/
def doOwn (lane : Nat) (j : HelmJob) (d : Dev) : Dev :=
  match j with
  | .poll r => pollCage lane r d
  | .monitor flags cause => monitorCage lane flags cause d
  | .control => d

/-- The transaction at the head of a master's line goes out. One of Helm's own has its effect and the next follows; one of `module.access`
waits for its end (R81). `n` bounds their number. -/
def runJobs (m : Nat) : Nat → Dev → Dev
  | 0, d => d
  | n + 1, d =>
    match (masterOf d m).jobs with
    | [] => d
    | j :: rest =>
      let d := emit (.i2c m j.lane j.bank j.page j.offset (if j.op = 1 then j.data else []) (if j.op = 0 then j.length else 0)) d
      match j.own with
      | none => d
      | some o => runJobs m n (doOwn j.lane o (setMaster m { masterOf d m with jobs := rest } d))

/-- A master whose line stood idle takes up what has joined it; each poll asks for at most two reads and three
writes. -/
def startJobs (m : Nat) (d : Dev) : Dev := runJobs m (6 * (masterOf d m).jobs.length) d

/-- Work of Helm's own that may put transactions on a lane's master: they start at once where its line stood idle. -/
def withMaster (lane : Nat) (f : Dev → Dev) (d : Dev) : Dev :=
  let idle := (masterOf d (masterFor lane)).jobs.isEmpty
  let d := f d
  if idle then startJobs (masterFor lane) d else d

/-- A Port's configuration has changed: its module's Application follows its mode, and its data path the Port (R80). -/
def followConfigure (p : Nat) (d : Dev) : Dev :=
  withMaster p (fun d =>
    match cageOf d p with
    | some g =>
      let same := g.app != 0 && supportedApp g (portOf d p).mode == some g.app
      followPath p (if same then d else selectApp p (if g.active then askDataPath p false d else d))
    | none => d) d

-- Guarded Ports and headroom --------------------------------------------------------------------------------------------------

/-- A Port that a configured stream names: its ingress Port, or one of its permitted egress set (R37). -/
def guardedPort (d : Dev) (p : Nat) : Bool := d.guard.streams.any fun (_, s) => !s.slots.isEmpty && (s.ingress == p || s.slots.any (fun x => x.port == p))

/-- Headroom of a die with its enabled Ports (R216). -/
def headroomOf (d : Dev) (die : Nat) : Nat :=
  d.ports.foldl (fun a (p, x) => if x.state != 0 && dieOf p == die then a + ceilDiv x.mtu 256 + 2 else a) 512

/-- The longest frame time of a Port, in ns (R160). -/
def frameTime (x : Port) : Nat := ceilDiv ((x.mtu + 20) * 8) (max 1 (modeSpeed (modeOf x)))

/-- The least REACH that the enabled Ports allow, in ns (R184). -/
def minReach (d : Dev) : Nat := d.ports.foldl (fun a (_, x) => if x.state != 0 then max a (frameTime x + 200) else a) 500

/-- A configuration of a Port that raises the least REACH above REACH raises REACH to it (R184). -/
def raiseReach (p : Nat) (d : Dev) : Dev :=
  if d.tables.reach < minReach d then
    modPort p (fun x => { x with raised := some (minReach d) }) { d with tables := { d.tables with reach := minReach d } }
  else d

/-- Helm sets each die's HEADROOM again (R216). -/
def setHeadroom (d : Dev) : Dev := { d with tm := { d.tm with headWest := headroomOf d 0, headEast := headroomOf d 1 } }

-- Link state (R70 to R72) --------------------------------------------------------------------------------------------------------

/-- Where a Port's bring-up begins: negotiation, training or alignment (R68 to R70). -/
def firstState (x : Port) : Nat := if x.an then 1 else if x.training then 2 else 3

/-- A Port begins bring-up. -/
def startPort (x : Port) : Port := { x with state := firstState x, alignedAt := none, anFailedAt := none, resolved := none }

/-- Another Port of a Port's Nozzle is down by link loss, and so still holds the Nozzle's PRESENT line. -/
def othersDown (d : Dev) (p : Nat) : Bool :=
  d.ports.any fun (q, x) => q != p && nozzleOf q == nozzleOf p && within x.state 1 3 && within x.lastDown 1 7

/-- A Port's link conditions end: it is UP again, or disabled (R71). -/
def endLinkFaults (p : Nat) (d : Dev) : Dev :=
  if othersDown d p then d
  else [0x13, 0x14, 0x15].foldl (fun d k => endCondition (0x100 + nozzleOf p) k d) d

/-- Ends copies bound for a Port: the copy being sent ends with an error block, and is not counted as discarded (DESIGN CHOICE, log 102); the
unguarded ones that wait are discarded, counted under `code`; guarded copies stay, UNEQUAL under Level Release (R72, R84, R270). A Confluence
group that they leave releases what they held back (R256). -/
def clearPort (p code : Nat) (d : Dev) : Dev :=
  let mine := d.copies.filterMap fun (i, c) => if c.port == p && c.state < 3 && (c.state == 2 || c.slot.isNone) then some i else none
  let groups := (mine.filterMap fun i => (copyOf d i).conf.map (·.1)).eraseDups
  let d := mine.foldl (fun d i => if (copyOf d i).state = 2 then cutCopy i true d else discardCopy i code d) d
  let level := d.copies.filterMap fun (i, c) => if c.port == p && c.state < 2 && c.level.isSome && !c.unequal then some i else none
  groups.foldl (fun d g => releaseDue g d) (level.foldl (fun d i => missLevel i d) d)

/-- The actions of a link loss (R72): the frame in reception fails, and the Port's copies end. -/
def abortPort (p code : Nat) (d : Dev) : Dev :=
  let x := portOf d p
  let d := match x.receiving with
    | some i => if hasFrame d i && atMdi d (frameOf d i) < (frameOf d i).bytes.length + 4 then failFrame i 10 d else d
    | none => d
  clearPort p code (modPort p (fun x => { x with receiving := none }) d)

/-- A Port that was UP goes down: LINK_DOWN with its cause, the actions of R72, the reaches and windows that depend on
it, and in a Pair the yield of R61 for a guarded Port. -/
def linkDown (p cause : Nat) (d : Dev) : Dev :=
  let d := raise 0x0102 p cause [] (abortPort p 0x209 d)
  let d := modPort p (fun x => { startPort x with lastDown := cause, state := if x.an then 1 else 3 }) d
  let d := judgeConfsOf p (keepReachesOf p d)
  if guardedPort d p then yieldUnit d else d

/-- A Port is disabled (R80, R84): what is left is discarded, the transmitter goes off, LINK_DOWN carries cause 8, and its module's data path
is deactivated. A link loss during a drain leaves the drain open, and its end raises this LINK_DOWN too (DESIGN CHOICE, log 102). -/
def disablePort (p : Nat) (d : Dev) : Dev :=
  let d := clearPort p 0x20A d
  let d := modPort p (fun x => { x with state := 0, lastDown := 8, alignedAt := none, anFailedAt := none, resolved := none, drain := none,
                                        ingressStop := false }) d
  withMaster p (followPath p) (setHeadroom (judgeConfsOf p (keepReachesOf p (endLinkFaults p (raise 0x0102 p 8 [] d)))))

-- Commands (R83, R84) -------------------------------------------------------------------------------------------------------------

/-- A mode's first lane is aligned to its lane count (R20, R63). -/
def aligned (p lanes : Nat) : Bool := p % lanes == 0

/-- Lanes of an enabled Port. -/
def enabledLanes (x : Port) : Nat := modeLanes (modeOf x)

/-- Another enabled Port overlaps a mode's lanes, or runs another lane rate in one of its quads (R64). -/
def lanesClash (d : Dev) (p m : Nat) : Bool :=
  let hi := p + modeLanes m
  d.ports.any fun (q, x) => q != p && x.state != 0 &&
    (let end_ := q + modeLanes x.mode
     (decide (q < hi) && decide (p < end_))
       || (modeRate (modeOf x) != modeRate m && decide (q / 4 * 4 < (hi + 3) / 4 * 4) && decide (p / 4 * 4 < (end_ + 3) / 4 * 4)))

/-- The Port as a `port.configure` request sets it (R83). -/
def portIn (x : Port) (q : List Byte) : Port :=
  { x with mode := u8 q 2, fec := u8 q 3, an := u8 q 4 == 1, training := u8 q 5 == 1, flags := u16 q 6, mtu := u16 q 8,
           overhead := signed 8 (u8 q 10), planeOffset := signed 32 (u32 q 12), planeUncert := u16 q 16, upHold := u16 q 18,
           anAbility := u16 q 20 }

/-- Every field of a `port.configure` request lies within its limits (R62, R63, R66, R67, R74, R83, R388). -/
def portFieldsOk (p : Nat) (q : List Byte) : Bool :=
  let y := portIn {} q
  match modeInfo y.mode with
  | none => false
  | some (speed, lanes, _, fecs) =>
    fecs.contains y.fec && aligned p lanes && u8 q 4 ≤ 1 && u8 q 5 ≤ 1 && y.flags < 64 && within y.mtu 1518 10240
      && decide (-32 ≤ y.overhead) && decide (y.overhead ≤ 63) && u8 q 11 == 0 && decide (-1600 ≤ y.planeOffset) && decide (y.planeOffset ≤ 1600)
      && y.planeUncert ≤ 160 && y.upHold ≤ 1000 && (!y.an || y.anAbility < 2048) && u16 q 22 == 0
      && (!fabricFlag y || (decide (speed ≥ 100) && (typicalDelay y.mode y.fec).2.2 ≤ 5 && y.planeUncert == 0))

/-- A transmitter that a freeze or the safe state holds off (R50, R57). -/
def heldOff (d : Dev) (x : Port) : Bool := (d.guard.frozen && combinedFlag x) || (d.guard.cause != 0 && stopInSafeFlag x)

/-- PLANE_CHANGED of a Port whose plane changes while it is UP (R77, R82). -/
def planeChanged (p : Nat) (x y : Port) (d : Dev) : Dev :=
  if x.state = 4 && (x.planeOffset != y.planeOffset || x.planeUncert != y.planeUncert) then
    raise 0x0106 p (unsigned 16 y.planeOffset) (le 4 (unsigned 32 x.planeOffset) ++ le 2 x.planeUncert ++ le 2 y.planeUncert) d
  else d

/-- Frames of a Port whose capture tick is still to come take a new plane: their stamps and the capture term of their bounds (R74, R77). -/
def recapture (p : Nat) (x y : Port) (d : Dev) : Dev :=
  { d with frames := d.frames.map fun (i, f) =>
      (i, if f.port = p && f.pass = 1 && f.injected.isNone && d.clock < f.capAt then
            { f with stamp := { f.stamp with ticks := ((f.stamp.ticks : Int) + x.planeOffset - y.planeOffset).toNat,
                                             bound := if f.stamp.bound = 0xFFFF then 0xFFFF
                                               else min 0xFFFF (f.stamp.bound + y.planeUncert - x.planeUncert) } }
          else f) }

/-- PORT_CONFIGURE (R77, R80, R83, R216, R470, R479). -/
def execPortConfigure (c : Cmd) (s : State) : Host.Outcome State Fault Refusal :=
  cmd 0x0101 24 4 c (fun q _ d =>
    let p := u16 q 0
    let x := portOf d p
    if !d.power.bringup then rej stDenied d
    else if portUnused d p || !portFieldsOk p q then rej stRange d
    else if x.drain.isSome then rej stBusy d
    else
      let y := { portIn x q with txOff := false }
      let y := { y with txOff := heldOff d y }
      let covers := (List.range (modeLanes y.mode - 1)).any fun k => guardedPort d (p + 1 + k)
      if lanesClash d p y.mode || (guardedPort d p && x.mode != 0 && modeOf x != y.mode) || covers || portPooled d p
          || (y.mode == 0x0C && portPooled d (p + 8)) || (portQueues d p).isEmpty then rej stConflict d
      else
        let relink := x.mode != y.mode || x.fec != y.fec || x.an != y.an || x.training != y.training
        let d' := setHeadroom (setPort p { y with state := if x.state = 0 then firstState y else x.state } d)
        if !(floorKept d' 0 0 && floorKept d' 1 0) then rej stFull d
        else if x.state = 4 && !relink then
          let d' := recapture p x y (setPort p { y with state := 4 } d')
          okay (raiseReach p <| judgeConfsOf p (planeChanged p x y d'))
        else
          let d := if x.state = 4 then linkDown p 8 (planeChanged p x y d) else d
          let z := portOf d p
          let d := setHeadroom (setPort p (startPort { y with lastDown := z.lastDown, receiving := z.receiving, upStamp := z.upStamp }) d)
          okay (raiseReach p <| judgeConfsOf p (followConfigure p d))) s

/-- Whether a Port still has queued copies or one being sent. -/
def portBusy (d : Dev) (p : Nat) : Bool := d.copies.any fun (_, c) => c.port == p && decide (c.state < 3)

/-- PORT_DISABLE (R84). -/
def execPortDisable (c : Cmd) (s : State) : Host.Outcome State Fault Refusal :=
  cmd 0x0102 4 8 c (fun q fn d =>
    let p := u16 q 0
    let x := portOf d p
    if portUnused d p || u8 q 2 > 1 || u8 q 3 > 1 then rej stRange d
    else if x.state = 0 then okay d
    else if guardedPort d p && u8 q 3 = 0 then rej stConflict d
    else
      match x.drain with
      | some (n, _) =>
        if u8 q 2 = 0 then rej stBusy d else okay (completeTicket n stOk [] (disablePort p d))
      | none =>
        let start := fun (d : Dev) => if guardedPort d p then yieldUnit d else d
        if u8 q 2 = 0 && x.state = 4 && portBusy d p then
          pend fn d (fun n d => start (modPort p (fun x => { x with drain := some (n, d.clock), ingressStop := true }) d))
        else okay (disablePort p (start d))) s

/-- PORT_DRAIN_END (R84): the queues are empty, or 10 ms have passed. -/
def execPortDrainEnd (t port : Nat) (s : State) : Host.Outcome State Fault Refusal :=
  act (fun d =>
    let d := advance t d
    match (portOf d port).drain with
    | some (n, since) => if !portBusy d port || d.clock - since ≥ 160000000 then completeTicket n stOk [] (disablePort port d) else d
    | none => d) s

-- Status and modules (R79 to R82, R84, R85) ----------------------------------------------------------------------------------

/-- PORT_STATUS (R84). -/
def execPortStatus (c : Cmd) (s : State) : Host.Outcome State Fault Refusal :=
  cmd 0x0103 4 32 c (fun q _ d =>
    let p := u16 q 0
    let x := portOf d p
    let up := x.state == 4
    let m := match cageOf d p with
      | some g => b2n g.present + 2 * b2n g.ready + 4 * b2n g.unsupported + 8 * b2n g.fault
      | none => 0
    if portUnused d p || u16 q 2 != 0 then rej stRange d
    else
      let body := le 1 x.state ++ le 1 (modeOf x) ++ le 1 (fecOf x) ++ le 1 x.lastDown ++ le 2 m
        ++ le 4 (if up then inDelay x else 0) ++ le 4 (if up then egDelay x else 0) ++ le 2 (captureTerm x) ++ le 2 0 ++ stampBytes x.upStamp
      { dev := d, status := stOk, body }) s

/-- MODULE_MAP (R85). -/
def execModuleMap (c : Cmd) (s : State) : Host.Outcome State Fault Refusal :=
  cmd 0x0110 4 4 c (fun q _ d =>
    let m := u8 q 0
    let n := u8 q 2
    let gs : List Cage := (List.range n).map fun k => { lane := u16 q (4 + 4 * k), path := u8 q (6 + 4 * k), addr := u8 q (7 + 4 * k) }
    if m > 15 || u8 q 1 > 2 || n > 64 || u8 q 3 != 0 || q.length < 4 + 4 * n || gs.any (fun g => masterFor g.lane != m || g.addr ≥ 64
        || (bitOf g.path 7 && !bitOf g.path 6)) || (gs.map (·.lane)).eraseDups.length != n then rej stRange d
    else okay (setMaster m { masterOf d m with speed := u8 q 1, cages := gs } d)) s

/-- CMIS bytes that Helm manages: the low-power controls, and on page 0x10 Application selection, data-path and lane
control (R81; offsets PRESUMED, log 19). -/
def managed (page offset length : Nat) : Bool :=
  let hits := fun (lo hi : Nat) => decide (offset ≤ hi) && decide (lo < offset + length)
  hits 26 26 || (page == 0x10 && hits 128 177)

/-- A `module.access` request's answer, or the transaction that it asks for (R81, R85). -/
def accessJob (d : Dev) (box : Nat) (q : List Byte) : Nat ⊕ I2cJob :=
  let p := u16 q 0
  let off := u8 q 5
  let len := u8 q 6
  if portUnused d p || q.length < 136 || u8 q 2 > 1 || u8 q 7 != 0 || !within len 1 128 || off % 128 + len > 128 || (cageOf d p).isNone then .inl stRange
  else if u8 q 2 = 1 && managed (u8 q 4) off len && (portOf d p).state != 0 then .inl stDenied
  else .inr { box, lane := p, op := u8 q 2, bank := u8 q 3, page := u8 q 4, offset := off, length := len, data := slice q 8 len }

/-- MODULE_ACCESS (R81, R412): the mailbox stays BUSY until its transaction has had its turn on the master. -/
def execModuleAccess (c : Cmd) (s : State) : Host.Outcome State Fault Refusal :=
  act (fun d =>
    let d := advance c.t d
    let b := boxOf d c.box
    let waits := d.masters.any fun (_, x) => x.jobs.any fun j => j.box == c.box
    if c.box ≥ 16 then d
    else if d.helm.state = 0 || (b.state == 1 && (b.opcode != 0x0111 || waits)) then setBox c.box { b with dbIgnored := true } d
    else
      let d := if b.state == 1 then d else accept 0x0111 c d
      if d.helm.state = 2 || (d.helm.state = 3 && (boxOf d c.box).taken) then d
      else if d.helm.state = 3 || d.helm.fwRelease < 0x0301 then respond c.box 4 (rej stDenied d)
      else
        match accessJob d c.box (boxOf d c.box).req with
        | .inl st => respond c.box 132 (rej st d)
        | .inr j =>
          withMaster j.lane (pushJob j) (setBox c.box { boxOf d c.box with taken := true } d)) s

/-- The transaction at the head of a master's line ends, and the next starts. -/
def endJob (m : Nat) (ok : Bool) (data : List Byte) (d : Dev) : Dev :=
  let x := masterOf d m
  match x.jobs with
  | [] => d
  | j :: rest =>
    let d := setMaster m { x with jobs := rest } d
    let r : Reply := if ok then { dev := d, status := stOk, body := le 1 j.length ++ le 1 0 ++ (if j.op = 0 then padTo j.length data else []) }
      else rej stFault d
    startJobs m (if j.box < 16 then respond j.box 132 r else d)

/-- I2C_TRANSACTION_DONE (R81): `ok` says that the module acknowledged, `data` what it returned. -/
def execI2cTransactionDone (t i2c : Nat) (ok : Bool) (data : List Byte) (s : State) : Host.Outcome State Fault Refusal :=
  act (fun d => endJob i2c ok data (advance t d)) s

/-- MODULE_POLL (R79, R81): the poll takes its turn on the master. -/
def execModulePoll (t lane : Nat) (reply : Option (Nat × Nat × List Nat)) (s : State) : Host.Outcome State Fault Refusal :=
  act (fun d =>
    let d := advance t d
    if d.helm.state != 1 || (cageOf d lane).isNone then d
    else withMaster lane (pushJob { box := 16, lane, op := 0, bank := 0, page := 0, offset := 0, length := 3, data := [], own := some (.poll reply) }) d) s

/-- MODULE_INT (R79): a falling edge of MOD_INT_N polls every cage of the master; `replies` by lane. -/
def execModuleInt (t i2c : Nat) (replies : List (Nat × (Nat × Nat × List Nat))) (s : State) : Host.Outcome State Fault Refusal :=
  act (fun d =>
    let d := advance t d
    if d.helm.state != 1 then d
    else
      withMaster (32 * i2c) (fun d => (masterOf d i2c).cages.foldl (fun d g =>
        pushJob { box := 16, lane := g.lane, op := 0, bank := 0, page := 0, offset := 0, length := 3, data := [],
                  own := some (.poll ((replies.find? fun e => e.1 == g.lane).map (·.2))) } d) d) d) s

/-- MODULE_MONITOR (R80, R82): the monitors and flags of pages 0x00, 0x01, 0x02, 0x10 and 0x11 are read; `flags` are the flag bytes found
set, as address and bits, and `cause` the module fault cause if any. -/
def execModuleMonitor (t lane : Nat) (flags : List (Nat × Nat)) (cause : Option Nat) (s : State) : Host.Outcome State Fault Refusal :=
  act (fun d =>
    let d := advance t d
    if d.helm.state != 1 || !((cageOf d lane).any fun g => g.present) then d
    else
      withMaster lane (fun d => helmRead lane 0x11 128 (.monitor flags cause)
        ([0x01, 0x02, 0x10].foldl (fun d p => helmRead lane p 128 .control d) (helmRead lane 0 0 .control d))) d) s

/-- MODULE_STATE_READY (R80): ModuleReady; Helm activates the data path. -/
def execModuleStateReady (t lane : Nat) (s : State) : Host.Outcome State Fault Refusal :=
  act (fun d =>
    let d := advance t d
    match cageOf d lane with
    | some g =>
      if d.helm.state = 1 && g.present && !g.lowPower && !g.ready then
        withMaster lane (followPath lane) (modCage lane (fun g => { g with ready := true }) (raise 0x0113 lane g.app [] d))
      else d
    | none => d) s

-- Bring-up of a link (R68 to R71) -----------------------------------------------------------------------------------------------------

/-- The mode of an AN_ABILITY technology (R62, R68). -/
def techMode (bit : Nat) : Option Nat :=
  match bit with
  | 0 => some 0x01 | 1 => some 0x02 | 2 => some 0x02 | 3 => some 0x03 | 4 => some 0x04 | 5 => some 0x05
  | 6 => some 0x06 | 7 => some 0x07 | 8 => some 0x08 | 9 => some 0x0A | 10 => some 0x0B | _ => none

/-- The FEC options that a technology permits: those of its mode, without RS-FEC for 25GBASE-KR-S/CR-S (R62; log 103). -/
def techFecs (bit : Nat) : List Nat :=
  if bit = 2 then [0, 1] else ((techMode bit).bind modeInfo).elim [] (·.2.2.2)

/-- The technologies in the Clause 73 priority order, highest first (PRESUMED, log 103). -/
def techPriority : List Nat := [10, 9, 8, 7, 6, 5, 4, 3, 1, 2, 0]

/-- What negotiation resolves to: the technology of highest priority that both ends advertise (R68). -/
def resolveTech (own ability : Nat) : Option Nat := techPriority.find? fun b => bitOf own b && bitOf ability b

/-- The FEC of a resolved technology: the one it requires, or the strongest that both ends request, else none (R68). The Port requests its
configured FEC (DEDUCED, log 103); bit k of `requests` is the partner's request of FEC option k. -/
def resolveFec (bit own requests : Nat) : Nat :=
  match techFecs bit with
  | [f] => f
  | fs => if fs.contains own && bitOf requests own then own else 0

/-- A resolved technology fits the Port's lanes and quad (R63, R64, R68). -/
def techFits (d : Dev) (port m : Nat) : Bool :=
  match modeInfo m with
  | some (_, lanes, _, _) => aligned port lanes && decide (lanes ≤ modeLanes (portOf d port).mode) && !lanesClash d port m
  | none => false

/-- AN_RESOLUTION (R68): negotiation ends with the partner's FEC requests and its abilities, in its base page and in its next pages, numbered
as AN_ABILITY. One whose technology does not fit the Port is AN_FAILED, and so is one without a common technology (DESIGN CHOICE, log 103). -/
def execAnResolution (t port base fec ability : Nat) (s : State) : Host.Outcome State Fault Refusal :=
  act (fun d =>
    let d := advance t d
    let x := portOf d port
    let theirs := base ||| ability
    if x.state != 1 || x.anFailedAt.isSome then d
    else
      match (resolveTech x.anAbility theirs).bind (fun b => (techMode b).map (fun m => (b, m))) with
      | some (b, m) =>
        if techFits d port m then
          let f := resolveFec b x.fec fec
          judgeConfsOf port (raise 0x0103 port (b + 65536 * f) [] (setPort port { x with resolved := some (m, f), state := if x.training then 2 else 3 } d))
        else raise 0x0104 port (theirs % 65536) [] (setPort port { x with anFailedAt := some d.clock } d)
      | none => raise 0x0104 port (theirs % 65536) [] (setPort port { x with anFailedAt := some d.clock } d)) s

/-- AN_RESTART (R68): 500 ms after AN_FAILED. -/
def execAnRestart (t port : Nat) (s : State) : Host.Outcome State Fault Refusal :=
  act (fun d =>
    let d := advance t d
    match (portOf d port).anFailedAt with
    | some a => if d.clock - a ≥ 8000000000 then modPort port (fun x => { x with anFailedAt := none }) d else d
    | none => d) s

/-- TRAINING_COMPLETE (R69). -/
def execTrainingComplete (t port : Nat) (s : State) : Host.Outcome State Fault Refusal :=
  act (fun d =>
    let d := advance t d
    if (portOf d port).state = 2 then modPort port (fun x => { x with state := 3, alignedAt := none }) d else d) s

/-- TRAINING_TIMEOUT (R69): the mask of lanes that have not trained. -/
def execTrainingTimeout (t port lanes : Nat) (s : State) : Host.Outcome State Fault Refusal :=
  act (fun d =>
    let d := advance t d
    if (portOf d port).state = 2 then
      report (0x100 + nozzleOf port) 0x16 port (judgeConfsOf port (raise 0x0105 port (lanes % 65536) [] (modPort port startPort d)))
    else d) s

/-- ALIGNMENT_ACHIEVED (R70, R75): with variable parts of at most 160 ticks; a larger one is measured again. -/
def execAlignmentAchieved (t port inVar egVar : Nat) (s : State) : Host.Outcome State Fault Refusal :=
  act (fun d =>
    let d := advance t d
    if (portOf d port).state != 3 then d
    else if inVar ≤ 160 && egVar ≤ 160 then modPort port (fun x => { x with inVar, egVar, alignedAt := some d.clock }) d
    else modPort port (fun x => { x with alignedAt := none }) d) s

/-- UP_HOLD_ELAPSED (R70, R72, R82): a Port aligned and stable for UP_HOLD goes UP; a solo device sends what it held for
the Port. -/
def execUpHoldElapsed (t port : Nat) (s : State) : Host.Outcome State Fault Refusal :=
  act (fun d =>
    let d := advance t d
    let x := portOf d port
    match x.alignedAt with
    | some a =>
      if x.state = 3 && d.clock - a ≥ 16000000 * x.upHold then
        let d := setPort port { x with state := 4, upStamp := helmStamp d } d
        let d := raise 0x0101 port (modeOf x + 256 * fecOf x + 1024 * x.inVar + 2097152 * x.egVar)
          (match x.raised with | some r => le 4 r | none => []) (modPort port (fun x => { x with raised := none }) d)
        let d := judgeConfsOf port (keepReachesOf port (endLinkFaults port d))
        refreshPort port (if d.pair.mode = 0 && !d.guard.frozen then resumeSlots (fun sl => sl.port == port) d else d)
      else d
    | none => d) s

/-- What a Port's transmitter sends between frames: 0 nothing, 1 remote fault, while the Port is enabled and not UP, 2 idles (R50, R57, R70,
R71, R297). -/
def lineSignal (d : Dev) (p : Nat) : Nat :=
  let x := portOf d p
  if x.state = 0 || !drivesPort d p then 0 else if x.state = 4 then 2 else 1

/-- A Port in bring-up loses its signal: it stays in negotiation, a training starts again, and what aligned is in ALIGNING (R69, R71). -/
def losesSignal (x : Port) : Port :=
  if x.state = 1 then x else { startPort x with state := if x.an then 1 else if x.state = 2 then 2 else 3 }

/-- LINK_LOSS (R71, R72): an UP Port loses its link with one of the causes 1 to 7 of R82; one in bring-up goes back. -/
def execLinkLoss (t port cause : Nat) (s : State) : Host.Outcome State Fault Refusal :=
  act (fun d =>
    let d := advance t d
    let x := portOf d port
    let src := 0x100 + nozzleOf port
    if !within cause 1 7 then d
    else if x.state = 4 then
      let d := linkDown port cause (report src 0x13 port d)
      if cause = 6 then report src 0x14 port d else if cause = 7 then report src 0x15 port d else d
    else if x.state = 0 then d
    else judgeConfsOf port (setPort port (losesSignal x) d)) s

end Sys2Proof.Machine
end

