-- ==== Sys2Proof/Machine/Rewrite.lean ====
section
/-!
DEFINITION. Rewrite (07_actions_learning.md, R179 to R182): the edits of a frame's bytes under its action, and the checks made
when the action is merged.
-/

namespace Sys2Proof.Machine

/-- Layer mark `k` (1 to 4) of a Field Vector, where it is valid (R126). -/
def layerOf (fv : List Byte) (k : Nat) : Option Nat :=
  if bitOf (byteAt fv 10) (k - 1) then some (byteAt fv (5 + k)) else none

/-- Bytes with `n` of them from an offset replaced by others. -/
def splice (b : List Byte) (o n : Nat) (new : List Byte) : List Byte := b.take o ++ new ++ b.drop (o + n)

/-- Where the IP header of a TTL, hop-limit or DSCP operation stands: layer mark 1 valid and version 4 or 6 (R180). -/
def ipHeader (fv b : List Byte) : Option (Nat × Bool) :=
  match layerOf fv 1 with
  | none => none
  | some o => if byteAt b o / 16 = 4 then some (o, true) else if byteAt b o / 16 = 6 then some (o, false) else none

def wantsIp (a : List Nat) : Bool := aTtlDec a || aDscpEn a

/-- The frame has an 802.1Q tag after its source address (R179 step 3). -/
def tagged (b : List Byte) : Bool := beAt b 12 2 == 0x8100 || beAt b 12 2 == 0x88A8

/-- Ones' complement sum of two 16-bit words. -/
def oneSum (x y : Nat) : Nat := let s := x + y; s % 65536 + s / 65536

/-- A 16-bit word of an IPv4 header replaced, with the header checksum updated (RFC 1624). -/
def putIpWord (b : List Byte) (ip o new : Nat) : List Byte :=
  let old := beAt b (ip + o) 2
  let hc := beAt b (ip + 10) 2
  let sum := oneSum (oneSum (65535 - hc) (65535 - old)) new
  overwrite (overwrite b (ip + o) (be 2 new)) (ip + 10) (be 2 (65535 - sum))

/-- Step 2: TTL or hop limit, then DSCP. -/
def ipEdit (a : List Nat) (fv b : List Byte) : List Byte :=
  match ipHeader fv b with
  | none => b
  | some (o, true) =>
    let b := if aTtlDec a then putIpWord b o 8 (beAt b (o + 8) 2 - 256) else b
    if aDscpEn a then putIpWord b o 0 (byteAt b o * 256 + 4 * aDscp a + byteAt b (o + 1) % 4) else b
  | some (o, false) =>
    let b := if aTtlDec a then overwrite b (o + 7) (be 1 (byteAt b (o + 7) - 1)) else b
    if aDscpEn a then
      let w := beAt b o 2
      overwrite b o (be 2 (w / 4096 * 4096 + aDscp a * 64 + w % 64))
    else b

/-- Step 3: the action's VLAN operation, then the copy's VID. -/
def vlanEdit (a : List Nat) (vid : Option Nat) (b : List Byte) : List Byte :=
  let tci := aPcp a * 8192 + aVid a
  let b := match aVlanOp a with
    | 1 => splice b 12 0 (be 2 (aTpid a) ++ be 2 tci)
    | 2 => if tagged b then splice b 12 4 [] else b
    | 3 => if tagged b then splice b 12 4 (be 2 (aTpid a) ++ be 2 tci) else b
    | _ => b
  match vid with
  | some v => if tagged b then overwrite b 14 (be 2 (beAt b 14 2 / 4096 * 4096 + v)) else b
  | none => b

/-- Bytes of an encapsulation template and where its IP header stands, by ENCAP_KIND (R182). -/
def encapLen (kind : Nat) : Nat := match kind with | 1 => 50 | 2 => 54 | 3 => 70 | 4 => 74 | _ => 0
def encapIp (kind : Nat) : Nat := if kind = 2 || kind = 4 then 18 else 14

def encapKind (rw : List Byte) : Nat := u8 rw 12

/-- Step 6: VXLAN encapsulation (R182). -/
def encapsulate (rw inner : List Byte) : List Byte :=
  let kind := encapKind rw
  let ip := encapIp kind
  let n := inner.length
  let t := slice rw 16 (encapLen kind)
  let udp := ip + if kind ≤ 2 then 20 else 40
  let port := 49152 + (crc32c (inner.take 64)) % 16384
  let t := overwrite (overwrite (overwrite t udp (be 2 port)) (udp + 4) (be 2 (16 + n))) (udp + 6) (be 2 0)
  let t := if kind ≤ 2 then
      let t := overwrite (overwrite t (ip + 2) (be 2 (36 + n))) (ip + 10) (be 2 0)
      overwrite t (ip + 10) (be 2 (65535 - csum t ip 20))
    else overwrite t (ip + 4) (be 2 (16 + n))
  t ++ inner

/-- The frame padded with zeros to 64 bytes with its FCS. -/
def padFrame (b : List Byte) : List Byte := if b.length < 60 then padTo 60 b else b

/-- Decapsulation takes effect: TUNNEL_OP 2 with layer mark 2 valid. -/
def decapTo (a : List Nat) (fv : List Byte) : Nat := if aTunnel a = 2 then ((layerOf fv 2).map (· + 16)).getD 0 else 0

/-- A frame under its action's rewrite, with a copy's VID (R179). -/
def rewriteFrame (a : List Nat) (rw fv : List Byte) (vid : Option Nat) (b : List Byte) : List Byte :=
  let b := b.drop (decapTo a fv)
  let b := if wantsIp a then ipEdit a fv b else b
  let b := vlanEdit a vid b
  let b := if aMacRewrite a then overwrite b 0 (slice rw 0 12) else b
  let b := padFrame b
  if aTunnel a = 1 && encapKind rw != 0 then encapsulate rw b else b

/-- An operation of the action is skipped (R180). -/
def skips (a : List Nat) (fv b : List Byte) : Bool :=
  (wantsIp a && (ipHeader fv b).isNone) || ((aVlanOp a == 2 || aVlanOp a == 3) && !tagged (b.drop (decapTo a fv)))

/-- A copy's VID replacement finds no outer tag (R180). -/
def vidSkipped (a : List Nat) (fv b : List Byte) : Bool := !tagged (vlanEdit a none (b.drop (decapTo a fv)))

/-- The drop that the action's needs cause: rewrite-no-layer or ttl-expired (R180). -/
def rewriteDrop (a : List Nat) (fv b : List Byte) : Option Nat :=
  if aTunnel a = 2 && ((layerOf fv 1).isNone || (layerOf fv 2).isNone) then some 17
  else if aTtlDec a then
    match ipHeader fv b with
    | some (o, v4) => if byteAt b (o + if v4 then 8 else 7) ≤ 1 then some 16 else none
    | none => none
  else none

/-- Bytes by which an action can grow a frame (R181). -/
def growth (a : List Nat) (rw : List Byte) : Nat :=
  (if aVlanOp a = 1 then 4 else 0) + (if aTunnel a = 1 then encapLen (encapKind rw) else 0)

end Sys2Proof.Machine
end

