-- ==== Sys2Proof/Machine/Copies.lean ====
section
/-!
DEFINITION. From an action to queued copies: the copies an action makes (R173, R177), their admission (R217 to R220), what holds
them, and the speculative start (R201, R209, R213).
-/

namespace Sys2Proof.Machine

/-- The bytes that a frame's latest pass parses and sends: as received, or as its first pass rewrote them (R174). -/
def passBytes (f : Frame) : List Byte := f.second.getD f.bytes

/-- One copy that an action makes: egress Port, local queue and the copy's own VID. -/
structure Target where
  port : Nat
  queue : Nat
  vid : Option Nat

/-- The fields of a multicast copy entry (R177). -/
def entryTarget (e : Nat) : Target :=
  { port := bitsOf e 8 0, queue := bitsOf e 18 9, vid := if bitOf e 19 then some (bitsOf e 31 20) else none }

def mcastList (d : Dev) (g : Nat) : List Nat := tget [] d.tables.mcast g

/-- The copies of an action for a frame of an ingress Port; a Confluence group's Port and queue replace the action's (R173,
R177, R255). -/
def targetsOf (d : Dev) (a : List Nat) (ingress : Nat) : List Target :=
  match aDest a with
  | 0 => match aConf a with
    | some g => [{ port := (confOf d g).port, queue := (confOf d g).queue, vid := none }]
    | none => [{ port := aPort a, queue := aQueue a, vid := none }]
  | 1 => (mcastList d (aGroup a)).map entryTarget
  | 2 => ((mcastList d (aGroup a)).map entryTarget).filter fun t => t.port != ingress
  | _ => []

/-- A local queue of a Port, and whether local queue 0 stands in for it (R173). -/
def localQueue (d : Dev) (p n : Nat) : Nat × Bool :=
  let (b, k) := queueRange d p
  if n < k then (b + n, false) else (b, true)

-- Admission (R217 to R220) --------------------------------------------------------------------------------------------------

/-- The part of the buffer that an unguarded copy is admitted against: 0 the minimum, 1 the shared part (R218). -/
def admitPart (d : Dev) (f : Frame) (q : Nat) (yellow : Bool) : Option Nat :=
  let die := dieOf f.port
  let x := queueOf d q
  let occ := queueCells d q die
  let free := sharedCells d die - sharedUsed d die
  let above : Int := (occ - x.minCells : Nat)
  if occ < x.minCells then some 0
  else if 0 < free && decide ((if yellow then 512 else 256) * above < 2 ^ x.alpha * free) then some 1
  else none

/-- The guarded reserve of a die can take a frame of its ingress Port (R220). -/
def reserveRoom (d : Dev) (f : Frame) : Bool :=
  decide (guardUsed d (dieOf f.port) + ceilDiv (portOf d f.port).mtu 256 ≤ guardCells d (dieOf f.port))

/-- Confluence entries in use on a die (R255). -/
def confEntries (d : Dev) (die : Nat) : Nat :=
  d.release.conf.foldl (fun a (_, x) => if dieOf x.port = die then a + x.held.length else a) 0

def confRoom (d : Dev) (g : Nat) : Bool := decide (confEntries d (dieOf (confOf d g).port) < 65536)

/-- The skew offset of a member Port for a frame of a stamp: the one in force before the first change at or after the stamp, else the
present one (R256, R262); none where the Port is no member. -/
def memberOffset (x : ConfGroup) (p ticks : Nat) : Option Int :=
  match x.members.find? fun m => m.1 == p with
  | none => none
  | some (_, o) => match x.earlier.find? fun m => m.1 == p && decide (ticks ≤ m.2.2) with
    | some (_, old, _) => some old
    | none => some o

/-- A copy of a frame takes an entry of its Confluence group: its ingress Port is a member, and of a guarded frame the stream queue on the
group's Port is the group's (R255, R259). -/
def confEntry (d : Dev) (f : Frame) (g queue : Nat) (guarded : Bool) : Bool :=
  let x := confOf d g
  x.enabled && (memberOffset x f.port f.stamp.ticks).isSome && (!guarded || queue == (localQueue d x.port x.queue).1)

-- The speculative start (R201, R209 to R211) -----------------------------------------------------------------------------------

/-- D of R209, in ticks. -/
def detDelay (f : Frame) (v egress : Nat) : Nat :=
  ceilDiv (75776 * v + 12800 * f.detHeader) (100 * v) + (if dieOf egress = dieOf f.port then 0 else 192) + (if f.pass = 2 then 880 else 0)

/-- The tick from which a Port may start its next frame: the one it is sending, and the inter-frame gap, are over (R67, R201). -/
def finishTick (d : Dev) (p : Nat) : Nat :=
  let x := portOf d p
  match (schedOf d p).sending with
  | none => portTicks d p + ((schedOf d p).idleFrom - d.clock)
  | some i =>
    let c := copyOf d i
    let f := frameOf d c.frame
    let bytes := if received d f < f.bytes.length + 4 then x.mtu else c.out.length + 4 + (leavingTrailer d c).1.length
    portTicks d p + (c.startAt + wireTicks x (bytes + 12) - d.clock)

/-- A queue's gate is open for what is launched at a tick and stays open while `bytes` leave the MDI (R201, R237, R238). -/
def gateHolds (d : Dev) (p q launch bytes : Nat) : Bool :=
  let g := queueGate d q
  let tick := mdiTick (portOf d p) launch
  match (schedOf d p).gates with
  | none => bitOf (schedOf d p).states g
  | some l => bitOf (gateStates l tick) g && match gateLeft l tick g with
    | none => true
    | some left => decide (wireTicks (portOf d p) bytes ≤ left)

/-- The conditions of R201 that rest on the frame, its action and the two Ports. -/
def cutAllowed (d : Dev) (f : Frame) (a : List Nat) (rw : List Byte) (c : Copy) : Bool :=
  let x := portOf d f.port
  let y := portOf d c.port
  f.state == 1 && f.injected.isNone && f.doomed.isNone && cutThroughFlag x && cutThroughFlag y && portSpeed x == portSpeed y
    && !aSpecDeny a && (aConf a).isNone && (aLevel a).isNone && aTunnel a != 1 && decide (x.mtu + growth a rw ≤ y.mtu)
    && !((!f.pendingChecks.isEmpty || bitOf (byteAt f.fv 0) 4) && f.malAct == 1) && c.kind == 0 && (c.slot.isNone || guardedMayStart d)

/-- The copy of a queue that goes next once the one being sent has ended is eligible (R225, R227). -/
def nextEligible (d : Dev) (p q : Nat) : Bool :=
  match (queueOf d q).copies.find? fun i => (copyOf d i).state != 2 with
  | none => false
  | some i =>
    let c := copyOf d i
    let bytes := c.out.length + 4 + (leavingTrailer d c).1.length
    c.state == 1 && !hasLaunch c && (c.slot.isNone || guardedMayStart d) && (queueOf d q).shaper.ok d.clock && gateFits d p q bytes && lrClear d p bytes

/-- Another copy of a Port is eligible: first of those that wait in another queue, or by a launch tick of its own (R225, R227, R268). -/
def otherEligible (d : Dev) (p q : Nat) : Bool :=
  (busyQueues d p).any (fun k => k != q && nextEligible d p k)
    || d.copies.any fun (_, c) => c.port == p && c.state == 1 && c.level.isSome && !c.unequal

/-- No shaper on the path of a queue's copies is in debt (R201, R225). -/
def shapersOk (d : Dev) (p q : Nat) : Bool :=
  (schedOf d p).shaper.ok d.clock && (queueOf d q).shaper.ok d.clock && (groupOf d (queueGroup d q)).shaper.ok d.clock

/-- The conditions of R201 that rest on the Port's queues, shapers and gates (R227): the copy stands alone in its queue, no other copy of
the Port is eligible or has been granted the Port, no shaper is in debt, the gate stays open from the launch tick on, and the Port is
free by then. A Port without DETERMINISTIC launches at once. -/
def cutGranted (d : Dev) (c : Copy) (launch : Nat) : Bool :=
  let p := c.port
  let x := portOf d p
  x.state == 4 && (queueOf d c.queue).copies.length == 1 && !otherEligible d p c.queue && !grantWaits d p
    && (deterministicFlag x || (schedOf d p).sending.isNone) && decide (finishTick d p ≤ launch)
    && shapersOk d p c.queue && gateHolds d p c.queue launch x.mtu && lrClearAt d p launch x.mtu

-- Queueing (R217, R224) ----------------------------------------------------------------------------------------------------------

/-- A new copy of a frame, in its queue unless a Confluence group holds it, it waits aside, or it has already ended. -/
def newCopy (i : Nat) (c : Copy) (d : Dev) : Nat × Dev :=
  let n := d.nextCopy
  let c := { c with frame := i, enqAt := tmTicks d (dieOf c.port), enqClock := d.clock }
  let d := modFrame i (fun f => { f with copies := f.copies ++ [n] }) (setCopy n c { d with nextCopy := n + 1 })
  let q := queueOf d c.queue
  (n, if c.conf.isSome || c.aside || c.state ≥ 3 then d else setQueue c.queue { q with copies := q.copies ++ [n] } d)

/-- The launch tick T of a frame's copies on a Port of deterministic mode (R209). -/
def launchT (d : Dev) (f : Frame) (egress : Nat) : Nat := f.cap + detDelay f (max 1 (portSpeed (portOf d f.port))) egress

/-- An ordinary copy that may start before confirmation does so, at once or at its launch tick, or as soon as it can where that has
passed (R211); any other waits for its verdict (R201, R209, R213). -/
def placeOrdinary (i : Nat) (a : List Nat) (rw : List Byte) (c : Copy) (d : Dev) : Dev :=
  let f := frameOf d i
  let (n, e) := newCopy i { c with state := 1, cut := true } d
  let x := portOf d c.port
  let det := deterministicFlag x
  let now := portTicks d c.port
  let launch := if det then max now (launchT d f c.port) else now
  let ok := cutAllowed d f a rw c && cutGranted e (copyOf e n) launch
  if !ok || (f.specOff && !det) then modCopy n (fun c => { c with state := 0, cut := false }) e
  else if f.specOff then modCopy n (fun c => { c with state := 0, cut := false, launch := some launch }) e
  else if det then modCopy n (fun c => { c with launch := some launch }) e
  else startCopy n launch (noteSelected c.port c.queue (refreshPort c.port e))

/-- A copy bound for a Confluence group (R256 to R259); a disabled group's goes to its queue at its verdict (R263). -/
def placeConf (i g : Nat) (c : Copy) (d : Dev) : Dev :=
  let f := frameOf d i
  let x := confOf d g
  let wait := { c with state := 0 }
  if !x.enabled then (newCopy i { wait with aside := true } d).2
  else if c.slot.isSome && c.queue != (localQueue d c.port x.queue).1 then note i 0x602 g (newCopy i { wait with late := true } d).2
  else
    match memberOffset x f.port f.stamp.ticks with
    | none => note i 0x603 g (newCopy i { wait with late := true, aside := true } d).2
    | some o =>
      if !confRoom d g then note i 0x601 g d
      else
        let key := ((f.stamp.ticks : Int) + o).toNat
        let late := decide (key + 16 * x.window < tmTicks d (dieOf x.port))
        let (n, d) := newCopy i { wait with conf := some (g, key), late } d
        let d := setConf g { x with held := x.held ++ [(n, key, f.port)] } d
        if late then note i 0x600 g d else d

/-- A copy that has been admitted, under what its action asks (R173, R255, R264); a Level Release copy whose member Port has no link is UNEQUAL
(R270). -/
def placeCopy (i : Nat) (a : List Nat) (rw : List Byte) (c : Copy) (d : Dev) : Dev :=
  match aConf a, aLevel a with
  | some g, _ => placeConf i g c d
  | none, some g =>
    if (levelOf d g).enabled then (newCopy i { c with state := 0, level := some (g, 0), unequal := (portOf d c.port).state != 4 } d).2
    else placeOrdinary i a rw c d
  | none, none => placeOrdinary i a rw c d

/-- One copy of a frame at its enqueue decision. -/
def enqueueTarget (i : Nat) (a : List Nat) (rw : List Byte) (t : Target) (d : Dev) : Dev :=
  let f := frameOf d i
  let slots : List Slot := match f.stream with | some s => (streamOf d s).slots | none => []
  let slot := slots.findIdx? fun x => x.port == t.port
  let (q, beyond) := match slot with
    | some k => ((queueRange d t.port).1 + ((slots[k]?).map (fun (x : Slot) => x.queue)).getD 0, false)
    | none => localQueue d t.port t.queue
  let c : Copy := { frame := i, port := t.port, queue := q, slot, out := rewriteFrame a rw f.fv t.vid (passBytes f), rewrite := aRewrite a,
                    trailerMode := aTrailer a }
  let d := if beyond then note i 0x20B t.port d else d
  let d := if (portOf d t.port).mtu < c.out.length + 4 then modFrame i (fun f => { f with doomed := f.doomed <|> some 12 }) d else d
  if f.stream.isSome then placeCopy i a rw { c with part := 2 } d
  else if (portOf d t.port).state != 4 then
    note i 0x209 t.port (newCopy i { c with state := 5, unequal := (match aLevel a with | some g => (levelOf d g).enabled | none => false) } d).2
  else
    match admitPart d f q (f.colour == 1) with
    | some part => placeCopy i a rw { c with part } d
    | none => note i 0x402 q d

/-- A guarded frame finds no room: it is refused at the Weir (R44, R220, R258). -/
def refusedAt (d : Dev) (f : Frame) (a : List Nat) : Option (List (Nat × Nat)) :=
  if f.stream.isNone then none
  else if !reserveRoom d f then some [(0x50B, dieOf f.port)]
  else
    match aConf a with
    | some g =>
      let p := (confOf d g).port
      let slots : List Slot := match f.stream with | some s => (streamOf d s).slots | none => []
      let queue := match slots.find? fun x => x.port == p with
        | some x => (queueRange d p).1 + x.queue
        | none => (localQueue d p (confOf d g).queue).1
      if confEntry d f g queue true && !confRoom d g then some [(0x50B, dieOf f.port), (0x601, g)] else none
    | none => none

/-- The enqueue decision of a frame: every copy of its action, in the order of its list (R173, R177, R217). -/
def enqueueFrame (i : Nat) (d : Dev) : Dev :=
  let f := frameOf d i
  let a := f.action
  let rw := rewriteIn d (basinOf f.port) f.gen (aRewrite a)
  let all := targetsOf d a f.port
  let multi := aDest a == 1 || aDest a == 2
  let ts := if multi then all.filter fun t => !portUnused d t.port else all
  let d := (all.drop ts.length).foldl (fun d _ => note i 0x117 f.port d) d
  let d := modFrame i (fun f => { f with enqueued := true }) d
  if multi && ts.isEmpty then modFrame i (fun f => { f with drop := f.drop <|> some 19 }) d
  else
    match refusedAt d f a with
    | some ns => modFrame i (fun f => { f with refused := true, reserve := false, notes := f.notes ++ ns }) d
    | none =>
      let skipped := ts.any fun t => t.vid.isSome && vidSkipped a f.fv (passBytes f)
      let marked := f.notes.any fun n => n.1 == 0x112
      let d := if skipped && !marked then note i 0x112 f.port d else d
      ts.foldl (fun d t => enqueueTarget i a rw t d) d

end Sys2Proof.Machine
end

