-- ==== Sys2Proof/Machine/Entries.lean ====
section
/-!
DEFINITION. What writes to the tables do (06_tables.md, 07_actions_learning.md): exact-match insertion and relocation, LPM, TCAM,
profiles, action and rewrite entries, multicast lists, synchronisation, and the digest of a generation.
-/

namespace Sys2Proof.Machine

/-- The inactive generation (R138). -/
def inactive (d : Dev) : Nat := 1 - d.tables.current

-- Exact match: places and relocation (R145, R148) ------------------------------------------------------------------------------

def firstFree (es : Tbl (Option Em)) (ps : List Nat) : Option Nat := ps.find? fun p => (tget none es p).isNone

/-- The bucket of a place, none for the stash. -/
def bucketOf (p : Nat) : Option Nat := if p < 2 ^ 23 then some (p / 4) else none

/-- The other candidate bucket of a key that stands in bucket `b`. -/
def otherBucket (x : EmDef) (key : List Byte) (b : Nat) : Nat := if bucket0 x key = b then bucket1 x key else bucket0 x key

/-- The other bucket of the occupant of a place. -/
def nextBucket (x : EmDef) (es : Tbl (Option Em)) (p : Nat) : Nat :=
  match tget none es p with
  | some e => otherBucket x e.key (p / 4)
  | none => p / 4

/-- Breadth-first search for a relocation chain: paths of places, the latest first, of one length; `n` more moves may be added.
The chain found begins with its free place (log 31). -/
def searchChain (x : EmDef) (es : Tbl (Option Em)) : Nat → List Nat → List (List Nat) → Option (List Nat)
  | 0, _, _ => none
  | n + 1, seen, paths =>
    match paths.findSome? fun path => (firstFree es (bucketPlaces (nextBucket x es (path.headD 0)))).map (· :: path) with
    | some chain => some chain
    | none =>
      let (seen, longer) := paths.foldl (fun (seen, acc) path =>
        let b := nextBucket x es (path.headD 0)
        if seen.contains b then (seen, acc) else (b :: seen, acc ++ (bucketPlaces b).map (· :: path))) (seen, [])
      searchChain x es n seen longer

/-- Slot writes in order (R147). -/
def writeSlots (ws : List (Nat × Option Em)) (es : Tbl (Option Em)) : Tbl (Option Em) := ws.foldl (fun es w => tput none w.1 w.2 es) es

/-- The writes of the moves along a chain, from its free end back: each entry is written to its destination, then its source is
cleared (R148). -/
def moveWrites : List Nat → Tbl (Option Em) → List (Nat × Option Em)
  | dst :: src :: rest, es =>
    let ws := [(dst, tget none es src), (src, none)]
    ws ++ moveWrites (src :: rest) (writeSlots ws es)
  | _, _ => []

/-- How a new entry is inserted (R148 steps 2 to 4): the slot writes in order, the moves, PLACE (0 bucket b0, 1 bucket b1, 2 the
stash), and the places that hold the key on its way; none where the insertion fails. With a relocation chain the entry is first
staged in a free stash entry, if there is one. -/
def emPlan (x : EmDef) (es : Tbl (Option Em)) (e : Em) : Option (List (Nat × Option Em) × Nat × Nat × List Nat) :=
  let b0 := bucket0 x e.key
  let b1 := bucket1 x e.key
  let home := fun (p : Nat) => if p / 4 = b0 then 0 else 1
  match firstFree es (bucketPlaces b0 ++ bucketPlaces b1) with
  | some p => some ([(p, some e)], 0, home p, [p])
  | none =>
    match searchChain x es 8 [b0, b1] (((bucketPlaces b0 ++ bucketPlaces b1).eraseDups).map ([·])) with
    | some chain =>
      let p := chain.getLastD 0
      let stage := (firstFree es stashPlaces).toList
      some (stage.map (fun s => (s, some e)) ++ moveWrites chain es ++ [(p, some e)] ++ stage.map (fun s => (s, none)), chain.length - 1, home p,
        p :: stage)
    | none => match firstFree es stashPlaces with
      | some p => some ([(p, some e)], 0, 2, [p])
      | none => none

/-- The table with a new entry, the moves made and where it was placed. -/
def emInsert (x : EmDef) (es : Tbl (Option Em)) (e : Em) : Option (Tbl (Option Em) × Nat × Nat) :=
  (emPlan x es e).map fun (ws, moves, place, _) => (writeSlots ws es, moves, place)

/-- The places that hold a key. -/
def keyPlaces (x : EmDef) (es : Tbl (Option Em)) (key : List Byte) : List (Nat × Em) :=
  (placesOf x key).filterMap fun p => match tget none es p with
    | some e => if e.key = key then some (p, e) else none
    | none => none

def placeCode (x : EmDef) (key : List Byte) (p : Nat) : Nat :=
  match bucketOf p with | none => 2 | some b => if b = bucket0 x key then 0 else 1

/-- An entry with generation bits taken away; one that keeps none is deleted (R148). -/
def loseGens (a b : Bool) (e : Em) : Option Em :=
  let e := { e with genA := e.genA && !a, genB := e.genB && !b }
  if e.genA || e.genB then some e else none

/-- A stash entry with a free candidate slot: its place, that slot and the entry (R150). -/
def promotable (x : EmDef) (es : Tbl (Option Em)) : Option (Nat × Nat × Em) :=
  stashPlaces.findSome? fun p => (tget none es p).bind fun e =>
    (firstFree es (bucketPlaces (bucket0 x e.key) ++ bucketPlaces (bucket1 x e.key))).map fun q => (p, q, e)

/-- One stash entry moves into its free candidate slot: the destination is written, then the stash copy is cleared (R148, R150). -/
def promoteOne (x : EmDef) (es : Tbl (Option Em)) : Tbl (Option Em) :=
  match promotable x es with
  | some (p, q, e) => writeSlots [(q, some e), (p, none)] es
  | none => es

/-- Every stash entry that has a free candidate slot moves into it. -/
def promote (x : EmDef) (es : Tbl (Option Em)) : Tbl (Option Em) := stashPlaces.foldl (fun es _ => promoteOne x es) es

/-- The key's entry that takes a new result in place, where one may: the one that serves the current generation before the other (R148
step 1). -/
def emCarrier (x : EmDef) (es : Tbl (Option Em)) (cur : Nat) (key : List Byte) (a b : Bool) (result : Nat) : Option (Nat × Em) :=
  let fits := fun (e : Em) => ((!e.genA || a) && (!e.genB || b)) || e.result == result
  let serves := fun (e : Em) => if cur = 0 then e.genA else e.genB
  let able := (keyPlaces x es key).filter fun (_, e) => fits e
  (able.find? fun (_, e) => serves e) <|> able.head?

/-- How a new result comes to a key by a new entry: the insertion's writes, and then the key's other entry loses the target generation
bits (R148 step 1). -/
def emNew (x : EmDef) (es : Tbl (Option Em)) (key : List Byte) (a b : Bool) (result : Nat) :
    Option (List (Nat × Option Em) × Nat × Nat × List Nat) :=
  (emPlan x es { key, genA := a, genB := b, result }).map fun (ws, moves, place, ps) =>
    let es' := writeSlots ws es
    let fixes := (keyPlaces x es key).filterMap fun (_, o) =>
      ((keyPlaces x es' key).find? fun y => y.2 == o).map fun y => (y.1, loseGens a b o)
    (ws ++ fixes, moves, place, ps)

/-- A programmed insert or replace for the target generations (R148): the table, MOVES and PLACE. -/
def emWrite (x : EmDef) (es : Tbl (Option Em)) (cur : Nat) (key : List Byte) (a b : Bool) (result : Nat) :
    Option (Tbl (Option Em) × Nat × Nat) :=
  match emCarrier x es cur key a b result with
  | some (p, e) =>
    let carrier := { e with result := result, genA := e.genA || a, genB := e.genB || b }
    let es := (keyPlaces x es key).foldl (fun es (q, o) => if q = p then es else tput none q (loseGens carrier.genA carrier.genB o) es) es
    some (tput none p (some carrier) es, 0, placeCode x key p)
  | none => (emNew x es key a b result).map fun (ws, moves, place, _) => (writeSlots ws es, moves, place)

/-- A programmed delete for the target generations (R157, R166). -/
def emDelete (x : EmDef) (es : Tbl (Option Em)) (key : List Byte) (a b : Bool) : Tbl (Option Em) :=
  (keyPlaces x es key).foldl (fun es (p, e) => tput none p (loseGens a b e) es) es

/-- A fault of an exact-match entry (its Basin and address) that still stands after a table's places went from `old` to `new`. -/
def stillBad (basin : Option Nat) (t : Nat) (old new : Tbl (Option Em)) (e : Nat × Nat) : Bool :=
  let place := e.2 % 2 ^ 24
  let elsewhere := match basin with | some b => e.1 != b | none => false
  e.2 / 2 ^ 38 != 0 || e.2 / 2 ^ 24 != t || elsewhere || tget none old place == tget none new place

/-- Of the faults of table entries, and of the words that TWR wrote, those stay whose Basin and entry address `keep` holds of: the others'
entries have been written anew and are good again (R504, log 22). -/
def keepFaults (keep : Nat × Nat → Bool) (d : Dev) : Dev :=
  { d with tables := { d.tables with bad := d.tables.bad.filter fun e => keep (e.basin, e.addr) },
           steward := { d.steward with rawWords := d.steward.rawWords.filter fun w => keep (rawEntry w.1) } }

/-- An entry has been written anew in every Basin. -/
def mend (addr : Nat) (d : Dev) : Dev := keepFaults (fun e => e.2 != addr) d

/-- A programmed table's entries (R143). -/
def setEm (t : Nat) (es : Tbl (Option Em)) (d : Dev) : Dev :=
  let old := programmedOf d t
  keepFaults (stillBad none t old es)
    { d with tables := { d.tables with em := tput [] t (slotsOf (tableDef d t) (tget [] d.tables.em t) es) d.tables.em } }

/-- A learned table's entries in one Basin. -/
def setLearned (b t : Nat) (es : Tbl (Option Em)) (d : Dev) : Dev :=
  let x := basinState d b
  keepFaults (stillBad (some b) t (learnedOf d b t) es)
    (setBasin b { x with em := tput [] t (slotsOf (tableDef d t) (tget [] x.em t) es) x.em } d)

-- `table.write` (R157, R166) ------------------------------------------------------------------------------------------------------

/-- The target generations of a write: A and B. -/
def targetGens (d : Dev) (target : Nat) : Bool × Bool := (target == 1 || inactive d == 0, target == 1 || inactive d == 1)

/-- What a write that has been applied answers: status, MOVES and PLACE. -/
structure Wrote where
  dev : Dev
  status : Nat := stOk
  moves : Nat := 0
  place : Nat := 0xFF

/-- An exact-match write. A delete, and an insertion that fails, answer MOVES 0 and PLACE 0xFF (DESIGN CHOICE, log 31): the spec gives
them no code. -/
def applyEm (q : List Byte) (d : Dev) : Wrote :=
  let t := u8 q 3
  let x := tableDef d t
  let key := slice q 16 x.keyBytes
  let (a, b) := targetGens d (u8 q 2)
  let es := programmedOf d t
  if u8 q 1 = 1 then { dev := setEm t (emDelete x es key a b) d }
  else
    match emWrite x es d.tables.current key a b (u32 q 12) with
    | some (es, moves, place) => { dev := setEm t es d, moves, place }
    | none => { dev := d, status := stFull }

/-- Words of arrays that are new to the node store are good (R153, R504). -/
def mendLpm (old : List LpmArr) (d : Dev) : Dev :=
  let fresh := d.tables.lpm.filter fun r => !old.any fun o => o.base == r.base && o.words == r.words
  keepFaults (fun e => !fresh.any fun r => decide (lpmAddr r.base ≤ e.2) && decide (e.2 < lpmAddr (r.base + r.words.length))) d

/-- LPM leaves in use: a prefix present in both generations with one action index counts once (R151). -/
def leaves (d : Dev) (family : Nat) : Nat :=
  let mine := fun (x : Gen) => x.lpm.filter fun (k, _) => k / 2 ^ 148 == family
  let a := mine d.tables.genA
  a.length + ((mine d.tables.genB).filter fun (k, r) => tget none a k != r).length

def lpmCapacity (family : Nat) : Nat := if family = 1 then 262144 else 65536

/-- The address of an LPM write, left-aligned in 128 bits. -/
def lpmAddress (q : List Byte) : Nat := if u8 q 0 = 1 then beAt q 16 4 * 2 ^ 96 else beAt q 16 16

/-- Prefix of an LPM write. -/
def lpmKeyOf (q : List Byte) : Nat := lpmKey (u8 q 0) (u16 q 6) (lpmAddress q) (u8 q 8)

/-- An LPM write of the target generations' prefixes, whose tries then follow, copied on write. An addition that finds too little room
changes nothing (R152); a delete finds its room always (DESIGN CHOICE, log 112). -/
def applyLpm (q : List Byte) (d : Dev) : Wrote :=
  let v := if u8 q 1 = 1 then none else some (u32 q 12)
  let put := fun (on : Bool) (x : Gen) => if on then { x with lpm := tput none (lpmKeyOf q) v x.lpm } else x
  let (a, b) := targetGens d (u8 q 2)
  let e := relink (rootKey (u8 q 0) (u16 q 6))
    { d with tables := { d.tables with genA := put a d.tables.genA, genB := put b d.tables.genB } }
  if u8 q 1 = 0 && (leaves e (u8 q 0) > lpmCapacity (u8 q 0) || !lpmFits e.tables.lpm) then { dev := d, status := stFull }
  else { dev := mendLpm d.tables.lpm e }

/-- A TCAM block holds a valid entry. -/
def blockUsed (x : Gen) (block : Nat) : Bool := x.tcam.any fun (i, e) => e.isSome && i / 1024 == block

/-- A TCAM write that would change the width of a block with valid entries (R154). -/
def widthClash (x : Gen) (q : List Byte) : Bool :=
  u8 q 1 == 0 && tget false x.wideBlocks (u16 q 4 / 1024) != (u8 q 3 == 1) && blockUsed x (u16 q 4 / 1024)

def applyTcam (q : List Byte) (d : Dev) : Wrote :=
  let g := inactive d
  let x := genOf d g
  let i := u16 q 4
  let wide := u8 q 3 == 1
  let n := if wide then 80 else 40
  if widthClash x q then { dev := d, status := stConflict }
  else if u8 q 1 = 1 then
    if tget false x.wideBlocks (i / 1024) = wide then { dev := mend (tcamAddr g i) (setGen g { x with tcam := tput none i none x.tcam } d) }
    else { dev := d }
  else
    let e : Tcam := { wide, key := slice q 16 n, mask := slice q (16 + n) n, result := u32 q 12 }
    { dev := mend (tcamAddr g i) (setGen g { x with tcam := tput none i (some e) x.tcam, wideBlocks := tput false (i / 1024) wide x.wideBlocks } d) }

def applyProfile (q : List Byte) (d : Dev) : Wrote :=
  let g := inactive d
  let x := genOf d g
  let b := slice q 16 32
  let v := if u8 q 1 = 1 || b == coldProfile then none else some b
  { dev := setGen g { x with profiles := tput none (u8 q 3) v x.profiles } d }

/-- The effect of an accepted `table.write`. -/
def applyTableWrite (q : List Byte) (d : Dev) : Wrote :=
  match u8 q 0 with
  | 0 => applyEm q d
  | 1 => applyLpm q d
  | 2 => applyLpm q d
  | 3 => applyTcam q d
  | _ => applyProfile q d

-- Action and rewrite entries, multicast lists (R170, R177, R182) ---------------------------------------------------------------------

/-- The four words of an action entry as written: the device generates their parity (R170, R191). -/
def actionWords (b : List Byte) : List Nat := (List.range 4).map fun k => parityWord (u64 b (8 * k))

/-- One entry of an `action.write`. -/
def writeAction (q : List Byte) (k : Nat) (d : Dev) : Dev :=
  let g := inactive d
  let n := u32 q 4 + k
  let x := genOf d g
  if u8 q 0 = 0 then
    let a := actionWords (slice q (8 + 32 * k) 32)
    mend (actionAddr false g n) (setGen g { x with actions := tput none n (if a = coldAction then none else some a) x.actions } d)
  else
    let r := slice q (8 + 128 * k) 128
    mend (actionAddr true g n) (setGen g { x with rewrites := tput none n (if r = List.replicate 128 0 then none else some r) x.rewrites } d)

/-- The entries of an `action.write` from the k-th on. -/
def applyActions (q : List Byte) (k : Nat) (d : Dev) : Dev := ((List.range (u8 q 1)).drop k).foldl (fun d k => writeAction q k d) d

/-- Copy entries of a list that lie in a die's pool (R177). -/
def poolUse (es : List Nat) (die : Nat) : Nat := (es.filter fun e => dieOf (bitsOf e 8 0) == die).length

def mcastEntries (b : List Byte) (n : Nat) : List Nat := (List.range n).map fun k => u64 b (8 * k)

/-- The status with which a list is taken (R177). -/
def mcastVerdict (es : List Nat) (d : Dev) : Nat :=
  let used := fun die => d.tables.mcast.foldl (fun a (_, l) => a + poolUse l die) 0
  if es.any fun e => portUnused d (bitsOf e 8 0) || bitsOf e 63 32 != 0 then stRange
  else if [0, 1].any fun die => decide (262144 < used die + poolUse es die) then stFull
  else stOk

def applyMcast (q host : List Byte) (d : Dev) : Wrote :=
  let es := mcastEntries host (u16 q 2)
  let st := mcastVerdict es d
  if st = stOk then { dev := { d with tables := { d.tables with mcast := tput [] (u16 q 0) es d.tables.mcast } } } else { dev := d, status := st }

-- Synchronisation (R167, R372) -----------------------------------------------------------------------------------------------------------

/-- An entry after a sync from generation `cur`: its inactive bit follows its current one. -/
def syncEm (cur : Nat) (e : Em) : Option Em :=
  let on := if cur = 0 then e.genA else e.genB
  if on then some { e with genA := true, genB := true } else none

/-- One part of a `table.sync`, of six: the inactive generation takes the current one's graph, profiles, action tables, TCAM bank, LPM
roots and exact-match bits. -/
def syncPart (k : Nat) (d : Dev) : Dev :=
  let cur := d.tables.current
  let g := 1 - cur
  let src := genOf d cur
  let dst := genOf d g
  match k with
  | 0 => setGen g { dst with graph := src.graph } d
  | 1 => setGen g { dst with profiles := src.profiles } d
  | 2 => keepFaults (fun e => !(e.2 / 2 ^ 38 == 3 && e.2 / 2 ^ 16 % 2 == g)) (setGen g { dst with actions := src.actions, rewrites := src.rewrites } d)
  | 3 => keepFaults (fun e => !(e.2 / 2 ^ 38 == 2 && e.2 / 2 ^ 14 % 2 == g)) (setGen g { dst with tcam := src.tcam, wideBlocks := src.wideBlocks } d)
  | 4 =>
    let e := setGen g { dst with lpm := src.lpm, roots := src.roots } d
    let st := dst.roots.foldl (fun st r => retire d.clock r.1 [r.2] [tget none src.roots r.1] st) (reclaim d.clock d.tables.lpm)
    { e with tables := { e.tables with lpm := st } }
  | _ => d.tables.em.foldl (fun d t =>
      setEm t.1 ((programmedOf d t.1).filterMap fun (p, e) => (e.bind (syncEm cur)).map fun e => (p, some e)) d) d

/-- What is left of a `table.sync` from its k-th part on; the generation is then complete (R372). -/
def applySync (k : Nat) (d : Dev) : Dev :=
  let d := ((List.range 6).drop k).foldl (fun d k => syncPart k d) d
  let g := inactive d
  setGen g { genOf d g with incomplete := false } d

/-- The first k nodes of an image stand in the inactive generation's graph (R380). -/
def loadNodes (image : List Byte) (k : Nat) (d : Dev) : Dev :=
  let g := inactive d
  let x := genOf d g
  let new := graphOf image
  let old := x.graph.getD { new with nodes := [] }
  setGen g { x with graph := some { old with nodes := new.nodes.take k ++ old.nodes.drop k } } d

/-- A valid image becomes the inactive generation's graph (R134, R372). -/
def applyGraph (image : List Byte) (d : Dev) : Dev :=
  let g := inactive d
  setGen g { genOf d g with graph := some (graphOf image), incomplete := false } d

-- The digest of a generation (R164) ---------------------------------------------------------------------------------------------------------

def graphPart (x : Gen) : List Byte :=
  match x.graph with
  | some g => le 2 g.nodes.length ++ le 1 g.root ++ List.replicate 5 0 ++ g.nodes.flatten
  | none => List.replicate 8 0

def tcamPart (x : Gen) : List Byte :=
  (List.range 16).map (fun k => if tget false x.wideBlocks k then 2#8 else 1#8)
    ++ x.tcam.flatMap fun (i, e) => match e with
      | some e => le 2 i ++ [if e.wide then 2#8 else 1#8, 0#8] ++ e.key ++ e.mask ++ le 4 e.result
      | none => []

def lpmPart (x : Gen) : List Byte :=
  x.lpm.flatMap fun (k, r) => match r with
    | some r =>
      let family := k / 2 ^ 148
      let addr := k / 256 % 2 ^ 128
      le 1 family ++ le 1 (k % 256) ++ le 2 (k / 2 ^ 136 % 4096) ++ padTo 16 (if family = 1 then be 4 (addr / 2 ^ 96) else be 16 addr) ++ le 4 r
    | none => []

/-- A table's entries, those at the places that an insertion under way fills coming last: the shadow does not hold them yet. -/
def movingLast (d : Dev) (t : Nat) : List Em :=
  let ps := (d.steward.ops.filter fun o => o.code == 1 && o.key == t + 1).flatMap fun o => match o.planned with | some (_, _, ps) => ps | none => []
  let es := (programmedOf d t).filterMap fun (p, e) => e.map fun e => (p, e)
  ((es.filter fun e => !ps.contains e.1) ++ es.filter fun e => ps.contains e.1).map (·.2)

/-- The first entry of each key: the copies of an entry that is being moved are one (R149, R164). -/
def oncePerKey : List Em → List Em
  | [] => []
  | e :: es => e :: (oncePerKey es).filter fun x => x.key != e.key

def emPart (d : Dev) (g t : Nat) : List Byte :=
  let x := tableDef d t
  if x.kind != 1 then []
  else
    let es := oncePerKey ((movingLast d t).filter (visible 1 g))
    le 1 t ++ le 1 (b2n x.wide) ++ le 1 x.keyBytes ++ [0#8] ++ padTo 8 x.segments
      ++ (sortBy (fun (e : Em) => beNat e.key) es).flatMap fun e => e.key ++ le 4 e.result

/-- The canonical content of a generation. -/
def content (d : Dev) (g : Nat) : List Byte :=
  let x := genOf d g
  graphPart x ++ (List.range 16).flatMap (profileOf x)
    ++ (List.range 65536).flatMap (fun i => (actionOf x i).flatMap fun w => le 8 (w % 2 ^ 63)) ++ (List.range 8192).flatMap (rewriteOf x)
    ++ tcamPart x ++ lpmPart x ++ (List.range 16).flatMap (emPart d g)

def genDigest (d : Dev) (g : Nat) : List Byte := sha256 (content d g)

end Sys2Proof.Machine
end

