-- ==== Sys2Proof/Machine/Program.lean ====
section
/-!
DEFINITION. Programmed commands (R304): what a unit checks before it takes one, and how it becomes a Steward operation that is
mirrored to a partner and pushed to workers. The same checks serve a command that a partner or a manager sent.
-/

namespace Sys2Proof.Machine

/-- What a programmed command meets: it is turned away with a status and response bytes from offset 2, done at once, or becomes a
Steward operation of a code and an exclusion key. -/
inductive Ask where
  | no (status : Nat) (body : List Byte)
  | now (dev : Dev)
  | op (code key : Nat)
  deriving DecidableEq

/-- A programmed command from the host is refused: by a unit that does not send, and by a worker with PUSH set (R305, R395). -/
def refusedHere (d : Dev) : Bool := !sendingUnit d || pushedOnly d

-- `table.define` (R142, R165) ----------------------------------------------------------------------------------------------------

def blocksOverlap (x : EmDef) (first count : Nat) : Bool :=
  x.kind != 0 && decide (x.first < first + count) && decide (first < x.first + x.count)

/-- A table holds an entry in some Basin, or an operation on it is still to come (log 32). -/
def tableUsed (d : Dev) (t : Nat) : Bool :=
  !(programmedOf d t).isEmpty || d.tables.basins.any (fun (_, b) => !(emsOf (tableDef d t) (tget [] b.em t)).isEmpty)
    || d.steward.ops.any (fun o => (o.code == 1 || o.code == 8 || o.code == 9) && o.key == t + 1)

/-- Key segments lie within the Field Vector (R142). -/
def segmentsOk (b : List Byte) : Bool := (segmentsOf b).all fun (o, n) => decide (o + n ≤ 96)

def segmentsLen (b : List Byte) : Nat := (segmentsOf b).foldl (fun a e => a + e.2) 0

def askDefine (q : List Byte) (d : Dev) : Ask :=
  let t := u8 q 0
  let wide := u8 q 2 == 1
  let segs := slice q 8 8
  let others := (List.range 16).any fun k => k != t && blocksOverlap (tableDef d k) (u8 q 4) (u8 q 5)
  let put := fun (x : EmDef) => { d with tables := { d.tables with defs := tput {} t x d.tables.defs } }
  if t > 15 || u8 q 1 > 2 || !zerosAt q 6 2 || u8 q 2 > 1 || !within (u8 q 3) 1 (if wide then 48 else 12) || !within (u8 q 5) 1 64
      || u8 q 4 + u8 q 5 > 64 then .no stRange []
  else if u8 q 1 = 0 then if tableUsed d t then .no stConflict [] else .now (put {})
  else if others || !segmentsOk segs || segmentsLen segs > u8 q 3 then .no stRange []
  else if tableUsed d t then .no stConflict []
  else .now (put { kind := u8 q 1, wide, keyBytes := u8 q 3, first := u8 q 4, count := u8 q 5, segments := segs, seed0 := u32 q 16, seed1 := u32 q 20 })

-- `table.write` (R140, R154, R157, R158, R166) ---------------------------------------------------------------------------------------

/-- A profile is within its limits (R140, R169). -/
def profileOk (b : List Byte) : Bool :=
  let segs := (List.range 4).map fun k => (u8 b (12 + 2 * k), u8 b (13 + 2 * k))
  let family := u8 b 4
  let codes := ((List.range 6).map fun k => leAt b 20 3 / 16 ^ k % 16).takeWhile (· != 0xF)
  (List.range 4).all (fun k => u8 b k ≤ 15 || u8 b k == 0xFF) && decide (family ≤ 2)
    && (family == 0 || (decide (u8 b 5 + (if family = 1 then 4 else 16) ≤ 96) && (u8 b 6 == 0xFF || decide (u8 b 6 + 2 ≤ 96))))
    && u8 b 7 == 0 && decide (u16 b 8 ≤ 4095) && decide (u8 b 10 ≤ 2) && u8 b 11 == 0
    && (u8 b 10 == 0 || (segs.all (fun e => decide (e.1 + e.2 ≤ 96)) && segs.foldl (fun a e => a + e.2) 0 == 40 * u8 b 10))
    && codes.all (fun k => decide (k ≤ 5)) && u8 b 23 == 0 && decide (u32 b 24 ≤ 65535) && zerosAt b 28 4

/-- An LPM write's prefix is within its limits (R166). -/
def lpmOk (q : List Byte) : Bool :=
  let v4 := u8 q 0 == 1
  let len := u8 q 8
  decide (u16 q 6 ≤ 4095) && decide (len ≤ if v4 then 32 else 128) && cutAddr (lpmAddress q) len == lpmAddress q

/-- A `table.write` request is in range. -/
def writeOk (d : Dev) (q : List Byte) : Bool :=
  let o := u8 q 0
  o ≤ 4 && u8 q 1 ≤ 1 && u8 q 2 ≤ 1 && zerosAt q 9 3 && (u8 q 2 == 0 || o ≤ 2) && (o == 3 || u16 q 4 == 0)
    && (u32 q 12 ≤ if u8 q 1 == 1 || o == 4 then 1048575 else 65535)
    && match o with
      | 0 => decide (u8 q 3 ≤ 15) && (tableDef d (u8 q 3)).kind == 1
      | 3 => decide (u8 q 3 ≤ 1) && decide (u16 q 4 ≤ 16383) && !(u8 q 3 == 1 && u16 q 4 % 2 == 1)
      | 4 => decide (u8 q 3 ≤ 15) && (u8 q 1 == 1 || profileOk (slice q 16 32))
      | _ => u8 q 3 == 0 && lpmOk q

/-- The inactive generation may be written by a new command (R158, R384). -/
def writable (d : Dev) : Bool := drained d (inactive d) && d.tables.swap.isNone

def askWrite (q : List Byte) (d : Dev) : Ask :=
  let place := le 1 0 ++ le 1 0xFF
  if q.length < 192 || !writeOk d q then .no stRange place
  else if u8 q 2 = 0 && !writable d then .no stBusy place
  else if u8 q 0 = 3 && widthClash (genOf d (inactive d)) q then .no stConflict place
  else
    match u8 q 0 with
    | 0 => .op 1 (u8 q 3 + 1)
    | 3 => .op 3 (u16 q 4 / 1024 + 1)
    | 4 => .op 3 0
    | _ => .op 2 0

-- `table.swap`, `table.sync` (R160, R167, R396) ------------------------------------------------------------------------------------------

/-- A snapshot that this unit sends is in progress until its partner has acknowledged it (R319, R320). -/
def snapshotOut (d : Dev) : Bool := d.pair.unacked.any fun u => u.subtype == 0x27

def askSwap (q : List Byte) (d : Dev) : Ask :=
  if !zerosAt q 0 4 then .no stRange []
  else if d.tables.swap.isSome || snapshotOut d then .no stBusy []
  else if (genOf d (inactive d)).incomplete then .no stConflict []
  else .op 6 0

def askSync (q : List Byte) (d : Dev) : Ask :=
  if !zerosAt q 0 4 then .no stRange [] else if !writable d then .no stBusy [] else .op 7 0

/-- PUSH messages to workers in step that are not yet acknowledged (R396). -/
def pushesOpen (d : Dev) : Bool :=
  d.cascade.unacked.any fun u => u.subtype == 0x46 && d.cascade.members.any fun m => m.num == u.member / 256 && m.unit == u.member % 256 && !m.outOfStep

/-- The beat number N that Helm chooses: at least 2 beats ahead, 16 where others flip at it too, and 10 ms more while earlier
PUSHes wait for their ACK (R160, R396, log 33). -/
def swapBeat (d : Dev) : Nat :=
  coreTicks d.time.west / 4096 + (if d.pair.mode = 1 || !(pushTargets d).isEmpty then 34 else 3) + (if pushesOpen d then 39063 else 0)

-- `parse.load` (R134, R135) --------------------------------------------------------------------------------------------------------------

/-- PARSE_LOAD's answer at its request. DESIGN CHOICE (log 69): nonzero reserved bytes are judged before ST_BUSY, the other fields after it. -/
def askLoad (q : List Byte) (host : Option (List Byte)) (d : Dev) : Ask :=
  let err := fun (e : Nat × Nat) => Ask.no stRange (le 1 e.1 ++ le 1 e.2)
  if !zerosAt q 12 4 then err (7, 0xFF)
  else if !writable d || opVerdict d 4 0 != stOk then .no stBusy []
  else if u64 q 0 % 64 != 0 then err (11, 0xFF)
  else if !within (u32 q 8) 64 65600 then err (2, 0xFF)
  else
    match host with
    | none => .no stFault []
    | some b => match imageError (u64 q 0) (u32 q 8) (padTo (u32 q 8) b) with
      | some e => err e
      | none => .op 4 0

-- `action.write`, `mcast.write` (R171, R191, R192) ---------------------------------------------------------------------------------------

/-- An action entry that R171 rejects. -/
def actionBad (d : Dev) (a : List Nat) : Bool :=
  let k := aDest a
  let dest := aw a 0 17 3
  let learns := bitOf (a.getD 3 0) 21
  let conf := (aConf a).isSome
  let lr := (aLevel a).isSome
  k > 4 || aTrailer a == 3 || aTunnel a == 3 || aw a 0 62 53 != 0 || aw a 1 62 42 != 0 || aw a 2 62 49 != 0 || aw a 3 62 26 != 0
    || (k == 0 && (portUnused d (aPort a) || aw a 0 17 12 != 0)) || (k == 4 && decide (aReason a < 0x100)) || (k != 4 && aReason a != 0)
    || (decide (k ≥ 3) && dest != 0) || (conf && lr) || (conf && k != 0) || (lr && k != 1) || ((aStream a).isSome && k != 0 && k != 1)
    || (aTunnel a == 2 && (aTtlDec a || aDscpEn a))
    || (aRecirc a && ((aStream a).isSome || conf || lr || aMirror a || (aPolicer a).isSome || (aCounter a).isSome || learns))
    || (learns && (tableDef d (aw a 3 25 22)).kind != 2)

/-- A rewrite data entry that R171 rejects. -/
def rewriteBad (r : List Byte) : Bool :=
  decide (u8 r 12 > 4) || !zerosAt r 13 3 || !((r.drop (16 + encapLen (u8 r 12))).all (· == 0#8))

/-- ERR_ENTRY of an `action.write`: the first entry past the table's end, or the first in error (R191). -/
def entryError (d : Dev) (q : List Byte) : Option Nat :=
  let n := if u8 q 0 = 0 then 65536 else 8192
  (List.range (u8 q 1)).find? fun k =>
    decide (u32 q 4 + k ≥ n) || (if u8 q 0 = 0 then actionBad d (actionWords (slice q (8 + 32 * k) 32)) else rewriteBad (slice q (8 + 128 * k) 128))

def askAction (q : List Byte) (d : Dev) : Ask :=
  let size := if u8 q 0 = 0 then 32 else 128
  if u8 q 0 > 1 || !within (u8 q 1) 1 (if u8 q 0 = 0 then 120 else 30) || !zerosAt q 2 2 || q.length < 8 + size * u8 q 1 then .no stRange [0, 0]
  else
    match entryError d q with
    | some k => .no stRange [BitVec.ofNat 8 k, 0]
    | none => if writable d then .op 3 0 else .no stBusy []

def askMcast (q : List Byte) (host : Option (List Byte)) (_ : Dev) : Ask :=
  if u16 q 0 > 32767 || u16 q 2 > 512 || !zerosAt q 4 4 || u64 q 8 % 8 != 0 then .no stRange []
  else if u16 q 2 = 0 || host.isSome then .op 5 0 else .no stFault []

-- Taking one (R304, R305, R395, R415) --------------------------------------------------------------------------------------------------------

/-- Puts an accepted operation in the Steward's queue; a swap is in force from here on (R158). -/
def startOp (o : Op) (d : Dev) : Dev :=
  let id := d.steward.nextOp
  let d := enqueueOp o d
  if o.code = 6 then { d with tables := { d.tables with swap := some { op := id, beat := o.beat } } } else d

/-- A programmed command from the host (R304, R305, R395). -/
def programmed (opcode fn : Nat) (q host : List Byte) (ask : Ask) (beat : Nat) (d : Dev) : Reply :=
  if refusedHere d then rej stDenied d
  else
    match ask with
    | .no st body => { dev := d, status := st, body }
    | .now e => okay (pushInOrder opcode q (mirror opcode 0 q none e))
    | .op code key =>
      if opVerdict d code key != stOk then rej (opVerdict d code key) d
      else
        match openTicket fn d with
        | none => rej stBusy d
        | some (n, e) =>
          let e := mirror opcode beat (q ++ host) (some n) (startOp { id := 0, code, key, ticket := n, fn, req := q, host, opcode, own := true, beat } e)
          { dev := e, status := stPending,
            body := if code = 6 || code = 7 then le 2 0 ++ le 8 beat ++ le 4 n else if code ≤ 3 && opcode = 0x0602 then le 1 0 ++ le 1 0xFF ++ le 4 n
              else le 2 0 ++ le 4 n }

/-- The sender has chosen a later beat for the swap that it sent: the swap in place here, not yet flipped, takes it (R163, R396; DESIGN
CHOICE, log 33). -/
def redate (sender beat : Nat) (d : Dev) : Option Dev :=
  match d.tables.swap with
  | none => none
  | some x =>
    if x.flipped || !(d.steward.ops.any fun o => o.id == x.op && o.ack.map (·.1) == some sender && decide (o.beat < beat)) then none
    else
      some { d with tables := { d.tables with swap := some { x with beat } },
                    steward := { d.steward with ops := d.steward.ops.map fun o => if o.id = x.op then { o with beat } else o } }

/-- A programmed command that a partner or a manager sent: done at once, or an operation that acknowledges it at its end; where
it cannot be taken now it stays unacknowledged and comes again (R305, R389, R395). A command that is out of range here is
acknowledged without effect. -/
def takeRemote (opcode : Nat) (ask : Ask) (q host : List Byte) (beat : Nat) (ack : Nat × Nat) (d : Dev) : Option Dev :=
  let done := fun (d : Dev) => if ack.1 = 0 then tetherAck 0x24 ack.2 d else cascadeAck (upstreamPort d).toList 0x46 ack.2 0 0xFF d
  match ask with
  | .no st _ => if st = stBusy then (if opcode = 0x0603 then (redate ack.1 beat d).map done else none) else some (done d)
  | .now e => some (done e)
  | .op code key =>
    if opVerdict d code key = stBusy then none
    else if opVerdict d code key != stOk then some (done d)
    else some (startOp { id := 0, code, key, opcode, req := q, host, beat, ack := some ack } d)

/-- The programmed commands by opcode, with the bytes of each one's request; those beyond are what it read from host memory. -/
def askRemote (opcode : Nat) (body : List Byte) (d : Dev) : Option (Ask × List Byte × List Byte) :=
  let cut := fun n => (body.take n, body.drop n)
  match opcode with
  | 0x0501 => let (q, h) := cut 16; some (askLoad q (some h) d, q, h)
  | 0x0601 => some (askDefine body d, body, [])
  | 0x0602 => some (askWrite body d, body, [])
  | 0x0603 => some (askSwap body d, body, [])
  | 0x0604 => some (askSync body d, body, [])
  | 0x0701 => some (askAction body d, body, [])
  | 0x0702 => let (q, h) := cut 16; some (askMcast q (some h) d, q, h)
  | _ => none

end Sys2Proof.Machine
end

