-- ==== Sys2Proof/Machine/Parse.lean ====
section
/-!
DEFINITION. The parse commands (05_parser.md).
-/

namespace Sys2Proof.Machine

/-- PARSE_LOAD (R134, R135): `host` is the image as host memory gave it. -/
def execParseLoad (c : Cmd) (host : Option (List Byte)) (s : State) : Host.Outcome State Fault Refusal :=
  cmd 0x0501 16 8 c (fun q fn d =>
    programmed 0x0501 fn (q.take 16) (padTo (u32 q 8) (host.getD [])) (askLoad q host d) 0 d) s

/-- The parse punt bucket now under a rate and a burst, in 1/16,000,000,000 frame (R130). -/
def puntTokens (d : Dev) (rate burst : Nat) : Nat := min (burst * 16000000000) (d.tables.puntTokens + rate * (d.clock - d.tables.puntAt))

/-- The parse punt bucket now (R130). -/
def puntBucket (d : Dev) : Nat := puntTokens d d.tables.puntRate d.tables.puntBurst

/-- PARSE_OUTCOME (R136). -/
def execParseOutcome (c : Cmd) (s : State) : Host.Outcome State Fault Refusal :=
  cmd 0x0502 12 4 c (fun q _ d =>
    let b := u8 q 0
    if (b > 7 && b != 0xFF) || u8 q 1 > 2 || u8 q 2 > 2 || u8 q 3 != 0 || u32 q 4 > 1000000 || !within (u16 q 8) 1 1024 || u16 q 10 != 0 then rej stRange d
    else
      let t := { d.tables with puntTokens := min (puntBucket d) (u16 q 8 * 16000000000), puntAt := d.clock, puntRate := u32 q 4, puntBurst := u16 q 8 }
      okay ((if b = 0xFF then List.range 8 else [b]).foldl (fun d k =>
        setBasin k { basinState d k with malformed := u8 q 1, truncated := u8 q 2 } d) { d with tables := t })) s

/-- One generation's part of `parse.info`. -/
def graphInfo (x : Gen) : List Byte :=
  match x.graph with
  | some g => le 2 g.nodes.length ++ le 1 g.root ++ le 1 0 ++ le 4 g.crc ++ padTo 32 g.label
  | none => List.replicate 40 0

/-- A Basin's copies of the two graphs: those of a Basin at Drained are lost, and written again as it leaves (R472). -/
def graphCopy (d : Dev) (b : Nat) : Option Graph × Option Graph :=
  if (unitOf d (64 + b)).step = 5 then (none, none) else (d.tables.genA.graph, d.tables.genB.graph)

/-- Basins whose copy differs from Basin 0's in either generation (R137). -/
def graphsApart (d : Dev) : List Nat := (List.range 8).filter fun b => graphCopy d b != graphCopy d 0

/-- A Basin's copy that differs is reported, and Helm rewrites it from its shadow; the address of that report is free (R137, log 111). -/
def reportApart (d : Dev) : Dev :=
  (graphsApart d).foldl (fun d b => let (x, d) := takeFree d; report (0x300 + b) 0x06 (x % 2 ^ 38) d) d

/-- PARSE_INFO (R137). -/
def execParseInfo (c : Cmd) (s : State) : Host.Outcome State Fault Refusal :=
  cmd 0x0503 4 84 c (fun q _ d =>
    if !zerosAt q 0 4 then rej stRange d
    else
      let mine := fun (g : Option Graph) => graphInfo { graph := g }
      let body := le 1 d.tables.current ++ le 1 ((graphsApart d).foldl (fun a b => a + 2 ^ b) 0) ++ mine (graphCopy d 0).1 ++ mine (graphCopy d 0).2
      { dev := reportApart d, status := stOk, body }) s

end Sys2Proof.Machine
end

