-- ==== Sys2Proof/Machine/Tables.lean ====
section
/-!
DEFINITION. The table commands, the swap of generations, and what parity does (06_tables.md).
-/

namespace Sys2Proof.Machine

/-- TABLE_DEFINE (R142, R165): mirrored and pushed. -/
def execTableDefine (c : Cmd) (s : State) : Host.Outcome State Fault Refusal :=
  cmd 0x0601 24 4 c (fun q fn d => programmed 0x0601 fn (q.take 24) [] (askDefine q d) 0 d) s

/-- TABLE_WRITE (R157, R158, R166): mirrored and pushed. -/
def execTableWrite (c : Cmd) (s : State) : Host.Outcome State Fault Refusal :=
  cmd 0x0602 192 8 c (fun q fn d => programmed 0x0602 fn (q.take 192) [] (askWrite q d) 0 d) s

/-- TABLE_SWAP (R160, R167): mirrored with its beat number, and pushed when it starts. -/
def execTableSwap (c : Cmd) (s : State) : Host.Outcome State Fault Refusal :=
  cmd 0x0603 4 16 c (fun q fn d => programmed 0x0603 fn (q.take 4) [] (askSwap q d) (swapBeat d) d) s

/-- TABLE_SYNC (R167): mirrored and pushed; its layout's beat number reads 0 (log 33). -/
def execTableSync (c : Cmd) (s : State) : Host.Outcome State Fault Refusal :=
  cmd 0x0604 4 16 c (fun q fn d => programmed 0x0604 fn (q.take 4) [] (askSync q d) 0 d) s

/-- Entries of a table in Basin 0, the copies of one that is being moved counted once, and stash entries in use: a slot that the Steward
has cleared there holds none (R156, R168). -/
def emUse (d : Dev) (t : Nat) : Nat × Nat :=
  let es := (emsOf (tableDef d t) (slotTable d 0 t)).filter fun (p, _) => !badNow d 0 (emAddr t p)
  ((es.map (·.2)).eraseDups.length, (es.filter fun (p, _) => p ≥ 2 ^ 23).length)

/-- TABLE_STATUS (R164, R168). -/
def execTableStatus (c : Cmd) (s : State) : Host.Outcome State Fault Refusal :=
  cmd 0x0605 4 164 c (fun q _ d =>
    if !zerosAt q 0 4 then rej stRange d
    else
      let use := (List.range 16).map (emUse d)
      let body := le 1 d.tables.current ++ le 1 (b2n (inFlight d (inactive d) != 0)) ++ genDigest d 0 ++ genDigest d 1
        ++ use.flatMap (fun e => le 4 e.1) ++ use.flatMap (fun e => le 1 e.2) ++ le 4 (leaves d 1) ++ le 4 (leaves d 2)
        ++ le 4 (d.tables.genA.tcam.length + d.tables.genB.tcam.length) ++ le 4 d.tables.parityEvents
      { dev := d, status := stOk, body }) s

-- The swap (R158, R160, R384) ----------------------------------------------------------------------------------------------------

/-- The Steward operation of the swap in force. -/
def swapOp (d : Dev) : Option Op := d.tables.swap.bind fun x => opOf d x.op

/-- Every Basin's counter has reached a beat's tick (R160). -/
def beatReached (d : Dev) (beat : Nat) : Bool := (List.range 8).all fun b => decide (beat * 4096 ≤ islandTicks d (0x40 + b))

/-- Every Basin has taken the other generation (R160). -/
def flip (d : Dev) : Dev :=
  let old := d.tables.current
  noteDrained old { d with tables := { d.tables with current := 1 - old, swap := d.tables.swap.map fun x => { x with flipped := true } } }

/-- SWAP_FLIP (R160): the last Basin reaches beat N of a swap whose beat number has been sent to the Basins; each takes the other generation
at its own counter (`basinCurrent`). -/
def execSwapFlip (t : Nat) (s : State) : Host.Outcome State Fault Refusal :=
  act (fun d =>
    let d := advance t d
    match d.tables.swap with
    | some x => if !x.flipped && x.pushed && beatReached d x.beat then flip d else d
    | none => d) s

/-- SWAP_DRAIN_DONE (R160): 2 µs after the old generation's count reached 0 the swap's ticket completes; writes that waited
for it may start. A swap whose routine was stopped after beat N had been sent has no ticket left (R378). -/
def execSwapDrainDone (t : Nat) (s : State) : Host.Outcome State Fault Refusal :=
  act (fun d =>
    let d := advance t d
    match d.tables.swap with
    | some x =>
      if x.flipped && drained d (inactive d) then
        let e := { d with tables := { d.tables with swap := none } }
        match swapOp d with
        | some o => endOp o stOk [] e
        | none => e
      else d
    | none => d) s

-- Parity (R153, R155, R156, R172, R504) ----------------------------------------------------------------------------------------------

/-- The request of the Steward's re-read of a slot: Basin and address (R156, R371). -/
def rereadReq (basin addr : Nat) : List Byte := le 1 0xFF ++ le 1 basin ++ le 5 addr

/-- A Basin's copy of an entry fails: reported with the address of R504, counted, and out of use where `bad` says so, or to be
read again by the Steward. `addr` is the message's address. -/
def parityFault (basin kind addr : Nat) (suspect : Bool) (d : Dev) : Dev :=
  let d := report (0x300 + basin) kind addr d
  let e := entryAddr addr
  let mine := fun (x : BadEntry) => x.basin == basin && x.addr == e
  let rest := d.tables.bad.filter fun x => !mine x
  let at_ := if badNow d basin e then ((d.tables.bad.find? mine).map (·.at_)).getD d.clock else d.clock
  let d := { d with tables := { d.tables with parityEvents := (d.tables.parityEvents + 1) % 2 ^ 32, bad := rest ++ [{ basin, addr := e, at_, suspect }] } }
  if suspect && !d.steward.ops.any (fun o => o.code == 0x0A && o.req == rereadReq basin e) then addHwOp 0x0A (rereadReq basin e) 0 d else d

/-- A write to a TCAM block is in the Steward's hands, so the block's scrub waits (R383). -/
def blockBusy (d : Dev) (block : Nat) : Bool := d.steward.ops.any fun o => o.code == 3 && o.key == block + 1

/-- The scrub finds a segment of a valid TCAM entry in error: VALID is cleared in that Basin's copy (R155). -/
def scrubHit (b g i seg : Nat) (d : Dev) : Dev :=
  if b < 8 && (tget none (genOf d (g % 2)).tcam i).isSome then
    let d := noteBad { d with pair := { d.pair with scrubUncorr := d.pair.scrubUncorr + 1 } }
    parityFault b 0x07 (tcamAddr (g % 2) i + seg % 64 * 2 ^ 15) false d
  else d

/-- The request of a TABLE_SCRUB operation for one entry. -/
def scrubReq (b g i seg : Nat) : List Byte := le 1 b ++ le 1 g ++ le 2 i ++ le 1 seg

/-- A TABLE_SCRUB operation: the entry that it was queued for is read as it stands now. -/
def scrubOne (req : List Byte) (d : Dev) : Dev := scrubHit (u8 req 0) (u8 req 1) (u16 req 2) (u8 req 4) d

/-- TABLE_SCRUB_TIMER (R155): what the scrub found, as Basin, bank, entry index and 64-bit segment. The scrub of a block behind a write to it
(R383), or of a Basin that sleeps (R29), waits in the Steward's queue. -/
def execTableScrubTimer (t : Nat) (found : List (Nat × Nat × Nat × Nat)) (s : State) : Host.Outcome State Fault Refusal :=
  act (fun d =>
    found.foldl (fun d (b, g, i, seg) =>
      if blockBusy d (i / 1024) || !islandAwake d (0x40 + b) then addHwOp 0x0A (scrubReq b g i seg) (i / 1024 + 1) d else scrubHit b g i seg d)
      (advance t d)) s

/-- A stash entry of a table could take a free candidate slot: the Steward is asked to promote it (R150, R371). -/
def askPromote (t : Nat) (d : Dev) : Dev :=
  let x := tableDef d t
  let able := if x.kind = 2 then (List.range 8).any fun b => (promotable x (learnedOf d b t)).isSome else (promotable x (programmedOf d t)).isSome
  if able && !d.steward.ops.any (fun o => o.code == 1 && o.opcode == 0 && o.key == t + 1) then addHwOp 1 [] (t + 1) d else d

/-- One promotion of a table's stash, in the first Basin that has one; none where none is left. -/
def promoteNext (t : Nat) (d : Dev) : Option Dev :=
  let x := tableDef d t
  if x.kind = 2 then
    ((List.range 8).find? fun b => (promotable x (learnedOf d b t)).isSome).map fun b => setLearned b t (promoteOne x (learnedOf d b t)) d
  else if (promotable x (programmedOf d t)).isSome then some (setEm t (promoteOne x (programmedOf d t)) d)
  else none

/-- Every promotion of a table's stash. -/
def promoteTable (t : Nat) (d : Dev) : Dev :=
  let x := tableDef d t
  if x.kind = 2 then (List.range 8).foldl (fun d b => setLearned b t (promote x (learnedOf d b t)) d) d else setEm t (promote x (programmedOf d t)) d

/-- PARITY_REREAD (R156): the Steward reads an exact-match slot again. One that passes is used again; one that fails is cleared: a
programmed entry until Helm rewrites it, a learned one for good. A Basin that sleeps is read when it is awake (R29). -/
def execParityReread (t basin addr : Nat) (again : Bool) (s : State) : Host.Outcome State Fault Refusal :=
  act (fun d =>
    let d := advance t d
    let a := entryAddr addr
    let mine := fun (e : BadEntry) => e.basin == basin && e.addr == a && e.suspect
    if !islandAwake d (0x40 + basin) then d
    else
      let d := { d with steward := { d.steward with ops := d.steward.ops.filter fun o => !(o.code == 0x0A && o.req == rereadReq basin a) } }
      let tb := a / 2 ^ 24 % 16
      let fails := again || wordsFail (tableDef d tb) (slotWords d basin tb (a % 2 ^ 24))
      let drop := { d with tables := { d.tables with bad := d.tables.bad.filter fun e => !mine e } }
      if !d.tables.bad.any mine then d
      else if !fails then drop
      else if (tableDef d tb).kind = 2 then
        let x := basinState d basin
        let x := { x with em := tput [] tb (tput none (a % 2 ^ 24) none (tget [] x.em tb)) x.em }
        askPromote tb (keepFaults (fun e => e != (basin, a)) (setBasin basin x d))
      else
        let d := { d with tables := { d.tables with bad := d.tables.bad.map fun e => if mine e then { e with suspect := false } else e } }
        { d with steward := { d.steward with rawWords := d.steward.rawWords.filter fun w => rawEntry w.1 != (basin, a) } }) s

end Sys2Proof.Machine
end

