-- ==== Sys2Proof/Machine/Actions.lean ====
section
/-!
DEFINITION. The action commands (07_actions_learning.md) and `spec.configure` (08_speculation.md).
-/

namespace Sys2Proof.Machine

/-- ACTION_WRITE (R171, R191): mirrored and pushed. -/
def execActionWrite (c : Cmd) (s : State) : Host.Outcome State Fault Refusal :=
  cmd 0x0701 8 8 c (fun q fn d => programmed 0x0701 fn q [] (askAction q d) 0 d) s

/-- MCAST_WRITE (R177, R192): `host` is the list as host memory gave it; mirrored and pushed. -/
def execMcastWrite (c : Cmd) (host : Option (List Byte)) (s : State) : Host.Outcome State Fault Refusal :=
  cmd 0x0702 16 8 c (fun q fn d =>
    programmed 0x0702 fn (q.take 16) (padTo (8 * u16 q 2) (host.getD [])) (askMcast q host d) 0 d) s

/-- MIRROR_CONFIGURE (R176, R193). -/
def execMirrorConfigure (c : Cmd) (s : State) : Host.Outcome State Fault Refusal :=
  cmd 0x0703 12 4 c (fun q _ d =>
    let n := u16 q 6
    if u8 q 0 > 7 || u8 q 1 > 3 || portUnused d (u16 q 2) || u16 q 4 > 1023 || (n != 0 && !within n 64 9216) || !within (u32 q 8) 1 16777216 then
      rej stRange d
    else
      let x : Session := { enabled := bitOf (u8 q 1) 0, punt := bitOf (u8 q 1) 1, port := u16 q 2, queue := u16 q 4, truncate := n, sample := u32 q 8 }
      okay { d with tables := { d.tables with sessions := tput {} (u8 q 0) x d.tables.sessions } }) s

/-- SPEC_CONFIGURE (R213). -/
def execSpecConfigure (c : Cmd) (s : State) : Host.Outcome State Fault Refusal :=
  cmd 0x0801 4 4 c (fun q _ d =>
    let h := orDefault (u16 q 0) 64
    if !within h 64 256 || h % 16 != 0 || u8 q 2 > 1 || u8 q 3 != 0 then rej stRange d
    else
      let fresh := fun (f : Frame) => if d.clock < f.capAt && f.pass = 1 then { f with detHeader := h, specOff := u8 q 2 == 1 } else f
      okay { d with spec := { detHeader := h, off := u8 q 2 == 1 }, frames := d.frames.map fun (i, f) => (i, fresh f) }) s

end Sys2Proof.Machine
end

