-- ==== Sys2Proof/Machine/Arrive.lean ====
section
/-!
DEFINITION. A frame's way to its copies: arrival and stamp (R30, R74), the walk, the lookups, policing and classification
(05_parser.md, 06_tables.md), the enqueue decision, and recirculation (R174).
-/

namespace Sys2Proof.Machine

def hasCopy (d : Dev) (i : Nat) : Bool := d.copies.any fun e => e.1 == i

/-- A Basin or Port is being reset (R476, R482): kind 2 a Basin, 3 a Port. -/
def inReset (d : Dev) (p : Nat) : Bool := d.power.resets.any fun (k, n, _) => (k == 2 && n == basinOf p) || (k == 3 && n == p)

/-- A Port takes a new frame: UP, its ingress not stopped, ingress open, and nothing still arriving on it (R70, R84, R480). -/
def receives (d : Dev) (p : Nat) : Bool :=
  let x := portOf d p
  decide (p < 512) && x.state == 4 && !x.ingressStop && d.guard.ingressOpen && !inReset d p
    && match x.receiving with
      | some i => !hasFrame d i || decide (atMdi d (frameOf d i) = (frameOf d i).bytes.length + 4)
      | none => true

/-- A new frame takes the next number. -/
def newFrame (f : Frame) (d : Dev) : Nat × Dev := (d.nextFrame, setFrame d.nextFrame f { d with nextFrame := d.nextFrame + 1 })

/-- The latest instant at which a unit of the power ladder worked (R469, R471). -/
def noteWork (u : Nat) (d : Dev) : Dev := setUnit u { unitOf d u with workAt := d.clock } d

/-- FRAME_ARRIVAL (R30, R74, R214): a frame's first bit is at the MDI of a Port; `bytes` run from the destination address to the last
byte before the FCS. Where the Port does not receive, the frame is lost. -/
def execFrameArrival (t port : Nat) (bytes : List Byte) (fcs : Nat) (s : State) : Host.Outcome State Fault Refusal :=
  act (fun d =>
    let d := advance t d
    if !receives d port then d
    else
      let x := portOf d port
      let st := stampAt d (nozzleOf port) (captureTerm x)
      let cap := ((st.ticks + inDelay x : Nat) : Int) + x.planeOffset
      let f : Frame := { port, stamp := st, cap := cap.toNat, bytes, fcs := fcs % 2 ^ 32, arrived := d.clock, lag := inDelay x + 40,
                         capAt := (((d.clock + inDelay x : Nat) : Int) + x.planeOffset).toNat,
                         detHeader := d.spec.detHeader, specOff := d.spec.off }
      let (i, d) := newFrame f d
      noteWork (nozzleOf port) (noteWork (64 + basinOf port) (setPort port { x with receiving := some i } d))) s

-- Policing (R232 to R234) ---------------------------------------------------------------------------------------------------------

/-- The pre-colour of a frame (R234): 0 green, 1 yellow, 2 red. -/
def preColour (d : Dev) (p : Policer) (fv b : List Byte) : Nat :=
  if p.mode != 2 then 0
  else if p.src = 0 then (if tagged b && bitOf (beAt b 14 2) 12 then 1 else 0)
  else
    match ipHeader fv b with
    | some (o, true) => d.tm.colourMap.getD (byteAt b (o + 1) / 4) 0
    | some (o, false) => d.tm.colourMap.getD (beAt b o 2 / 64 % 64) 0
    | none => 0

/-- The colour that a policer gives (R233). -/
def colourOf (d : Dev) (p : Policer) (fv b : List Byte) : Nat :=
  let x := p.now d.clock
  let pre := preColour d p fv b
  if pre = 2 || x.tp < 0 then 2 else if pre = 1 || x.tc < 0 then 1 else 0

/-- The policer that meters a frame, none for one of another Basin or one that is off, and the colour. -/
def policed (d : Dev) (a : List Nat) (port : Nat) (fv b : List Byte) : Option Nat × Nat :=
  match aPolicer a with
  | none => (none, 0)
  | some n =>
    let p := tget ({} : Policer) d.tm.policers n
    if n / 4096 != basinOf port || p.mode = 0 then (none, 0) else (some n, colourOf d p fv b)

/-- An action names a policer that another Basin holds (R232). -/
def foreignPolicer (a : List Nat) (port : Nat) : Bool := match aPolicer a with | some n => n / 4096 != basinOf port | none => false

-- The walk and what follows it (R118 to R141, R172, R180, R189) ------------------------------------------------------------------------

/-- The Basin's device with the entries that fail parity in this walk out of use. -/
def withFailing (d : Dev) (basin : Nat) (parity : List Nat) : Dev :=
  { d with tables := { d.tables with bad := d.tables.bad ++ parity.map fun a => { basin, addr := entryAddr a, at_ := d.clock, suspect := false } } }

/-- The failing exact-match slots and LPM words that the frame's lookups read (R153, R156). -/
def lookupFails (d : Dev) (f : Frame) (parity : List Nat) : List Nat :=
  let read := (lpmRead d f.gen (profileOf (genOf d f.gen) (byteAt f.fv 1 % 16)) f.fv).1.map lpmAddr
  (parity.filter fun a => a / 2 ^ 38 == 0 || read.contains a) ++ failingReads d (basinOf f.port) f.gen f.fv f.l2

/-- The action entry, or the rewrite entry that it names, fails parity in its Basin (R172). -/
def actionFails (d : Dev) (basin gen index : Nat) (a : List Nat) (parity : List Nat) : List Nat :=
  (if a.all wordGood || parity.contains (actionAddr false gen index) then [] else [actionAddr false gen index])
    ++ [actionAddr false gen index, actionAddr true gen (aRewrite a)].filter fun x => parity.contains x || badNow d basin x

/-- What drops a frame whose action is known, before it is queued: recirc-limit, rewrite-no-layer or ttl-expired, learn-hairpin,
policer-red, action-drop (R173, R174, R180, R189, R235). A first pass that recirculates applies only its rewrite (R174). -/
def dropOf (f : Frame) (a : List Nat) (found : Found) (fv : List Byte) (colour : Nat) : Option Nat :=
  let b := passBytes f
  let hairpin := match found with | .learned _ p => p == f.port | .action _ => false
  if aRecirc a && f.pass = 2 then some 15
  else if aRecirc a then rewriteDrop a fv b
  else match rewriteDrop a fv b with
    | some c => some c
    | none => if hairpin then some 20 else if colour = 2 then some 22 else if aDest a = 3 then some 13 else none

/-- The stream that a frame's action sets: one of a programmed entry, on a frame that is neither injected nor L2_ONLY (R36, R128, R442). -/
def wanted (f : Frame) (a : List Nat) (found : Found) : Option Nat :=
  match found, aStream a with
  | .action _, some s => if f.injected.isNone && !f.l2 then some s else none
  | _, _ => none

/-- The guarded stream of a frame: the one that its action sets, where it is configured (R36, R38). -/
def classify (d : Dev) (f : Frame) (a : List Nat) (found : Found) : Option Nat :=
  (wanted f a found).filter fun s => !(streamOf d s).slots.isEmpty

/-- The frame after its lookups (R141): `d'` is the device as this walk's parity leaves the tables. -/
def looked (d d' : Dev) (f : Frame) (fv : List Byte) (parity : List Nat) : Frame × List Nat :=
  let basin := basinOf f.port
  let found := merge d' basin f.gen fv f.l2
  let a := foundAction d basin f.gen found
  let bad := actionFails d basin f.gen (foundIndex d found) (actionIn d basin f.gen (foundIndex d found)) parity
  let (policer, colour) := policed d a f.port fv (passBytes f)
  let drop := dropOf f a found fv colour
  let again := aRecirc a && f.pass = 1 && drop.isNone && bad.isEmpty
  let notes := (if skips a fv (passBytes f) && !(f.notes.any fun n => n.1 == 0x112) then [(0x112, f.port)] else [])
    ++ (if foreignPolicer a f.port then [(0x115, f.port)] else [])
  let quiet := decide (aDest a ≥ 3) || drop.isSome || !bad.isEmpty
  ({ f with fv, action := a, drop, again, policer, colour, stream := if quiet || again then none else classify d f a found,
            wants := if again then none else wanted f a found,
            punt := if aDest a = 4 && drop.isNone then some (aReason a) else none,
            doomed := f.doomed <|> (if bad.isEmpty then none else some 14), notes := f.notes ++ notes, enqueued := quiet && !again }, bad)

/-- A frame that no lookup forwards: it is dropped, punted with a reason, or Helm's own. -/
def unforwarded (f : Frame) (punt : Option Nat) : Frame := { f with drop := some 0, punt, enqueued := true, again := false, action := [] }

/-- The outcome of a walk on its frame (R66, R104, R128, R129). -/
def afterWalk (d d' : Dev) (f : Frame) (w : Walk) (parity : List Nat) : Frame × List Nat :=
  let o := w.outcome.getD 0
  let fv := fieldVector w f.port f.gen
  let f := { f with state := 1, again := false, parse := o, layers := w.layers, pendingChecks := if o = 3 then [] else w.pending, fv, lookedAt := some d.clock }
  let handling := if o = 2 then f.malAct else f.truncAct
  if f.mac then (unforwarded f none, [])
  else if o ≥ 2 && handling = 0 then (unforwarded f none, [])
  else if o ≥ 2 && handling = 2 then (unforwarded f (some (if o = 2 then 0x0010 else 0x0011)), [])
  else if o ≥ 2 then looked d d' { f with l2 := true } (l2Vector w f.port f.gen) parity
  else if f.forClock then (unforwarded f none, [])
  else looked d d' f fv parity

/-- The nodes of a walk whose checks ran before the frame had ended (R122): all of them while it still arrives, none where it had ended
before the longest walk began (R121) or no longer arrives, and otherwise as many as `early` says. -/
def earlyNodes (d : Dev) (f : Frame) (early : Nat) : Nat :=
  if f.injected.isSome then 0
  else if received d f < f.bytes.length + 4 then 24
  else if received { d with clock := d.clock - 240 } f = f.bytes.length + 4 then 0
  else early

/-- PARSE_WALK (R119, R141): a recirculated frame keeps the outcome actions and punt policer in force at its first walk (DESIGN CHOICE, log
104; R136). The walk of a frame whose header bytes have arrived, its lookups, policing and classification. `early`
nodes ran their checks before the frame had ended, where it ended during the walk; `parity` are the addresses (R504) of the entries that failed parity. -/
def execParseWalk (t frame early : Nat) (parity : List Nat) (s : State) : Host.Outcome State Fault Refusal :=
  act (fun d =>
    let d := advance t d
    let f := frameOf d frame
    if !hasFrame d frame || f.state != 0 || (f.pass == 2 && !f.again) || !islandAwake d (0x40 + basinOf f.port) then d
    else
      let b := passBytes f
      let x := basinState d (basinOf f.port)
      let f := if f.pass = 2 then f else
        { f with gen := basinCurrent d (basinOf f.port), puntRate := d.tables.puntRate, malAct := x.malformed, truncAct := x.truncated, mac := beAt b 12 2 == 0x8808,
                 forClock := ptpForHelm d f.port b && f.injected.isNone }
      let w := walk (genOf d f.gen).graph b (earlyNodes d f early)
      let (f, bad) := afterWalk d (withFailing d (basinOf f.port) parity) f w parity
      let fails := lookupFails d f parity
      let d := noteDrained f.gen (setFrame frame f d)
      let d := fails.foldl (fun d a => parityFault (basinOf f.port) 0x06 a (a / 2 ^ 38 == 0) d) d
      bad.foldl (fun d a => parityFault (basinOf f.port) 0x08 a false d) d) s

/-- ENQUEUE (R217): the copies of a frame's action and the admission of each; a copy that may start before confirmation is granted
its Port (R201, R227). -/
def execEnqueue (t frame : Nat) (s : State) : Host.Outcome State Fault Refusal :=
  act (fun d =>
    let d := advance t d
    let f := frameOf d frame
    if !hasFrame d frame || f.state != 1 || f.enqueued || f.again || f.doomed.isSome then d else enqueueFrame frame d) s

-- Recirculation (R31, R129, R174) ---------------------------------------------------------------------------------------------------------

/-- The frame as it enters its second pass: its stamp is the second pass's, and what the first pass decided is gone but its
rewrite, its deferred checks and a skipped rewrite. An L2_ONLY pass repeats the frame as received. -/
def secondPass (d : Dev) (f : Frame) : Frame :=
  let rw := rewriteIn d (basinOf f.port) f.gen (aRewrite f.action)
  { f with pass := 2, state := 0, stamp := stampAt d (0x40 + basinOf f.port) 0,
           second := if f.l2 then none else some (rewriteFrame f.action rw f.fv none f.bytes),
           firstChecks := if f.l2 then [] else f.pendingChecks, pendingChecks := [], action := [], copies := [], gone := f.gone ++ f.copies,
           drop := none, punt := none, policer := none, colour := 0, stream := none, wants := none, enqueued := false, capAt := d.clock,
           notes := if f.l2 then [] else f.notes.filter fun n => n.1 == 0x112 }

/-- RECIRCULATION (R174): 40 ns after the first pass's lookup the frame enters the root node of its Basin again. -/
def execRecirculation (t frame : Nat) (s : State) : Host.Outcome State Fault Refusal :=
  act (fun d =>
    let d := advance t d
    let f := frameOf d frame
    if !hasFrame d frame || f.state != 1 || f.pass != 1 || !f.again || (match f.lookedAt with | some a => decide (d.clock < a + 640) | none => true) then d
    else
      let d := f.copies.foldl (fun d c => modCopy c (fun c => { c with void := true }) d) d
      setFrame frame (secondPass d f) d) s

end Sys2Proof.Machine
end

