-- ==== Sys2Proof/Machine/Mirror.lean ====
section
/-!
DEFINITION. Mirrored commands on the unit that receives them (R304, R305), and Helm's return, which applies those that waited for it
(R424 to R426).
-/

namespace Sys2Proof.Machine

/-- Publishes a digest; the last four of each generation are kept (R310). -/
def publish (g : Nat) (digest : List Byte) (d : Dev) : Dev :=
  if g = 0 then { d with pair := { d.pair with digestsA := (digest :: d.pair.digestsA).take 4 } }
  else { d with pair := { d.pair with digestsB := (digest :: d.pair.digestsB).take 4 } }

/-- What a reply leaves of the device: nothing where its status is not one of success (R14). -/
def kept (r : Reply) (d : Dev) : Dev := if effective r.status then r.dev else d

/-- A mirrored command that is no programmed one: its effect here (R304). A mirrored swap of roles names its beat only (R316). -/
def mirroredOther (opcode : Nat) (q : List Byte) (d : Dev) : Dev :=
  match opcode with
  | 0x0302 => kept (guardStreamBody q d) d
  | 0x0A01 => kept (confConfigureBody q d) d
  | 0x0A02 => kept (confMemberBody q d) d
  | 0x0A03 => kept (levelConfigureBody (q.take 16) (some (q.drop 16)) d) d
  | 0x0C04 => publish (u8 q 0) (slice q 4 32) d
  | _ => d

/-- Applies a mirrored command; none where it cannot be taken now. It is acknowledged once it has been applied (R305); a part that goes ahead
of a long command's last message is kept for it (R299, log 16). -/
def applyMirror (seq : Nat) (body : List Byte) (d : Dev) : Option Dev :=
  let opcode := beAt body 0 2
  let q := d.pair.mirrorPart ++ body.drop 10
  let e := { d with pair := { d.pair with mirrorPart := [] } }
  if 0x8000 ≤ opcode then some (tetherAck 0x24 seq { d with pair := { d.pair with mirrorPart := q } })
  else
    match askRemote opcode q e with
    | some (ask, q, h) => takeRemote opcode ask q h (beAt body 2 8) (0, seq) e
    | none => some (tetherAck 0x24 seq (mirroredOther opcode q e))

/-- The MIRROR messages received are applied in order of issue, up to the first that cannot be taken now; `n` bounds their number (R304,
R305). -/
def drainMirrors : Nat → Dev → Dev
  | 0, d => d
  | n + 1, d =>
    match d.pair.mirrorIn with
    | [] => d
    | (seq, body) :: rest =>
      match applyMirror seq body d with
      | some d => drainMirrors n { d with pair := { d.pair with mirrorIn := rest, mirrorNext := (seq + 1) % 2 ^ 32 } }
      | none => d

/-- What has been received is applied, while Helm runs (R305, R426). -/
def applyMirrors (d : Dev) : Dev := if helmStopped d then d else drainMirrors d.pair.mirrorIn.length d

/-- A received MIRROR: in order of issue, it waits for those before it, for a busy Steward and for a stopped Helm; one that came before is
acknowledged again unless it is still being applied (R304, R305, R426). -/
def takeMirror (seq : Nat) (body : List Byte) (d : Dev) : Dev :=
  let due := (d.pair.mirrorNext + d.pair.mirrorIn.length) % 2 ^ 32
  if seq == due then
    let d := if d.pair.mirrorAt.any (fun e => e.1 == seq) then d
      else { d with pair := { d.pair with mirrorAt := d.pair.mirrorAt ++ [(seq, d.clock)] } }
    applyMirrors { d with pair := { d.pair with mirrorIn := d.pair.mirrorIn ++ [(seq, body)] } }
  else if seqAfter due seq && !(d.pair.mirrorAt.any fun e => e.1 == seq) then tetherAck 0x24 seq d
  else d

/-- A Tether message in pair mode over a Tether that is up; one whose frame fails its FCS is discarded and counted (R299). -/
def onTether (t : Nat) (msg : TMsg) (f : Dev → Dev) (s : State) : Host.Outcome State Fault Refusal :=
  act (fun d =>
    let d := advance t d
    if !msg.fcs then { d with pair := { d.pair with fcsErrors := d.pair.fcsErrors + 1 } }
    else if d.pair.mode = 1 && d.pair.tetherUp then f d else d) s

/-- MIRROR_RECEIVE (R305). -/
def execMirrorReceive (t : Nat) (msg : TMsg) (s : State) : Host.Outcome State Fault Refusal :=
  onTether t msg (fun d => if !sendingUnit d then takeMirror msg.seq msg.body d else d) s

/-- HELM_READY (R424, R425): the shadow is recovered, the mailboxes taken before the expiry end, HELM_RESTARTED follows, and what waited
is applied (R426). -/
def execHelmReady (t : Nat) (s : State) : Host.Outcome State Fault Refusal :=
  act (fun d =>
    let d := advance t d
    if d.helm.state != 2 then d
    else applyMirrors (raise 0x0003 0xFFFF d.helm.restarts [] (endTaken (setHelmState 1 d)))) s

/-- MIRROR_TIMEOUT (R305): on the sending unit a MIRROR has gone unacknowledged for 10 ms, and its partner counts as STALE; a STANDBY that
holds one unacknowledged for as long goes STALE (R313 cause 10). -/
def execMirrorTimeout (t : Nat) (s : State) : Host.Outcome State Fault Refusal :=
  act (fun d =>
    let d := advance t d
    if d.pair.mode != 1 then d
    else if d.pair.role ≤ 1 then
      if partnerApplies d && d.pair.unacked.any (fun u => u.subtype == 0x24 && decide (d.clock - u.firstAt ≥ 160000000)) then
        let d := mirrorsAlone { d with pair := { d.pair with partnerRole := 3, partnerLate := true } }
        if d.pair.role = 1 then changeRole 0 14 d else d
      else d
    else if d.pair.mirrorAt.any (fun e => decide (d.clock - e.2 ≥ 160000000)) then standbyStale d
    else d) s

end Sys2Proof.Machine
end

