-- ==== Sys2Proof/Machine/Compare.lean ====
section
/-!
DEFINITION. Comparing decisions with a partner (12_pairing.md): the decision digest, receipts, disputes and their settling.
-/

namespace Sys2Proof.Machine

-- The decision digest (R300) ------------------------------------------------------------------------------------------------------

/-- The 32 bytes of an action entry with its parity bits cleared. -/
def actionBytes (a : List Nat) : List Byte := (List.range 4).flatMap fun k => le 8 (a.getD k 0 % 2 ^ 63)

/-- GROUP: the Confluence group, 0x100 + the Level Release group, or 0xFFFF. -/
def groupCode (a : List Nat) : Nat :=
  match aConf a, aLevel a with
  | some g, _ => g
  | none, some g => 0x100 + g
  | none, none => 0xFFFF

/-- SLOT_MASK: the slots of a stream to which a copy goes. -/
def slotMask (d : Dev) (stream : Nat) (ts : List Target) : Nat :=
  ((streamOf d stream).slots.zipIdx).foldl (fun m (sl, k) => if ts.any (fun t => t.port == sl.port) then m + 2 ^ k else m) 0

/-- DECISION: CRC-32C over the 13 bytes of R300, in network order. -/
def decisionDigest (d : Dev) (a : List Nat) (gen ingress stream seq : Nat) : Nat :=
  let ts := (targetsOf d a ingress).filter fun t => !portUnused d t.port
  crc32c (be 2 stream ++ be 4 seq ++ be 1 (slotMask d stream ts)
    ++ be 4 (crc32c (actionBytes a ++ rewriteIn d (basinOf ingress) gen (aRewrite a))) ++ be 2 (groupCode a))

-- Receipts (R41, R43, R308) ---------------------------------------------------------------------------------------------------------

/-- A RECEIPT entry of 16 bytes (R299). -/
def receiptBytes (stream seq digest decision : Nat) : List Byte := be 2 stream ++ be 2 0 ++ be 4 seq ++ be 4 digest ++ be 4 decision

/-- A unit that sends receipts: SOLO, ACTIVE or STANDBY while the Tether is up, and a STALE unit from a stream's cut (R296, R319). -/
def sendsReceipts (d : Dev) (fromCut : Bool) : Bool := d.pair.mode == 1 && d.pair.tetherUp && (decide (d.pair.role ≤ 2) || fromCut)

/-- Keeps what a comparison or an alignment may still ask of a committed guarded frame; what is older than 4 µs goes (R308, R319). -/
def noteRecent (i : Nat) (d : Dev) : Dev :=
  let f := frameOf d i
  match f.stream, f.seq with
  | some s, some n =>
    let e : Recent := { stream := s, seq := n, digest := f.fcs, decision := f.decision, gen := f.gen, port := f.port, fv := f.fv, at_ := d.clock }
    { d with pair := { d.pair with recent := (d.pair.recent.filter fun x => decide (d.clock - x.at_ ≤ 64000)) ++ [e] } }
  | _, _ => d

def recentOf (d : Dev) (stream seq : Nat) : Option Recent := d.pair.recent.find? fun x => x.stream == stream && x.seq == seq

/-- A stream diverges at a mismatched sequence: none of its frames is accepted from that sequence on, so those that wait for their
acceptance end DIVERGED, and it does not resume at an earlier resynchronisation's end (R42, R43). -/
def divergeStream (stream seq : Nat) (d : Dev) : Dev :=
  let d := setStream stream { streamOf d stream with diverged := true } { d with pair := { d.pair with healing := d.pair.healing.filter (· != stream) } }
  (d.frames.filterMap fun (i, f) =>
    if f.stream == some stream && (f.seq.map fun n => seqAfter n seq).getD false && f.outcome.isNone then some i else none).foldl
    (fun d i => setOutcome i 9 d) d

/-- A receipt is compared with this unit's own committed frame of the same stream and sequence: another digest diverges the stream, and
the same digest with another DECISION is a dispute (R43, R308). -/
def compareReceipt (r : Receipt) (d : Dev) : Dev :=
  match recentOf d r.stream r.seq with
  | none => d
  | some x =>
    if x.digest != r.digest then divergeStream r.stream r.seq d
    else if x.decision != r.decision then
      let w : Dispute := { stream := r.stream, seq := r.seq, own := x.decision, theirs := r.decision, gen := x.gen, window := tetherTicks d / 4096 }
      { d with pair := { d.pair with disputed := d.pair.disputed ++ [w], disputes := (d.pair.disputes + 1) % 2 ^ 64,
                                     periodDisputes := d.pair.periodDisputes + 1 } }
    else d

/-- A frame that awaits its receipt meets it: accepted where it matches, RECEIPT_MISMATCH where its digest differs (R41, R42). -/
def meetReceipt (i : Nat) (d : Dev) : Dev :=
  let f := frameOf d i
  match receiptFor d f with
  | none => d
  | some r =>
    if f.confirmed.isSome && f.cond == 2 && r.digest != f.fcs then setOutcome i 4 d else tryAccept i d

-- Disputes (R308, R309, R310) ---------------------------------------------------------------------------------------------------------

/-- A disputed frame as a RE_EVAL operation carries it: 14 bytes. -/
def disputeBytes (w : Dispute) : List Byte := le 2 w.stream ++ le 4 w.seq ++ le 4 w.own ++ le 4 w.theirs

/-- The Field Vector kept with a frame's Hold copy, or with the frame itself: generation, ingress Port and bytes (R308). -/
def keptVector (d : Dev) (stream seq : Nat) : Option (Nat × Nat × List Byte) :=
  match d.guard.holds.find? fun h => h.stream == stream && h.seq == seq with
  | some h => some (h.frame.gen, h.frame.port, h.frame.fv)
  | none => (recentOf d stream seq).map fun x => (x.gen, x.port, x.fv)

/-- The decision digest that the re-lookup path gives a frame in a generation (R300, R374). -/
def relookIn (d : Dev) (stream seq gen : Nat) : Option Nat :=
  (keptVector d stream seq).map fun (_, p, fv) => decisionDigest d (foundAction d (basinOf p) gen (merge d (basinOf p) gen fv false)) gen p stream seq

/-- A frame's own generation and the decision digest that the re-lookup path gives it there (R308). -/
def relook (d : Dev) (stream seq : Nat) : Option (Nat × Nat) :=
  (keptVector d stream seq).bind fun (g, _, _) => (relookIn d stream seq g).map fun x => (g, x)

/-- The event and the message that settling a dispute gives (R309, R325): the row of R309, 1 to 3, or 0 for one left unresolved. -/
def raiseDispute (stream seq own theirs row : Nat) (d : Dev) : Dev :=
  raise 0x0C06 0xFFFF (stream + 65536 * row) (le 4 seq ++ le 4 own ++ le 4 theirs) d

/-- A dispute on whose frame both units agree with themselves and match: the STANDBY goes STALE and the dispute is unresolved
(R309). -/
def unresolvedDispute (stream seq own theirs : Nat) (d : Dev) : Dev :=
  standbyStale (raiseDispute stream seq own theirs 0 d)

end Sys2Proof.Machine
end

