-- ==== Sys2Proof/Machine/Settle.lean ====
section
/-!
DEFINITION. What the Steward does for a Pair (12_pairing.md): the re-evaluation of disputed frames and the snapshot.
-/

namespace Sys2Proof.Machine

/-- The digests published for a generation (R310). -/
def publishedOf (d : Dev) (g : Nat) : List (List Byte) := if g = 0 then d.pair.digestsA else d.pair.digestsB

/-- A unit that finds itself without a digest match goes FENCED; a sending one freezes first (R309, R313 cause 11). -/
def fenceSelf (d : Dev) : Dev :=
  if d.pair.role ≤ 1 then changeRole 4 11 (freeze d) else if d.pair.role = 2 then changeRole 4 11 d else d

/-- The unit's own settled dispute meets its partner's: where both agree and match it is unresolved (R309). -/
def matchDispute (stream seq : Nat) (d : Dev) : Dev :=
  match d.pair.settled.find? fun x => x.1 == stream && x.2.1 == seq && x.2.2.1 with
  | some x => if d.pair.theirSettled.contains (stream, seq, true) then unresolvedDispute stream seq x.2.2.2.1 x.2.2.2.2 d else d
  | none => d

/-- A unit settles a dispute from its re-evaluation and its generation's digest: it tells its partner, raises the event, and takes
the role that R309 gives. -/
def settleDispute (stream seq own theirs : Nat) (d : Dev) : Dev :=
  match relook d stream seq with
  | none => d
  | some (g, again) =>
    let agree := again == own
    let good := (publishedOf d g).contains (genDigest d g)
    let row := if !agree then 1 else if !good then 2 else 3
    let d := if d.pair.mode == 1 && d.pair.tetherUp then tetherSend 0x25 (be 2 stream ++ be 4 seq ++ be 1 (b2n agree) ++ be 1 (b2n good)) d else d
    let d := raiseDispute stream seq own theirs row d
    let d := { d with pair := { d.pair with settled := (stream, seq, agree && good, own, theirs) :: d.pair.settled.take 63 } }
    match row with
    | 1 => yieldUnit (report 0xA00 0x36 stream d)
    | 2 => fenceSelf d
    | _ => matchDispute stream seq d

/-- RE_EVAL (R308): the disputed frames of its request, up to four. -/
def reEvaluate (req : List Byte) (d : Dev) : Dev :=
  (List.range (req.length / 14)).foldl (fun d k =>
    settleDispute (u16 req (14 * k)) (u32 req (14 * k + 2)) (u32 req (14 * k + 6)) (u32 req (14 * k + 10)) d) d

-- Snapshots (R319) ------------------------------------------------------------------------------------------------------------------

/-- What the sending unit's snapshot carries (R319 step 2). -/
def snapshotOf (d : Dev) : Snapshot :=
  { current := d.tables.current, genA := d.tables.genA, genB := d.tables.genB, defs := d.tables.defs, em := d.tables.em, mcast := d.tables.mcast,
    conf := d.release.conf, level := d.release.level, streams := d.guard.streams, digestsA := d.pair.digestsA, digestsB := d.pair.digestsB,
    digestA := genDigest d 0, digestB := genDigest d 1 }

/-- Sends a snapshot, which is kept until acknowledged, while the Tether is up (R299). -/
def sendSnapshot (d : Dev) : Dev :=
  if !d.pair.tetherUp then { d with pair := { d.pair with sending := false } }
  else
    let n := tget 0 d.pair.msgSeq 0x27
    let d := emit (.snapshot n (tetherTicks d) (snapshotOf d)) d
    { d with pair := { d.pair with msgSeq := tput 0 0x27 ((n + 1) % 2 ^ 32) d.pair.msgSeq, sending := false,
                                   unacked := d.pair.unacked ++ [{ subtype := 0x27, seq := n, body := [], sentAt := d.clock, firstAt := d.clock }] } }

/-- A group takes a snapshot's configuration and keeps what it holds: a new W, new offsets and a disabling take effect as those of a command
do, and UNSAFE is judged again (R261 to R263). -/
def takeConf (g : Nat) (y : ConfGroup) (d : Dev) : Dev :=
  let x := confOf d g
  let z := { setMembers d x y.members with enabled := y.enabled, recirc := y.recirc, port := y.port, queue := y.queue, window := y.window }
  let d := judgeConf g (setConf g z d)
  if x.enabled && !y.enabled then disableConf g d else releaseDue g d

/-- A Level Release group takes a snapshot's configuration; a disabling frees its copies (R271). -/
def takeLevel (g : Nat) (y : LevelGroup) (d : Dev) : Dev :=
  let x := levelOf d g
  let d := keepReaches g (setLevel g { x with enabled := y.enabled, margin := y.margin, members := y.members } d)
  if x.enabled && !y.enabled then freeLevel g d else d

/-- The programmed table set of both generations, as a snapshot carries it (R319 step 2, R397). -/
def writeTables (x : Snapshot) (d : Dev) : Dev :=
  let a := { x.genA with zeroAt := d.tables.genA.zeroAt }
  let b := { x.genB with zeroAt := d.tables.genB.zeroAt }
  regrow { d with tables := { d.tables with current := x.current, genA := a, genB := b, defs := x.defs, em := x.em, mcast := x.mcast, bad := [] },
                  steward := { d.steward with rawWords := d.steward.rawWords.filter fun w => (rawEntry w.1).2 == 2 ^ 40 } }

/-- A stream as a snapshot gives it; a stream that the unit has too keeps its own next sequence until its alignment (R319 steps 3, 4). -/
def takeStream (mine y : Stream) : Stream := { y with diverged := false, cut := none, next := if mine.slots.isEmpty then y.next else mine.next }

/-- The STALE unit's Steward writes a snapshot into all eight Basins (R319 step 3). -/
def writeSnapshot (x : Snapshot) (d : Dev) : Dev :=
  let d := (List.range 64).foldl (fun d g => takeConf g (tget {} x.conf g) d) (writeTables x d)
  let d := (List.range 256).foldl (fun d g => takeLevel g (tget {} x.level g) d) d
  { d with guard := { d.guard with streams := x.streams.map fun (k, y) => (k, takeStream (streamOf d k) y) },
           pair := { d.pair with digestsA := x.digestsA, digestsB := x.digestsB } }

end Sys2Proof.Machine
end

