-- ==== Sys2Proof/Machine/Time.lean ====
section
/-!
DEFINITION. Time (04_time.md): the two Time Cores, beats to the islands, reference sources and the servo, steps, outputs,
the snapshot registers and the time commands.
-/

namespace Sys2Proof.Machine

/-- One second in ticks. -/
def second : Nat := 16000000000

def setTime (x : Time) (d : Dev) : Dev := { d with time := x }

-- Commands (R113 to R115) --------------------------------------------------------------------------------------------

/-- TIME_CONFIGURE (R113). DESIGN CHOICE (log 109): its UTC_OFFSET is in force until the first valid ToD has come, and the latest
ToD's from then on (R86). -/
def execTimeConfigure (c : Cmd) (s : State) : Host.Outcome State Fault Refusal :=
  cmd 0x0401 36 4 c (fun q _ d =>
    let lock := orDefault (u16 q 8) 64
    let step := orDefault (u32 q 12) 16000
    let slew := orDefault (u16 q 16) 100
    let lim := orDefault (u32 q 20) 16000
    let off := signed 32 (u32 q 24)
    let width := orDefault (u32 q 28) 100000
    if !within (u32 q 0) 1 10000000 || u32 q 4 > 10000000 || !within lock 16 1024 || u16 q 10 != 0 || !within step 1600 1600000000
        || !within slew 1 500 || !within lim 16 65534 || decide (off < -500000000) || decide (500000000 < off)
        || !within width 100 500000000 || u8 q 32 > 1 || !zerosAt q 33 3 then rej stRange d
    else
      let utc := signed 16 (u16 q 18)
      okay (setTime { d.time with oscFreq := some (u32 q 0), oscAging := some (u32 q 4), lockThreshold := lock, stepThreshold := step,
                                  slewMax := slew, utcOffset := utc, utcNow := if d.time.tod.isNone then utc else d.time.utcNow,
                                  holdoverLimit := lim, ppsOffset := off, ppsWidth := width, todFormat := u8 q 32 } d)) s

/-- Entry `n` of a `time.source` list (R114). -/
def sourceIn (q : List Byte) (n : Nat) : Source :=
  let o := 4 + 16 * n
  { kind := u8 q o, qualify := orDefault (u8 q (o + 1)) 3, port := u16 q (o + 2), resolve := u16 q (o + 4), refAccuracy := u16 q (o + 6),
    asymmetry := u16 q (o + 8), domain := u8 q (o + 10) }

/-- A Port carries the source that an entry names: a clock Port of its domain, or a FABRIC Port (R90, R114). -/
def carries (d : Dev) (x : Source) (p : Nat) : Bool :=
  if x.kind = 4 then fabricFlag (portOf d p) else (ptpPort d p).role == 3 && (ptpPort d p).domains.contains x.domain

/-- RESOLVE_PORT can resolve a mismatch: it is on the other die from the source Port, and carries the same source (R90). -/
def resolves (d : Dev) (x : Source) : Bool :=
  x.resolve != 0xFFFF && !portUnused d x.resolve && dieOf x.resolve != dieOf x.port && carries d x x.resolve

/-- The rules an entry must keep (R90, R114). -/
def sourceOk (d : Dev) (x : Source) : Bool :=
  within x.kind 1 5
    && (x.kind == 2 || x.kind == 3 || !portUnused d x.port)
    && (!(x.kind == 1 || x.kind == 5) || (tget {} d.ptp.ports x.port).role == 3)
    && (x.kind != 4 || fabricFlag (portOf d x.port))
    && (x.resolve == 0xFFFF || x.kind == 2 || x.kind == 3 || resolves d x)

/-- Two entries name one source: by their kind alone where it is 1PPS_IN, by their Port too, and by the domain too where it is PTP (R95,
R114). -/
def sameSource (x y : Source) : Bool :=
  x.kind == y.kind && (x.kind == 2 || x.kind == 3 || (x.port == y.port && (x.kind == 4 || x.domain == y.domain)))

/-- TIME_SOURCE (R114): the new list waits for the next servo update. -/
def execTimeSource (c : Cmd) (s : State) : Host.Outcome State Fault Refusal :=
  cmd 0x0402 4 4 c (fun q _ d =>
    let n := u8 q 0
    let xs := (List.range n).map (sourceIn q)
    if n > 4 || u8 q 1 != 0 || u16 q 2 > 3600 || q.length < 4 + 16 * n
        || (List.range n).any (fun i => !zerosAt q (15 + 16 * i) 5) || !xs.all (sourceOk d) then rej stRange d
    else
      okay (setTime { d.time with newSources := some xs, newWait := u16 q 2 } d)) s

/-- TIME_STATUS (R114). DESIGN CHOICE (log 109): GROWTH reads 0xFFFFFFFF while the growth is saturated. -/
def execTimeStatus (c : Cmd) (s : State) : Host.Outcome State Fault Refusal :=
  cmd 0x0403 4 48 c (fun q _ d =>
    let t := d.time
    if !zerosAt q 0 4 then rej stRange d
    else
      let b := le 1 t.servo ++ le 1 t.src ++ le 1 (t.entry.getD 0xFF)
        ++ le 1 (b2n t.westRepointed + 2 * b2n t.eastRepointed + 4 * b2n (t.mismatch.isSome || t.unresolved))
        ++ le 2 (unsigned 16 t.utcNow) ++ le 8 (unsigned 64 (t.offsets.headD 0)) ++ le 4 t.west.servoTerm
        ++ le 4 ((growthNow d).getD 0xFFFFFFFF) ++ stampBytes ((t.holdover.map (·.2)).getD {}) ++ stampBytes (coreStamp d false)
      { dev := d, status := stOk, body := b }) s

/-- Whether a Confluence or Level Release group is enabled (R98). -/
def groupsEnabled (d : Dev) : Bool := d.release.conf.any (·.2.enabled) || d.release.level.any (·.2.enabled)

/-- Helm disables every group, which releases what they hold (R98, R263, R271). -/
def disableGroups (d : Dev) : Dev :=
  let d := (d.release.conf.filterMap fun (g, x) => if x.enabled then some g else none).foldl (fun d g => disableConf g d) d
  (d.release.level.filterMap fun (g, x) => if x.enabled then some g else none).foldl
    (fun d g => freeLevel g (setLevel g { levelOf d g with enabled := false } d)) d

/-- A step is scheduled two beats ahead, so that beat N − 1 carries it (R99). -/
def scheduleStep (amount : Int) (ticket : Option Nat) (d : Dev) : Dev :=
  setTime { d.time with step := some { beat := beatNow d + 2, amount, ticket } } d

/-- TIME_STEP (R98, R115). DESIGN CHOICE (log 109): a second step while one is scheduled ends ST_CONFLICT. -/
def execTimeStep (c : Cmd) (s : State) : Host.Outcome State Fault Refusal :=
  cmd 0x0404 12 8 c (fun q f d =>
    let a := signed 64 (u64 q 0)
    if a = 0 || u8 q 8 > 1 || !zerosAt q 9 3 then rej stRange d
    else if (groupsEnabled d && u8 q 8 = 0) || d.time.step.isSome then rej stConflict d
    else pend f d (fun n d => scheduleStep a (some n) (if u8 q 8 = 1 then disableGroups d else d))) s

/-- STEP_APPLY (R99): at beat N every core and island applies the amount, in 64 bits; the step is raised and recorded, and stamps carry
STEPPED until the next seal closes. DESIGN CHOICE (log 109): a group that was enabled after the step was scheduled does not stop it. -/
def execStepApply (t : Nat) (s : State) : Host.Outcome State Fault Refusal :=
  act (fun d =>
    let d := advance t d
    match d.time.step with
    | none => d
    | some x =>
      if coreTicks d.time.west < x.beat * 4096 then d
      else
        let jump := fun (k : Core) => { k with acc := (((k.acc : Int) + x.amount * (20 * fracOne : Nat)) % (20 * fracOne * 2 ^ 64 : Nat)).toNat }
        let d := setTime { d.time with west := jump d.time.west, east := jump d.time.east, step := none,
                                       stepped := (x.amount, d.clock) :: d.time.stepped.filter (fun e => decide (d.clock - e.2 < second)),
                                       steppedFlag := true } d
        let d := raiseClock 0x0407 (unsigned 32 x.amount) x.amount (le 8 (unsigned 64 x.amount)) d
        completeOpt x.ticket stOk [] d) s

-- Sources and the servo (R95 to R98, R100) -------------------------------------------------------------------------------

/-- 10MHZ_IN within ±10 ppm at both cores for `q` seconds (R95). -/
def tenGood (d : Dev) (q : Nat) : Bool :=
  [d.time.west, d.time.east].all fun k => (k.tenGoodSince.map fun a => decide (q * second ≤ d.clock - a)).getD false

/-- A measured deviation of 10MHZ_IN is one that a source may use (R95). -/
def tenOk (ppb : Option Int) : Bool := (ppb.map fun x => decide (x.natAbs ≤ 10000)).getD false

/-- Both cores' measurement of 10MHZ_IN (R94). -/
def measureTen (ten : Option Int × Option Int) (d : Dev) : Dev :=
  let f := fun (ppb : Option Int) (k : Core) =>
    { k with tenMhz := ppb, tenGoodSince := if tenOk ppb then some (k.tenGoodSince.getD d.clock) else none }
  setTime { d.time with west := f ten.1 d.time.west, east := f ten.2 d.time.east } d

/-- The PTP messages heard on a source's Port in its domain (R95). -/
def heardOf (d : Dev) (x : Source) : PtpHeard := tget {} (ptpPort d x.port).heard x.domain

/-- The condition under which a source kind is lost (R95). -/
def sourceGone (d : Dev) (x : Source) : Bool :=
  let h := heardOf d x
  let ptp := h.parent.isNone || decide (3 * intervalTicks h.announceLog ≤ d.clock - h.announceAt)
    || decide (3 * intervalTicks h.syncLog ≤ d.clock - h.syncAt)
  let since := fun (a : Option Nat) (n : Nat) => (a.map fun a => decide (n ≤ d.clock - a)).getD true
  let pps := since d.time.ppsAt 19200000000 || decide (4 < d.time.ppsNoTod) || (d.time.ppsNoTod == 4 && since d.time.ppsAt 14400000000)
  let ten := !(tenOk d.time.west.tenMhz && tenOk d.time.east.tenMhz)
  match x.kind with
  | 1 => ptp
  | 2 => pps
  | 3 => pps || ten
  | 4 => since (beatLink d x.port).at_ 16000
  | _ => ptp || ten

/-- The condition under which a source kind qualifies (R95). -/
def sourceReady (d : Dev) (x : Source) : Bool :=
  let long := fun (a : Option Nat) => (a.map fun a => decide (x.qualify * second ≤ d.clock - a)).getD false
  let ptp := decide (16 ≤ (heardOf d x).syncRun)
  !sourceGone d x && match x.kind with
    | 1 => ptp
    | 2 => long d.time.ppsGoodSince
    | 3 => long d.time.ppsGoodSince && tenGood d x.qualify
    | 4 => long (beatLink d x.port).since
    | _ => ptp && tenGood d x.qualify

/-- A source that qualifies again has stayed qualified for WAIT_TO_RESTORE, or never needed to; with 0 it never has (R96). -/
def restored (d : Dev) (x : Source) : Bool :=
  !x.again || (d.time.waitRestore != 0 && decide (d.time.waitRestore * second ≤ d.clock - x.since))

/-- The source to use: the highest-priority qualified one; one still within WAIT_TO_RESTORE only where there is no other (R96,
log 108). -/
def bestSource (d : Dev) : Option Nat :=
  d.time.sources.findIdx? (fun x => x.qualified && restored d x) <|> d.time.sources.findIdx? (·.qualified)

/-- Every source change is raised and recorded (R96). -/
def changeSource (next : Option Nat) (d : Dev) : Dev :=
  let kind := ((next.bind fun i => d.time.sources[i]?).map (·.kind)).getD 0
  let old := d.time.src
  let d := setTime { d.time with entry := next, src := if next.isNone && d.time.servo = 3 then old else kind,
                                 offsets := [], okRun := 0, updates := 0, mayStep := true, changedAt := d.clock } d
  raiseClock 0x0401 (kind + 8 * old + 256 * (next.getD 0xFF)) 0 [] d

/-- The servo enters HOLDOVER (R96, R97): the servo term is frozen, and the growth starts with the oscillator as it is stated
(R100). `core`: the Time Core that enters it by itself, East or not (R87). -/
def enterHoldover (core : Option Bool) (d : Dev) : Dev :=
  let d := noteServo (setTime { d.time with holdover := some (d.clock, helmStamp d), servo := 3, heldFreq := d.time.oscFreq,
                                            heldAging := d.time.oscAging, changedAt := d.clock } d)
  clockRecord (core.getD false) 0x0404 (b2n core.isSome) 0 (raise 0x0404 0xFFFF (b2n core.isSome) [] d)

/-- HOLDOVER ends, and with it what the hardware entered by itself (R87, R96). -/
def leaveHoldover (servo : Nat) (d : Dev) : Dev :=
  let g := (growthNow d).getD 0xFFFF
  let was := d.time.servo
  let calm := fun (k : Core) => { k with hwHoldover := false }
  let d := noteServo (setTime { d.time with servo, holdover := none, west := calm d.time.west, east := calm d.time.east,
                                            changedAt := d.clock } d)
  if was = 3 then raiseClock 0x0405 (min g 0xFFFF) 0 [] d else d

/-- The servo enters FREERUN (R97, R100). -/
def enterFreerun (d : Dev) : Dev :=
  let d := leaveHoldover 0 d
  raiseClock 0x0406 0 0 [] (setTime { d.time with src := 0, entry := none } d)

/-- The servo term of both Time Cores. -/
def setTerm (n : Nat) (d : Dev) : Dev :=
  setTime { d.time with west := { d.time.west with servoTerm := n }, east := { d.time.east with servoTerm := n } } d

/-- The servo takes the highest-priority qualified source: from FREERUN, ACQUIRING or LOCKED it is ACQUIRING, its term saturated until
the first update that knows the source's offset (log 109), and HOLDOVER lasts until it is LOCKED on the source (R96, R97). -/
def takeSource (d : Dev) : Dev :=
  match bestSource d with
  | none => d
  | some i =>
    let d := if d.time.servo = 3 then d else setTerm 0xFFFF (noteServo (setTime { d.time with servo := 1 } d))
    changeSource (some i) d

/-- The source in use is gone (R96, R97, R114). DESIGN CHOICE (log 109): that the servo is left with no source is no source change, and
SRC keeps the last kind while it holds over. -/
def loseSource (kind : Nat) (d : Dev) : Dev :=
  let d := raise 0x040A 0xFFFF kind [] d
  let d := if d.time.servo = 2 then enterHoldover none d else d
  if (bestSource d).isSome then takeSource d
  else if d.time.servo = 1 then enterFreerun d
  else setTime { d.time with entry := none } d

def modSource (i : Nat) (f : Source → Source) (d : Dev) : Dev :=
  setTime { d.time with sources := d.time.sources.zipIdx.map fun (x, k) => if k = i then f x else x } d

/-- SOURCE_QUALIFIED (R95, R96): a source whose condition holds qualifies; with none better in use it is taken at once, and one that
qualifies again only after WAIT_TO_RESTORE. -/
def execSourceQualified (t index : Nat) (s : State) : Host.Outcome State Fault Refusal :=
  act (fun d =>
    let d := advance t d
    match d.time.sources[index]? with
    | none => d
    | some x =>
      if x.qualified || !sourceReady d x then d
      else
        let d := modSource index (fun x => { x with qualified := true, since := d.clock }) d
        match d.time.entry with
        | none => takeSource d
        | some e => if index < e && !x.again then takeSource d else d) s

/-- SOURCE_LOST (R95 to R97): a qualified source whose loss condition holds; `seen` is its entry of the list, and what each core has
measured of 10MHZ_IN over the last 10 µs. -/
def execSourceLost (t : Nat) (seen : Nat × (Option Int × Option Int)) (s : State) : Host.Outcome State Fault Refusal :=
  act (fun d =>
    let index := seen.1
    let d := measureTen seen.2 (advance t d)
    match d.time.sources[index]? with
    | none => d
    | some x =>
      if !x.qualified || !sourceGone d x then d
      else
      let d := modSource index (fun x => { x with qualified := false, again := true }) d
      if d.time.entry = some index then loseSource x.kind d else d) s

/-- SOURCE_RESTORE (R96): a higher-priority source that has stayed qualified for WAIT_TO_RESTORE is taken back; with 0,
never. -/
def execSourceRestore (t index : Nat) (s : State) : Host.Outcome State Fault Refusal :=
  act (fun d =>
    let d := advance t d
    match d.time.sources[index]?, d.time.entry with
    | some x, some e =>
      if x.qualified && index < e && bestSource d == some index && restored d x then takeSource d else d
    | _, _ => d) s

/-- The largest filtered offset over the last 16 updates (R97, R107). -/
def largestOffset (d : Dev) : Nat := d.time.offsets.foldl (fun a o => max a o.natAbs) 0

/-- Ticks of a PTP `clockAccuracy`, rounded up, and 0xFFFF where it states none that fits (R114; the code of IEEE 1588-2019, log 107). -/
def accuracyTicks (a : Nat) : Nat :=
  if a < 0x17 then 0xFFFF else [1, 1, 1, 1, 2, 4, 16, 40, 160, 400, 1600, 4000, 16000, 40000].getD (a - 0x17) 0xFFFF

/-- The servo term of BOUND for a servo in a state; the current offset counts while ACQUIRING (R97, R107, R114, R392). -/
def servoTermOf (d : Dev) (servo : Nat) : Nat :=
  match d.time.entry.bind fun i => d.time.sources[i]? with
  | none => d.time.west.servoTerm
  | some x =>
    let off := largestOffset d
    if x.kind = 4 then ((beatLink d x.port).bound.getD 0xFFFF) + (if servo = 1 then (d.time.offsets.headD 0).natAbs else 0)
    else if x.kind = 2 || x.kind = 3 then x.refAccuracy + 4 + off
    else (if x.refAccuracy = 0 then accuracyTicks (heardOf d x).accuracy else x.refAccuracy) + captureTerm (portOf d x.port) + x.asymmetry + off

/-- A new source list takes effect: a source that stays keeps what it has qualified for, the one in use is kept where the list
still has it, and otherwise counts as lost; with no source the servo runs free (R97, R114). -/
def applySources (d : Dev) : Dev :=
  match d.time.newSources with
  | none => d
  | some xs =>
    let old := d.time.entry.bind fun i => d.time.sources[i]?
    let xs := xs.map fun x => match d.time.sources.find? (sameSource x) with
      | some y => { x with qualified := y.qualified, since := y.since, again := y.again }
      | none => x
    let d := setTime { d.time with sources := xs, newSources := none, waitRestore := d.time.newWait } d
    let d := match old with
      | none => d
      | some x => match xs.findIdx? (sameSource x) with
        | some i => setTime { d.time with entry := some i } d
        | none => loseSource x.kind (setTime { d.time with entry := none } d)
    if xs.isEmpty && d.time.servo != 0 then enterFreerun d else d

/-- Updates in a row within LOCK_THRESHOLD, the present one counted (R97). -/
def lockRun (d : Dev) : Nat := if largestOffset d ≤ d.time.lockThreshold then d.time.okRun + 1 else 0

/-- What an update's filtered offset makes of the servo's state: 16 updates in a row within LOCK_THRESHOLD lock it, and one beyond
unlocks it (R97). -/
def nextServo (d : Dev) : Nat :=
  if d.time.entry.isNone then d.time.servo
  else if (d.time.servo = 1 || d.time.servo = 3) && 16 ≤ lockRun d then 2
  else if d.time.servo = 2 && lockRun d = 0 then 1
  else d.time.servo

/-- The servo moves to its next state, which raises what has changed (R96, R97, R117). DESIGN CHOICE (log 109): UNLOCKED is raised where
the offset unlocks it, and not where LOCKED ends by the loss or change of the source, which have their own events. -/
def judgeLock (next : Nat) (d : Dev) : Dev :=
  let was := d.time.servo
  let d := setTime { d.time with okRun := lockRun d, updates := d.time.updates + 1 } d
  let term := d.time.west.servoTerm % 65536
  if next = was then d
  else if next = 2 then raise 0x0402 0xFFFF term [] (leaveHoldover 2 (setTime { d.time with mayStep := false } d))
  else raise 0x0403 0xFFFF term [] (noteServo (setTime { d.time with servo := next, changedAt := d.clock } d))

/-- A fraction or slew within a limit in ppm: 20 × 2^40 × ppm / 10^6 in units of 2^-40 ticks per cycle (R86, R98). -/
def ppmLimit (ppm : Nat) (x : Int) : Int :=
  let m : Int := (20 * fracOne * ppm / 1000000 : Nat)
  max (-m) (min m x)

/-- SERVO_UPDATE (R86, R87, R94, R97, R98): Helm writes each Time Core's fraction, within ±500 ppm, its slew, within SLEW_MAX, and its
servo term, unless Helm is stopped; on source 4 its offset is that of the latest BEAT (R392), else `offset` is what it has filtered; the servo term is frozen in HOLDOVER. An offset beyond STEP_THRESHOLD at acquisition is
stepped away when no group is enabled. `ten`: what each core measures of 10MHZ_IN. -/
def execServoUpdate (t : Nat) (frac slew offset : Int) (ten : Option Int × Option Int) (s : State) :
    Host.Outcome State Fault Refusal :=
  act (fun d =>
    let d := measureTen ten (advance t d)
    if d.helm.state != 1 then d
    else
      let d := applySources d
      let d := if (d.time.servo = 0 || d.time.entry.isNone) && (bestSource d).isSome then takeSource d else d
      let offset := ((beatsInUse d).map (·.offset)).getD offset
      let d := setTime { d.time with offsets := (offset :: d.time.offsets).take 16 } d
      let next := nextServo d
      let term := if next = 3 then d.time.west.servoTerm else servoTermOf d next
      let upd := fun (k : Core) =>
        { k with frac := ppmLimit 500 frac, slew := ppmLimit d.time.slewMax slew, servoTerm := term, updated := d.clock }
      let d := setTime { d.time with west := upd d.time.west, east := upd d.time.east } d
      let d := endCondition 0x700 0x1B (endCondition 0x701 0x1B d)
      let d := if d.time.mayStep && d.time.entry.isSome && offset.natAbs > d.time.stepThreshold && !groupsEnabled d && d.time.step.isNone
        then scheduleStep (-offset) none (setTime { d.time with mayStep := false } d) else d
      judgeLock next d) s

/-- CORE_NO_UPDATE (R87): a Time Core without an update for 250 ms enters holdover by itself; a servo that runs free has nothing to
hold, and one that already holds goes on. -/
def execCoreNoUpdate (t : Nat) (east : Bool) (s : State) : Host.Outcome State Fault Refusal :=
  act (fun d =>
    let d := advance t d
    let k := if east then d.time.east else d.time.west
    if d.clock - k.updated < 4000000000 || isPresent d (0x700 + b2n east) 0x1B then d
    else
      let d := report (0x700 + b2n east) 0x1B 0 d
      let running := d.time.servo == 1 || d.time.servo == 2
      let hold := running || (d.time.servo == 3 && (d.time.west.hwHoldover || d.time.east.hwHoldover))
      let mark := fun (k : Core) => { k with hwHoldover := k.hwHoldover || hold }
      let d := setTime (if east then { d.time with east := mark d.time.east } else { d.time with west := mark d.time.west }) d
      if running then enterHoldover (some east) d else d) s

-- Beats (R91 to R93, R100) ---------------------------------------------------------------------------------------------

/-- The islands that take beats: all but the Time Cores (R27, R91). -/
def beatIslands : List Nat := List.range 0x4A ++ [0x4C, 0x4D, 0x4E]

/-- One island takes a beat with a correction, which it slews away over the next 256 ns; beyond 64 ticks it steps, faults, and is
SUSPECT (R92, R93), unless its unit has slept since the last, when it steps without a fault (R471). -/
def takeBeat (k : Core) (corrections : List (Nat × Int)) (d : Dev) (i : Nat) : Dev :=
  let x := island d i
  let c := ((corrections.find? (fun e => e.1 == i)).map (·.2)).getD 0
  let bad := !x.slept && decide (c.natAbs > 64)
  let steps := bad || x.slept
  let from_ := x.settled d.clock
  let x := { x with offset := if steps then from_ + c else from_, slewBy := if steps then 0 else c, slewFrom := d.clock, beatAt := d.clock, servoTerm := k.servoTerm, growth := growthNow d, suspect := bad, slept := false }
  let d := { d with time := { d.time with islands := tput {} i x d.time.islands } }
  let d := endCondition (0x800 + i) 0x1A d
  if bad then report (0x800 + i) 0x19 0 (noteBad d) else d

/-- TIME_BEAT (R91, R100, R113): a Time Core's beat reaches every island it serves, with its BOUND terms, and a new oscillator
statement counts from it; in HOLDOVER a growth beyond HOLDOVER_LIMIT ends in FREERUN. -/
def execTimeBeat (t : Nat) (east : Bool) (corrections : List (Nat × Int)) (s : State) : Host.Outcome State Fault Refusal :=
  act (fun d =>
    let d := advance t d
    let d := setTime { d.time with heldFreq := d.time.oscFreq, heldAging := d.time.oscAging } d
    let d := if d.time.servo = 3 && (match growthNow d with | none => true | some g => decide (g > d.time.holdoverLimit)) then enterFreerun d else d
    let k := if east then d.time.east else d.time.west
    (beatIslands.filter fun i => fromEast d i == east && islandAwake d i).foldl (takeBeat k corrections) d) s

/-- BEAT_MISSING (R93): an island with no beat for 1 µs reports it and is SUSPECT. -/
def execBeatMissing (t isl : Nat) (s : State) : Host.Outcome State Fault Refusal :=
  act (fun d =>
    let d := advance t d
    let x := island d isl
    if !beatIslands.contains isl || d.clock - x.beatAt < 16000 || !islandAwake d isl then d
    else report (0x800 + isl) 0x1A 0 <| noteBad { d with time := { d.time with islands := tput {} isl { x with suspect := true } d.time.islands } }) s

-- The cross-check (R88 to R90) ------------------------------------------------------------------------------------------

/-- CORE_CROSS_CHECK (R88): a difference above 16 ticks is a mismatch; `measured` is by how much the exchange finds the
cores apart beyond their counts here. DESIGN CHOICE (log 109): once a die is repointed a new difference counts for nothing. -/
def execCoreCrossCheck (t : Nat) (measured : Int) (s : State) : Host.Outcome State Fault Refusal :=
  act (fun d =>
    let d := advance t d
    let diff : Int := (coreTicks d.time.west : Int) - coreTicks d.time.east + measured
    let d := setTime { d.time with apart := measured } d
    if diff.natAbs > 16 && d.time.mismatch.isNone && !d.time.unresolved && !d.time.westRepointed && !d.time.eastRepointed then
      let d := report 0x701 0x18 0 (report 0x700 0x18 0 (noteBad (setTime { d.time with mismatch := some d.clock } d)))
      raiseClock 0x0408 (unsigned 32 diff) diff [] d
    else d) s

/-- Which core two offsets from a reference event name wrong: West, East, or none (R89). -/
def wrongCore (term : Nat) (west east : Int) : Option Bool :=
  if west.natAbs > term + 16 && east.natAbs ≤ term then some false
  else if east.natAbs > term + 16 && west.natAbs ≤ term then some true
  else none

/-- One core is named wrong: the unit of a Pair yields or goes STALE, and the wrong core's die takes its beats from the
other core (R89). -/
def resolveCore (eastWrong : Bool) (d : Dev) : Dev :=
  let d := yieldUnit d
  let d := endCondition 0x700 0x18 (endCondition 0x701 0x18 d)
  let isl := d.time.islands
  let mine := fun i => islandEast i == eastWrong
  let isl := (beatIslands.filter mine).foldl (fun t i => tput {} i { tget {} t i with suspect := true } t) isl
  let d := setTime { d.time with mismatch := none, islands := isl, westWrong := d.time.westWrong || !eastWrong,
                                 westRepointed := d.time.westRepointed || !eastWrong, eastRepointed := d.time.eastRepointed || eastWrong } d
  raiseClock 0x0409 (if eastWrong then 2 else 1) 0 [] d

/-- A core's offset from an edge of whole seconds. -/
def edgeOffset (count : Nat) : Int :=
  let r := count % second
  if r < second / 2 then (r : Int) else (r : Int) - second

/-- A number held between two others. -/
def between (lo hi e : Int) : Int := max lo (min hi e)

/-- By how much the captures of one edge lie beside the two cores' counts: each is within 4 ticks of its core (R94), and where the exchange has
found the cores `apart` beyond their counts, either core may be the one that is off, or both (DESIGN CHOICE, log 109). -/
def captureErrors (apart errWest errEast : Int) : Int × Int :=
  let w := between (min 0 apart - 4) (max 0 apart + 4) errWest
  (w, between (max (w - apart - 8) (min 0 apart - apart - 4)) (min (w - apart + 8) (max 0 apart - apart + 4)) errEast)

/-- PPS_EDGE (R94, R89): both cores capture the edge, each with its own error; under a mismatch with source 2 or 3 it is
the reference event. DESIGN CHOICE (log 109): an edge that names neither core leaves the mismatch open until MISMATCH_TIMEOUT. -/
def execPpsEdge (t : Nat) (errWest errEast : Int) (s : State) : Host.Outcome State Fault Refusal :=
  act (fun d =>
    let d := advance t d
    let off := captureErrors d.time.apart errWest errEast
    let w := ((coreTicks d.time.west : Int) + off.1).toNat
    let e := ((coreTicks d.time.east : Int) + off.2).toNat
    let gap := (d.time.ppsAt.map fun a => decide (19200000000 ≤ d.clock - a)).getD true
    let good := if gap || 4 ≤ d.time.ppsNoTod then none else d.time.ppsGoodSince
    let d := setTime { d.time with ppsWest := some w, ppsEast := some e, ppsAt := some d.clock, ppsNoTod := d.time.ppsNoTod + 1,
                                   ppsGoodSince := good } d
    if d.time.mismatch.isSome && (d.time.src = 2 || d.time.src = 3) then
      match wrongCore d.time.west.servoTerm (edgeOffset w) (edgeOffset e) with
      | some x => resolveCore x d
      | none => d
    else d) s

/-- MISMATCH_TIMEOUT (R89, R90): 2 s after a mismatch, or where no reference event is possible, it is resolved by what the cores
measured on the source Port and a RESOLVE_PORT that can resolve it (`refs`), or is unresolved. -/
def execMismatchTimeout (t : Nat) (refs : Option (Int × Int)) (s : State) : Host.Outcome State Fault Refusal :=
  act (fun d =>
    let d := advance t d
    match d.time.mismatch with
    | none => d
    | some at_ =>
      let src := d.time.entry.bind fun i => d.time.sources[i]?
      let byPort := match src with | some x => (x.kind == 1 || x.kind == 4 || x.kind == 5) && resolves d x | none => false
      let byEdge := match src with | some x => x.kind == 2 || x.kind == 3 | none => false
      let named := if byPort then refs.bind (fun r => wrongCore d.time.west.servoTerm r.1 r.2) else none
      match named with
      | some x => resolveCore x d
      | none =>
        if d.clock - at_ < 2 * second && (byPort || byEdge) then d
        else
          let d := setTime { d.time with mismatch := none, unresolved := true } d
          let d := raiseClock 0x0409 4 0 [] d
          if d.pair.mode = 0 then enterSafe 5 d else yieldUnit d) s

-- ToD and the outputs (R94, R111) -------------------------------------------------------------------------------------------

/-- A Clerenos ToD message that is whole and valid: seconds, UTC offset and flags (R94). -/
def todClerenos (m : List Byte) : Option (Nat × Int × Nat) :=
  if m.length = 16 && beAt m 0 2 = 0xC51E && byteAt m 2 = 1 && beAt m 14 2 = crc16 (m.take 14) && bitOf (byteAt m 3) 0 then
    some (beAt m 4 6, signed 16 (beAt m 10 2), byteAt m 3)
  else none

/-- A decimal number of ASCII digits. -/
def digits (b : List Byte) : Option Nat :=
  if b.isEmpty then none
  else b.foldl (fun a c => a.bind fun n => if within c.toNat 48 57 then some (10 * n + (c.toNat - 48)) else none) (some 0)

/-- Fields between commas. -/
def fields : List Byte → List (List Byte)
  | [] => [[]]
  | c :: t => if c = 0x2C#8 then [] :: fields t else match fields t with
    | [] => [[c]]
    | f :: fs => (c :: f) :: fs

/-- Days from 1970-01-01 to a date of the Gregorian calendar. -/
def daysTo (y m dd : Nat) : Nat :=
  let y' := if m ≤ 2 then y - 1 else y
  let mp := (m + 9) % 12
  365 * y' + y' / 4 - y' / 100 + y' / 400 + (153 * mp + 2) / 5 + dd - 719469

/-- An NMEA 0183 ZDA sentence, taken as UTC and moved by UTC_OFFSET (R94). DESIGN CHOICE (log 109): of any talker, its checksum not
judged. -/
def todZda (m : List Byte) (utc : Int) : Option (Nat × Int × Nat) :=
  let fs := fields m
  let tag := fs.headD []
  let hms := fs.getD 1 []
  match digits (hms.take 2), digits ((hms.drop 2).take 2), digits ((hms.drop 4).take 2), digits (fs.getD 2 []), digits (fs.getD 3 []), digits ((fs.getD 4 []).take 4) with
  | some h, some mi, some se, some dd, some mo, some y =>
    if tag.drop 3 = [0x5A#8, 0x44#8, 0x41#8] && y ≥ 1970 && within mo 1 12 && within dd 1 31 then
      some ((((daysTo y mo dd * 86400 + h * 3600 + mi * 60 + se : Nat) : Int) + utc).toNat, utc, 1)
    else none
  | _, _, _, _, _, _ => none

/-- TOD_MESSAGE (R94): a message that ends between 100 ms and 900 ms after the edge it follows is taken; another is counted
and ignored. -/
def execTodMessage (t : Nat) (msg : List Byte) (s : State) : Host.Outcome State Fault Refusal :=
  act (fun d =>
    let d := advance t d
    let since := (d.time.ppsAt.map (fun a => d.clock - a)).getD 0
    if !within since 1600000000 14400000000 then setTime { d.time with todIgnored := d.time.todIgnored + 1 } d
    else match (if d.time.todFormat = 0 then todClerenos msg else todZda msg d.time.utcOffset) with
      | none => d
      | some m => setTime { d.time with tod := some m, utcNow := m.2.1, ppsNoTod := 0, ppsGoodSince := some (d.time.ppsGoodSince.getD d.clock) } d) s

/-- The core that drives PPS_OUT (R111). -/
def ppsCore (d : Dev) : Core := if d.time.westWrong then d.time.east else d.time.west

/-- PPS_OUT (R111): the rise at the latest whole second plus PPS_OFFSET that has been reached and not yet driven, with the fall that
ends PPS_WIDTH. -/
def execPpsOut (t : Nat) (s : State) : Host.Outcome State Fault Refusal :=
  act (fun d =>
    let d := advance t d
    let off := d.time.ppsOffset * 16
    let sec := ((coreTicks (ppsCore d) : Int) - off) / (second : Int)
    let edge := (sec * second + off).toNat
    if sec < 0 || d.time.ppsOutAt == some edge then d
    else emit (.pps edge (edge + 16 * d.time.ppsWidth)) (setTime { d.time with ppsOutAt := some edge, ppsSec := sec.toNat } d)) s

/-- TOD_TX (R111): the message that describes the last PPS_OUT edge starts 200 ms after it, once. DESIGN CHOICE (log 110): the leap
and traceable flags are those of the last valid ToD received. -/
def execTodTx (t : Nat) (s : State) : Host.Outcome State Fault Refusal :=
  act (fun d =>
    let d := advance t d
    match d.time.ppsOutAt with
    | none => d
    | some e =>
      if coreTicks (ppsCore d) < e + 3200000000 || d.time.todSentFor == some e then d
      else
        let fl := b2n (d.time.servo = 2 || d.time.servo = 3) + (match d.time.tod with | some (_, _, f) => f / 2 % 8 * 2 | none => 0)
        let m := be 2 0xC51E ++ be 1 1 ++ be 1 fl ++ be 6 d.time.ppsSec ++ be 2 (unsigned 16 d.time.utcNow) ++ be 2 0
        emit (.tod (m ++ be 2 (crc16 m))) (setTime { d.time with todSentFor := some e } d)) s

-- Snapshot registers (R112) ----------------------------------------------------------------------------------------------

/-- TIME_LATCH (R112): a write of LATCH captures the selected Time Core for the writing function; SEL is written with
it. -/
def execTimeLatch (t fn sel : Nat) (s : State) : Host.Outcome State Fault Refusal :=
  act (fun d =>
    let d := advance t d
    let x := fnOf d fn
    setFn fn { x with snapSel := sel % 2, snapValid := true, snap := coreStamp d (sel % 2 == 1), snapSeq := (x.snapSeq + 1) % 2 ^ 32 } d) s

end Sys2Proof.Machine
end

