-- ==== Sys2Proof/Machine/Cascade.lean ====
section
/-!
DEFINITION. Cascades of devices (16_cascade.md): membership, time over fabric links, pushes, seal notes and links, verdicts, and the
five commands. The layouts of message bodies that the spec leaves open are those of log 16.
-/

namespace Sys2Proof.Machine

def setCascade (x : Cascade) (d : Dev) : Dev := { d with cascade := x }

def ownSerial : List Byte := (List.range 16).map Config.serial

/-- A worker that is a member (R390). -/
def joinedWorker (d : Dev) : Bool := d.cascade.role == 2 && d.cascade.own.isSome

/-- Helm runs: the functions that stop with it go on (R426). -/
def helmRuns (d : Dev) : Bool := d.helm.state == 1

-- Relaying (R389) ----------------------------------------------------------------------------------------------------------------

/-- A message is addressed to this device. -/
def addressed (d : Dev) (m : CMsg) : Bool :=
  m.dst == 0xFF || (m.dst == ownMember d && (m.dstUnit == 0xFF || m.dstUnit == unitNo d))

/-- Where a worker relays a message that came on a Port: toward the manager, or toward the worker it names. -/
def relayPort (d : Dev) (port : Nat) (m : CMsg) : Option Nat :=
  if d.cascade.role != 2 then none
  else if m.dst = 0 then (if upstreamPort d == some port then none else upstreamPort d)
  else (d.cascade.routes.find? fun r => r.member == m.dst && (m.dstUnit == 0xFF || r.unit == m.dstUnit)).map (·.port)

def misdirect (d : Dev) : Dev := setCascade { d.cascade with misdirected := d.cascade.misdirected + 1 } d

def memberAt (d : Dev) (num unit : Nat) : Option Member := d.cascade.members.find? fun m => m.num == num && m.unit == unit

def modMember (num unit : Nat) (f : Member → Member) (d : Dev) : Dev :=
  setCascade { d.cascade with members := d.cascade.members.map fun m => if m.num = num && m.unit = unit then f m else m } d

/-- Takes a Cascade message on a FABRIC Port: for this device, relayed, or discarded and counted. `send` relays it. A frame of another
EtherType or VERSION is none of the Cascade's. -/
def takeMsg (port : Nat) (m : CMsg) (send : Nat → Dev → Dev) (f : Dev → Dev) (d : Dev) : Dev :=
  if d.cascade.role = 0 || !(fabricPorts d).contains port || m.etherType != 0x88B5 || m.version != 1 then d
  else if m.cascadeId != d.cascade.cascadeId then misdirect d
  else if addressed d m then f (if manages d then modMember m.src m.srcUnit (fun x => { x with heardAt := d.clock }) d else d)
  else
    match relayPort d port m with
    | some p => send p d
    | none => misdirect d

def relayMsg (m : CMsg) (port : Nat) (d : Dev) : Dev := emit (.cascade port m) d

-- Time over fabric links (R392 to R394) --------------------------------------------------------------------------------------------------

/-- A device that launches beats: the manager, or a worker whose source in use is kind 4 and whose hop count is below MAX_HOPS (R393). -/
def beatPorts (d : Dev) : List Nat :=
  if manages d then fabricPorts d
  else if d.cascade.role = 2 then
    match (beatsInUse d).bind (·.hops) with
    | some h => if h < d.cascade.maxHops then (fabricPorts d).filter fun p => upstreamPort d != some p else []
    | none => []
  else []

/-- The body of a BEAT launched on a Port: Time Core West's count as it passes the MDI plane, QUAL and BOUND, the hop count, and a pending
step with its beat number (R74, R102, R392). -/
def beatBody (d : Dev) (port : Nat) : List Byte :=
  let st := coreStamp d false
  let hop := if d.cascade.role = 1 then 0 else (((beatsInUse d).bind (·.hops)).map (· + 1)).getD 0
  let step := match d.time.step with
    | some x => if x.appliedAt.isNone then be 1 1 ++ be 8 (unsigned 64 x.amount) ++ be 8 x.beat else be 17 0
    | none => be 17 0
  be 8 (mdiTick (portOf d port) st.ticks) ++ be 1 st.qual ++ be 2 st.bound ++ be 1 hop ++ step

/-- CASCADE_BEAT_SEND (R392, R393): every 256 ns. -/
def execCascadeBeatSend (t : Nat) (s : State) : Host.Outcome State Fault Refusal :=
  act (fun d =>
    let d := advance t d
    match beatPorts d with
    | [] => d
    | ps => ps.foldl (fun e p => emit (.cascade p (cascadeMsg d 0x40 0xFF 0xFF (beatBody d p))) e) (cascadeSend [] 0x40 0xFF 0xFF [] d)) s

/-- A manager's pending step: a worker locked on source 4 applies it at the same beat, or with a group enabled goes back to ACQUIRING
(R394). -/
def takeStep (amount : Int) (beat : Nat) (d : Dev) : Dev :=
  if d.time.src != 4 || d.time.servo != 2 || d.time.step.isSome || beat ≤ beatNow d then d
  else if groupsEnabled d then
    raise 0x0403 0xFFFF (d.time.west.servoTerm % 65536) [] (noteServo (setTime { d.time with servo := 1, okRun := 0 } d))
  else setTime { d.time with step := some { beat, amount, ticket := none } } d

/-- A worker takes beats on the Ports that its `time.source` entries of kind 4 name (R393). -/
def takesBeats (d : Dev) (port : Nat) : Bool := d.time.sources.any fun x => x.kind == 4 && x.port == port

/-- CASCADE_BEAT_RECEIVE (R392 to R394): taken only on a Port that a `time.source` entry names; `t` is the instant at which its first bit passes
that Port's MDI plane, as in FRAME_ARRIVAL. -/
def execCascadeBeatReceive (t port : Nat) (msg : CMsg) (s : State) : Host.Outcome State Fault Refusal :=
  act (fun d =>
    takeMsg port msg (relayMsg msg) (fun d =>
      let b := msg.body
      let hop := beAt b 11 1
      if d.cascade.role != 2 || !takesBeats d port then d
      else
        let x := beatLink d port
        let on := (x.at_.map fun a => decide (d.clock - a < 16000)).getD false
        let y : BeatLink := { beats := x.beats + 1, linkDelay := x.linkDelay, at_ := some d.clock, since := if on then x.since else some d.clock,
                              offset := (portTicks d port : Int) - beAt b 0 8 - x.linkDelay, hops := some hop, bound := some (min 0xFFFF (beAt b 9 2 + 32)) }
        let d := setCascade { d.cascade with links := tput {} port y d.cascade.links } d
        if upstreamPort d = some port && beAt b 12 1 = 1 then takeStep (signed 64 (beAt b 13 8)) (beAt b 21 8) d else d) (advance t d)) s

/-- BEAT_ECHO (R392): every 16th beat is echoed on the Port it came on, and the link delay is half of the round trip less the worker's own
turnaround; `roundTrip` is the time from the upstream's launch of that beat until the echo is back there (log 16). -/
def execBeatEcho (t roundTrip : Nat) (s : State) : Host.Outcome State Fault Refusal :=
  act (fun d =>
    let d := advance t d
    let due := d.cascade.links.filter fun (p, x) => decide (16 ≤ x.beats) && takesBeats d p
    if d.cascade.role != 2 then d
    else
      due.foldl (fun d (p, x) =>
        let turn := d.clock - x.at_.getD d.clock
        let y := { x with beats := x.beats - 16, linkDelay := (roundTrip - turn) / 2 }
        cascadeSend [p] 0x41 0xFF 0xFF (be 8 (coreTicks d.time.west)) (setCascade { d.cascade with links := tput {} p y d.cascade.links } d)) d) s

-- Joining and leaving (R390, R391) -----------------------------------------------------------------------------------------------------

/-- A fresh 16-byte nonce: a free value (log 7). -/
def freshNonce (d : Dev) : List Byte × Dev :=
  let (a, d) := takeFree d
  let (b, d) := takeFree d
  (le 8 a ++ le 8 b, d)

/-- DISCOVER_SEND (R390 step 1): every 1 ms. -/
def execDiscoverSend (t : Nat) (s : State) : Host.Outcome State Fault Refusal :=
  act (fun d =>
    let d := advance t d
    if !manages d || !helmRuns d then d
    else
      let (n, d) := freshNonce d
      let d := setCascade { d.cascade with nonce := n } d
      cascadeSend (fabricPorts d) 0x42 0xFF 0xFF (ownSerial ++ n ++ be 1 d.cascade.maxHops ++ be 1 0) d) s

/-- What a Grotto signs (R390): SHA-256 is inside the signature. -/
def signed32 (m : List Byte) : List Byte := be 32 (Config.signR m).toNat ++ be 32 (Config.signS m).toNat

/-- A device certificate with its length. -/
def ownCert : List Byte := be 2 (certificate 0).length ++ certificate 0

/-- The body of a JOIN: serial, stepping, firmware release, PAIR_ID (0 in solo mode), unit, role (0xFF in solo mode), hop count, nonce,
certificate, signature. -/
def joinBody (d : Dev) (hop : Nat) (theirs own : List Byte) : List Byte :=
  ownSerial ++ [0x42, 0x30] ++ be 2 d.helm.fwRelease ++ be 4 (if d.pair.mode = 1 then d.pair.pairId else 0) ++ be 1 (unitNo d) ++ be 1 (if d.pair.mode = 1 then d.pair.role else 0xFF)
    ++ be 1 hop ++ own ++ ownCert ++ signed32 (theirs ++ ownSerial ++ be 4 d.cascade.cascadeId)

/-- The two fragments in which a JOIN travels, each with its number and the worker's serial (R389, log 16). -/
def joinFragments (body : List Byte) : List (List Byte) :=
  [be 1 0 ++ body.take 16 ++ (body.drop 16).take 1463, be 1 1 ++ body.take 16 ++ body.drop 1479]

/-- Messages by which a Cascade and a worker of another CASCADE_ID find out that they differ are taken all the same: a DISCOVER, and the
REFUSE that answers the worker's JOIN with cause 1 (R390). -/
def foreign (d : Dev) (m : CMsg) : CMsg := { m with cascadeId := d.cascade.cascadeId }

/-- DISCOVER_RECEIVE (R390 step 2): a worker that is no member answers with JOIN, and relays with one more hop; a DISCOVER of another
CASCADE_ID is answered only. -/
def execDiscoverReceive (t port : Nat) (msg : CMsg) (s : State) : Host.Outcome State Fault Refusal :=
  act (fun d =>
    takeMsg port (foreign d msg) (relayMsg msg) (fun d =>
      let b := msg.body
      let hop := beAt b 33 1
      if d.cascade.role != 2 || !helmRuns d || (upstreamPort d).any (· != port) then d
      else
        let mine := msg.cascadeId == d.cascade.cascadeId
        let d := if mine then setCascade { d.cascade with contactAt := some d.clock } d else d
        let on := if mine then (fabricPorts d).filter (· != port) else []
        let d := on.foldl (fun d p => relayMsg { msg with body := b.take 33 ++ be 1 (hop + 1) } p d) d
        if d.cascade.own.isSome then d
        else
          let (n, d) := freshNonce d
          let d := setCascade { d.cascade with nonce := n, answered := some (b.take 16, slice b 16 16) } d
          (joinFragments (joinBody d hop (slice b 16 16) n)).foldl (fun d b => cascadeSend [port] 0x43 0 0xFF b d) d) (advance t d)) s

/-- The member numbers that the allow list binds. -/
def boundNumbers (d : Dev) : List Nat := d.cascade.allow.filterMap fun (_, n) => if n = 0 then none else some n

/-- The member number a joining worker gets (R390 step 4): that of its Pair where the other unit is joined, so that a Pair counts once
(R23, R35), else its serial's binding, or the lowest free one. DESIGN CHOICE (log 117): a binding does not hold while another member has its
number. -/
def assign (d : Dev) (serial : List Byte) (paired : Bool) (pairId : Nat) : Option Nat :=
  let c := d.cascade
  match c.members.find? fun m => m.serial != serial && paired && m.paired && m.pairId == pairId with
  | some m => some m.num
  | none =>
    let free := fun (n : Nat) => !c.members.any fun m => m.num == n && m.serial != serial
    let bound := (c.allow.find? fun e => e.1 == serial && e.2 != 0 && free e.2).map (·.2)
    match bound.or ((c.members.find? fun m => m.serial == serial).map (·.num)) with
    | some n => some n
    | none => ((List.range 63).map (· + 1)).find? fun n => !(c.members.any fun m => m.num == n) && !(boundNumbers d).contains n

/-- The root that this device trusts is its own chain's (R390 step 3). -/
def rootTrusted (d : Dev) : Bool := sha256 (certificate 2) == d.cascade.rootHash

/-- A JOIN comes from a unit of a Pair. -/
def joinPaired (b : List Byte) : Bool := beAt b 25 1 != 0xFF

/-- Why a JOIN is refused, 0 where it is not (R390). -/
def joinCause (d : Dev) (m : CMsg) (certOk signOk : Bool) : Nat :=
  let b := m.body
  let c := d.cascade
  let serial := b.take 16
  if m.cascadeId != c.cascadeId then 1
  else if !(certOk && rootTrusted d) then 2
  else if !signOk then 3
  else if c.expelled.contains serial || (!c.open_ && !(c.allow.any fun e => e.1 == serial)) then 4
  else if (assign d serial (joinPaired b) (beAt b 20 4)).isNone then 5
  else if beAt b 26 1 > c.maxHops then 6
  else if slice b 16 2 != [0x42, 0x30] || beAt b 18 2 != d.helm.fwRelease then 7
  else 0

/-- The manager takes a valid JOIN: a member's number, ACCEPT, the event, and the comparison of its digests (R390, R397). The numbers
of its PUSH messages start again (log 16). -/
def admitUnit (port num : Nat) (b : List Byte) (d : Dev) : Dev :=
  let unit := beAt b 24 1
  let mem : Member := { num, unit, serial := b.take 16, pairId := beAt b 20 4, paired := joinPaired b, role := if joinPaired b then beAt b 25 1 else 0,
                        port, statusAt := d.clock, heardAt := d.clock }
  let c := d.cascade
  let d := setCascade { c with members := c.members.filter (fun m => m.serial != b.take 16) ++ [mem], resyncs := c.resyncs ++ [(num * 256 + unit, 0)],
                               unacked := c.unacked.filter (fun u => u.member != num * 256 + unit || u.subtype != 0x46),
                               msgSeq := tput 0 (msgKey 0x46 num unit) 0 c.msgSeq } d
  let sig := signed32 (slice b 27 16 ++ be 1 num ++ be 4 c.cascadeId)
  raise 0x1001 num (num + 64 * unit) [] (cascadeSend [port] 0x44 0xFF unit (be 1 num ++ b.take 16 ++ ownCert ++ sig) d)

/-- The manager judges a whole JOIN (R390 steps 3 and 4). -/
def judgeJoin (port : Nat) (m : CMsg) (certOk signOk : Bool) (d : Dev) : Dev :=
  let serial := m.body.take 16
  let cause := joinCause d m certOk signOk
  if cause = 0 then
    match assign d serial (joinPaired m.body) (beAt m.body 20 4) with
    | some n => admitUnit port n m.body d
    | none => d
  else cascadeSend [port] 0x45 0xFF 0xFF (be 1 cause ++ serial) d

/-- JOIN_RECEIVE (R389, R390 steps 3 and 4): a fragment of a JOIN, which the manager judges once it has both. `certOk` and `signOk` are what
validating the certificate against the device's own intermediate and root, and checking the signature, give. A relaying worker remembers the
Port. -/
def execJoinReceive (t port : Nat) (msg : CMsg) (certOk signOk : Bool) (s : State) : Host.Outcome State Fault Refusal :=
  act (fun d =>
    let d := advance t d
    let serial := slice msg.body 1 16
    let rest := msg.body.drop 17
    let c := d.cascade
    if !(fabricPorts d).contains port || !helmRuns d || msg.etherType != 0x88B5 || msg.version != 1 then d
    else if manages d then
      let others := c.joinParts.filter fun e => e.1 != serial
      if beAt msg.body 0 1 = 0 then setCascade { c with joinParts := others.take 63 ++ [(serial, rest)] } d
      else
        match c.joinParts.find? fun e => e.1 == serial with
        | some e => judgeJoin port { msg with body := serial ++ e.2 ++ rest } certOk signOk (setCascade { c with joinParts := others } d)
        | none => d
    else if c.role = 2 then
      let known := c.routes.find? fun x => x.serial == serial
      let unit := if beAt msg.body 0 1 = 0 then beAt rest 8 1 else (known.map (·.unit)).getD 0
      let r : Route := { serial, port, unit }
      (upstreamPort d).toList.foldl (fun d p => relayMsg msg p d)
        (setCascade { c with routes := c.routes.filter (fun x => x.serial != serial) ++ [r] } d)
    else d) s

/-- Where an answer to a JOIN goes on: toward the worker whose serial it names, down the Port where its JOIN arrived (R389). -/
def relayAnswer (serial : List Byte) (member : Nat) (m : CMsg) (d : Dev) : Dev :=
  match d.cascade.routes.find? fun r => r.serial == serial with
  | none => misdirect d
  | some r =>
    relayMsg m r.port (setCascade { d.cascade with routes := d.cascade.routes.map fun x => if x.serial == serial then { x with member } else x } d)

/-- ACCEPT_RECEIVE (R390 step 5): the worker is a member from here on; one that fails the check is discarded with JOIN_REFUSED. -/
def execAcceptReceive (t port : Nat) (msg : CMsg) (certOk signOk : Bool) (s : State) : Host.Outcome State Fault Refusal :=
  act (fun d =>
    takeMsg port msg (relayMsg msg) (fun d =>
      let b := msg.body
      let n := beAt b 0 1
      if d.cascade.role != 2 then d
      else if slice b 1 16 != ownSerial then relayAnswer (slice b 1 16) n msg d
      else if d.cascade.answered.isNone || !helmRuns d then d
      else
        let d := setCascade { d.cascade with answered := none } d
        if !(certOk && rootTrusted d) then raise 0x1003 0xFFFF 2 ownSerial d
        else if !signOk then raise 0x1003 0xFFFF 3 ownSerial d
        else raise 0x1001 n (n + 64 * unitNo d) []
          (setCascade { d.cascade with own := some n, contactAt := some d.clock, pushNext := 0, pushPart := [] } d))
      (advance t d)) s

/-- REFUSE_RECEIVE (R390): the worker joins again at a later DISCOVER. -/
def execRefuseReceive (t port : Nat) (msg : CMsg) (s : State) : Host.Outcome State Fault Refusal :=
  act (fun d =>
    takeMsg port (foreign d msg) (relayMsg msg) (fun d =>
      let b := msg.body
      if d.cascade.role != 2 then d
      else if slice b 1 16 != ownSerial then relayAnswer (slice b 1 16) 0xFF msg d
      else if d.cascade.answered.isNone || !helmRuns d then d
      else raise 0x1003 0xFFFF (beAt b 0 1) ownSerial (setCascade { d.cascade with answered := none } d)) (advance t d)) s

/-- Members leave: their pushes, verdicts, note intake and comparisons stop, and MEMBER_LEAVE is raised for each with how (R391). -/
def dropMembers (which : Member → Bool) (how : Nat) (d : Dev) : Dev :=
  let gone := d.cascade.members.filter which
  gone.foldl (fun d m =>
    let c := d.cascade
    let key := m.num * 256 + m.unit
    let tickets := (c.resyncs.filter fun r => r.1 == key).map (·.2)
    let d := setCascade { c with members := c.members.filter (fun x => !(x.num == m.num && x.unit == m.unit)),
                                 unacked := c.unacked.filter (fun u => u.member != key), resyncs := c.resyncs.filter (fun r => r.1 != key) } d
    let d := tickets.foldl (fun d n => if n = 0 then d else completeTicket n stFault [] d) d
    raise 0x1002 m.num (m.num + 64 * m.unit + 256 * how) [] d) d

/-- Members are expelled: LEAVE goes to each, and their serials stay barred (R391). -/
def expel (which : Member → Bool) (d : Dev) : Dev :=
  let gone := d.cascade.members.filter which
  let d := gone.foldl (fun d m => cascadeSend [m.port] 0x4B m.num m.unit [] d) d
  let d := setCascade { d.cascade with expelled := d.cascade.expelled ++ gone.map (·.serial) } d
  dropMembers which 1 d

/-- A worker's membership ends (R391). -/
def endMembership (d : Dev) : Dev := setCascade { d.cascade with own := none, answered := none } d

/-- LEAVE_RECEIVE (R391). -/
def execLeaveReceive (t port : Nat) (msg : CMsg) (s : State) : Host.Outcome State Fault Refusal :=
  act (fun d =>
    takeMsg port msg (relayMsg msg) (fun d =>
      if manages d then dropMembers (fun m => m.num == msg.src && m.unit == msg.srcUnit) 0 d
      else
        match d.cascade.own with
        | some n => if msg.src = 0 then raise 0x1002 n (n + 64 * unitNo d + 256) [] (endMembership d) else d
        | none => d) (advance t d)) s

/-- MEMBER_TIMEOUT (R391): no STATUS for 5 ms. -/
def execMemberTimeout (t : Nat) (s : State) : Host.Outcome State Fault Refusal :=
  act (fun d =>
    let d := advance t d
    if manages d then dropMembers (fun m => decide (d.clock - m.statusAt ≥ 80000000)) 2 d else d) s

/-- MANAGER_TIMEOUT (R391): no DISCOVER and no ACK for 5 ms; every table stays. -/
def execManagerTimeout (t : Nat) (s : State) : Host.Outcome State Fault Refusal :=
  act (fun d =>
    let d := advance t d
    match d.cascade.contactAt with
    | some a =>
      if joinedWorker d && d.clock - a ≥ 80000000 then
        raise 0x1005 0xFFFF 0 [] (endMembership (setCascade { d.cascade with contactAt := none } d))
      else d
    | none => d) s

-- Pushes (R395 to R397) ----------------------------------------------------------------------------------------------------------------

/-- Sends a member the programmed table set as a PUSH; it is kept until acknowledged (R397). -/
def pushTables (m : Member) (d : Dev) : Dev :=
  let n := tget 0 d.cascade.msgSeq (msgKey 0x46 m.num m.unit)
  let d := emit (.pushTables m.port (cascadeMsg d 0x46 m.num m.unit []) (snapshotOf d)) d
  let c := d.cascade
  let u : Unacked := { subtype := 0x46, seq := n, body := [], sentAt := d.clock, firstAt := d.clock, member := m.num * 256 + m.unit }
  setCascade { c with msgSeq := tput 0 (msgKey 0x46 m.num m.unit) ((n + 1) % 2 ^ 32) c.msgSeq, unacked := c.unacked ++ [u] } d

def ackPush (seq : Nat) (d : Dev) : Dev := cascadeAck (upstreamPort d).toList 0x46 seq 0 0xFF d

/-- A pushed swap whose beat has passed flips on receipt and counts swap-late, once nothing is ahead of it (R396). -/
def lateSwap (beat : Nat) (d : Dev) : Dev :=
  if beat > beatNow d then d
  else
    let d := setCascade { d.cascade with swapLate := d.cascade.swapLate + 1 } (count 0x80B 0 d)
    match swapOp d with
    | some o =>
      if d.steward.ops.any fun x => x.id < o.id && within x.code 1 7 then d
      else
        flip { d with steward := { d.steward with ops := d.steward.ops.map fun x => if x.id = o.id then { x with state := 2, past := true } else x },
                      tables := { d.tables with swap := d.tables.swap.map fun x => { x with pushed := true } } }
    | none => d

/-- A PUSH in order: a programmed command, which a worker Pair's sending unit also mirrors (R395); none where it cannot be taken now. -/
def applyPush (seq : Nat) (body : List Byte) (d : Dev) : Option Dev :=
  let opcode := beAt body 0 2
  let beat := beAt body 2 8
  let req := d.cascade.pushPart ++ body.drop 10
  let e := setCascade { d.cascade with pushPart := [] } d
  if 0x8000 ≤ opcode then some (ackPush seq (setCascade { d.cascade with pushPart := req } d))
  else
  match askRemote opcode req e with
  | none => some (ackPush seq e)
  | some (ask, q, h) =>
    (takeRemote opcode ask q h beat (1, seq) e).map fun d =>
      let d := mirror opcode beat req none d
      if opcode = 0x0603 then lateSwap beat d else d

/-- PUSH_RECEIVE (R395 to R397): in order of issue; one that came before is acknowledged again unless it is still being applied. A whole table
set stands for every PUSH before it, lost ones among them. -/
def execPushReceive (t port : Nat) (msg : CMsg) (data : Option Snapshot) (s : State) : Host.Outcome State Fault Refusal :=
  act (fun d =>
    takeMsg port msg (fun p d => match data with | some x => emit (.pushTables p msg x) d | none => relayMsg msg p d) (fun d =>
      let next := d.cascade.pushNext
      if !joinedWorker d || !d.cascade.push || !helmRuns d || !sendingUnit d then d
      else if msg.seq == next || (data.isSome && seqAfter msg.seq next) then
        let done := match data with
          | some x => let d := writeTables x d; some (ackPush msg.seq (noteDrained (inactive d) d))
          | none => applyPush msg.seq msg.body d
        match done with
        | some d => setCascade { d.cascade with pushNext := (msg.seq + 1) % 2 ^ 32 } d
        | none => d
      else if seqAfter next msg.seq && !(d.steward.ops.any fun o => o.ack == some (1, msg.seq)) then ackPush msg.seq d
      else d) (advance t d)) s

/-- ACK_RECEIVE (R389, R391, R396). -/
def execAckReceive (t port : Nat) (msg : CMsg) (s : State) : Host.Outcome State Fault Refusal :=
  act (fun d =>
    takeMsg port msg (relayMsg msg) (fun d =>
      let kind := beAt msg.body 0 2
      let seq := beAt msg.body 2 4
      let c := d.cascade
      if manages d then
        setCascade { c with unacked := c.unacked.filter fun u => !(u.subtype == kind && u.seq == seq && u.member == msg.src * 256 + msg.srcUnit) } d
      else setCascade { c with unacked := c.unacked.filter (fun u => !(u.subtype == kind && u.seq == seq)), contactAt := some d.clock } d) (advance t d)) s

/-- Sends again what has gone unacknowledged for 10 µs. -/
def resendAll (subtype : Nat) (send : Unacked → Dev → Dev) (d : Dev) : Dev :=
  let due := fun (u : Unacked) => u.subtype == subtype && decide (d.clock - u.sentAt ≥ 160000)
  let us := d.cascade.unacked.filter due
  let d := us.foldl (fun d u => send u d) d
  setCascade { d.cascade with unacked := d.cascade.unacked.map fun u => if due u then { u with sentAt := d.clock } else u } d

/-- The manager's Helm acts for the Cascade: of a Pair on the sending unit only (R387), and not while it is stopped (R426). -/
def managing (d : Dev) : Bool := manages d && helmRuns d

/-- PUSH_RETRANSMIT (R389). -/
def execPushRetransmit (t : Nat) (s : State) : Host.Outcome State Fault Refusal :=
  act (fun d =>
    if !managing (advance t d) then advance t d else resendAll 0x46 (fun u d =>
      match memberAt d (u.member / 256) (u.member % 256) with
      | none => d
      | some m =>
        let msg := { cascadeMsg d 0x46 m.num m.unit u.body with seq := u.seq }
        if u.body.isEmpty then emit (.pushTables m.port msg (snapshotOf d)) d else relayMsg msg m.port d) (advance t d)) s

/-- PUSH_ACK_TIMEOUT (R397): a worker that has not acknowledged a PUSH within 10 ms is OUT_OF_STEP. -/
def execPushAckTimeout (t : Nat) (s : State) : Host.Outcome State Fault Refusal :=
  act (fun d =>
    let d := advance t d
    let late := (d.cascade.unacked.filter fun u => u.subtype == 0x46 && decide (d.clock - u.firstAt ≥ 160000000)).map (·.member)
    (if managing d then late.eraseDups else []).foldl (fun d k =>
      let d := setCascade { d.cascade with unacked := d.cascade.unacked.filter fun u => !(u.subtype == 0x46 && u.member == k) } d
      raise 0x1004 (k / 256) (k / 256) [] (modMember (k / 256) (k % 256) (fun m => { m with outOfStep := true }) d)) d) s

/-- CASCADE_STATUS_SEND (R391, R397): every 1 ms: role, PUSH, and both generations' digests. -/
def execCascadeStatusSend (t : Nat) (s : State) : Host.Outcome State Fault Refusal :=
  act (fun d =>
    let d := advance t d
    if joinedWorker d && helmRuns d then
      cascadeSend (upstreamPort d).toList 0x49 0 0xFF (be 1 d.pair.role ++ be 1 (b2n d.cascade.push) ++ genDigest d 0 ++ genDigest d 1) d
    else d) s

/-- A member is in step again: what waited for it completes (R397, R404). -/
def inStep (key : Nat) (d : Dev) : Dev :=
  let tickets := (d.cascade.resyncs.filter fun r => r.1 == key).map (·.2)
  let d := setCascade { d.cascade with resyncs := d.cascade.resyncs.filter fun r => r.1 != key } d
  let d := modMember (key / 256) (key % 256) (fun m => { m with outOfStep := false }) d
  tickets.foldl (fun d n => if n = 0 then d else completeTicket n stOk [] d) d

/-- CASCADE_STATUS_RECEIVE (R391, R397, R401): its digests are compared where a comparison is due, and the table set is pushed where they
differ, of a worker Pair to the sending unit, which its partner follows (R304). -/
def execCascadeStatusReceive (t port : Nat) (msg : CMsg) (s : State) : Host.Outcome State Fault Refusal :=
  act (fun d =>
    takeMsg port msg (relayMsg msg) (fun d =>
      let b := msg.body
      let key := msg.src * 256 + msg.srcUnit
      match memberAt d msg.src msg.srcUnit with
      | none => d
      | some m =>
        if !managing d then d
        else
          let x := { m with role := if m.paired then beAt b 0 1 else 0 }
          let d := modMember msg.src msg.srcUnit (fun m => { m with statusAt := d.clock, role := x.role, push := beAt b 1 1 != 0,
                                                                    sentAt := if x.sends then some d.clock else m.sentAt }) d
          let due := d.cascade.resyncs.any fun r => r.1 == key
          let same := slice b 2 32 == genDigest d 0 && slice b 34 32 == genDigest d 1
          if same && (due || m.outOfStep) then inStep key d
          else if due && x.sends && beAt b 1 1 != 0 && !(d.cascade.unacked.any fun u => u.subtype == 0x46 && u.member == key) then pushTables m d
          else d) (advance t d)) s

-- The manager as Witness (R401, R303) -------------------------------------------------------------------------------------------------------

/-- The unit of a worker Pair that last showed itself as sending. -/
def sendingOf (d : Dev) (num : Nat) : Option Member :=
  (d.cascade.members.filter fun m => m.num == num && m.sentAt.isSome).foldl
    (fun (a : Option Member) m => match a with | none => some m | some x => if x.sentAt.getD 0 < m.sentAt.getD 0 then some m else some x) none

/-- The unit granted: the one granted so far, until it has sent nothing for 8 µs and the other was the last to show itself as sending; the first
granted is the one that last showed itself so, and where none has, the joined unit of the lower number (R401; DESIGN CHOICE, log 117). -/
def grantOf (d : Dev) (num : Nat) : Option Nat :=
  let shown := ((sendingOf d num).map (·.unit)).or ((List.range 2).find? fun u => (memberAt d num u).isSome)
  match tget none d.cascade.grants num with
  | none => shown
  | some (g, _) =>
    match memberAt d num g, sendingOf d num with
    | some m, some x => if x.unit != g && d.clock - m.heardAt ≥ 128000 then some x.unit else some g
    | some _, none => some g
    | none, _ => shown

/-- What the manager has heard of the worker Pairs' units besides the messages that have rows of their own: a BEAT_ECHO, or a MIRROR
acknowledgement, by which a unit shows itself as sending (R392, R401, log 16). -/
def hearUnits (heard : List (Nat × Nat × Bool)) (d : Dev) : Dev :=
  heard.foldl (fun d e =>
    modMember e.1 e.2.1 (fun m => { m with heardAt := d.clock, sentAt := if e.2.2 then some d.clock else m.sentAt }) d) d

/-- VERDICT_SEND (R401): every 1 µs to each unit of every worker Pair; one unit of a Pair is granted, by what has been heard of the units until
now. -/
def execVerdictSend (v : Heard) (s : State) : Host.Outcome State Fault Refusal :=
  act (fun d =>
    let d := advance v.t d
    if !manages d || !d.cascade.witness then d
    else
      let d := hearUnits v.units d
      let nums := ((d.cascade.members.filter fun m => m.paired).map (·.num)).eraseDups
      nums.foldl (fun d n =>
        match grantOf d n with
        | none => d
        | some g =>
          let d := setCascade { d.cascade with grants := tput none n (some (g, d.clock)) d.cascade.grants } d
          (d.cascade.members.filter fun m => m.num == n).foldl (fun d m => cascadeSend [m.port] 0x48 n m.unit (be 1 (b2n (m.unit == g))) d) d) d) s

/-- VERDICT_RECEIVE (R303). -/
def execVerdictReceive (t port : Nat) (msg : CMsg) (s : State) : Host.Outcome State Fault Refusal :=
  act (fun d =>
    takeMsg port msg (relayMsg msg) (fun d =>
      if joinedWorker d then { d with pair := { d.pair with managerVerdict := some (beAt msg.body 0 1 != 0, d.clock) } } else d) (advance t d)) s

-- The seal chain (R398, R399) ----------------------------------------------------------------------------------------------------------------

/-- SEAL_NOTE_RECEIVE (R399): taken from a member once, and acknowledged. -/
def execSealNoteReceive (t port : Nat) (msg : CMsg) (s : State) : Host.Outcome State Fault Refusal :=
  act (fun d =>
    takeMsg port msg (relayMsg msg) (fun d =>
      match memberAt d msg.src msg.srcUnit with
      | none => d
      | some m =>
        if !manages d then d
        else
          let d := if m.notesSeen.contains msg.seq then d
            else takeNote (padTo 48 msg.body) (modMember msg.src msg.srcUnit (fun m => { m with notesSeen := msg.seq :: m.notesSeen.take 4095 }) d)
          cascadeAck [port] 0x4A msg.seq msg.src msg.srcUnit d) (advance t d)) s

/-- SEAL_NOTE_RETRANSMIT (R389). -/
def execSealNoteRetransmit (t : Nat) (s : State) : Host.Outcome State Fault Refusal :=
  act (fun d =>
    let d := advance t d
    if !joinedWorker d then d
    else resendAll 0x4A (fun u d => (upstreamPort d).toList.foldl (fun d p => relayMsg { cascadeMsg d 0x4A 0 0xFF u.body with seq := u.seq } p d) d) d) s

/-- Bit m set when member m is joined (R399, R405). -/
def joinedBits (d : Dev) (which : Member → Bool) : Nat :=
  ((d.cascade.members.filter which).map (·.num)).eraseDups.foldl (fun a n => a + 2 ^ (n % 64)) 0

/-- CASCADE_LINK_CLOSE (R399): a link over the notes since the last one, signed; its bytes 0 to 111 are the signature's and the hash's.
It waits for its ring; of 65,536 waiting the oldest is lost (R428). -/
def execCascadeLinkClose (t : Nat) (s : State) : Host.Outcome State Fault Refusal :=
  act (fun d =>
    let d := advance t d
    if !manages d then d
    else
      let c := d.cascade
      let genesis := c.nextLink == 0
      let prev := if genesis then List.replicate 32 0 else c.lastLink
      let head := le 4 0x594C4331 ++ le 2 1 ++ le 2 (b2n genesis) ++ le 8 c.nextLink ++ le 4 c.linkNotes.length
        ++ le 4 (Config.bootCount.toNat + d.helm.boots) ++ stampBytes (coreStamp d false) ++ le 4 c.cascadeId ++ le 8 (joinedBits d fun _ => true)
        ++ prev ++ sha256 (prev ++ c.linkNotes.flatten)
      let link := head ++ signed32 head ++ le 16 0
      let d := setCascade { c with nextLink := c.nextLink + 1, lastLink := sha256 head, linkNotes := [] } d
      if c.linkRing.isNone then d
      else if d.dma.links.length < 65536 then { d with dma := { d.dma with links := d.dma.links ++ [(c.nextLink, link)] } }
      else count 0x805 0 { d with dma := { d.dma with links := d.dma.links.drop 1 ++ [(c.nextLink, link)] } }) s

-- Commands (R402 to R405) ----------------------------------------------------------------------------------------------------------------------

/-- What a device leaves behind with its role or its Cascade: the membership, the beats and routes it took, and what waits for an
acknowledgement there (R391, R402). -/
def leaveCascade (x : Cascade) : Cascade :=
  { x with own := none, answered := none, contactAt := none, unacked := [], routes := [], links := [], joinParts := [], pushWait := [], pushPart := [] }

/-- CASCADE_CONFIGURE (R402). -/
def execCascadeConfigure (c : Cmd) (s : State) : Host.Outcome State Fault Refusal :=
  cmd 0x1001 48 4 c (fun q fn d =>
    let x := d.cascade
    let moves := u8 q 4 != x.role || u32 q 0 != x.cascadeId
    if u32 q 0 = 0 || u8 q 4 > 2 || u8 q 5 > 7 || !within (u8 q 6) 1 7 || u8 q 7 != 0 || !zerosAt q 12 4 || !nameable d fn (u16 q 8) x.noteRing
        || !nameable d fn (u16 q 10) x.linkRing || (u16 q 8 == u16 q 10 && u16 q 8 != 0xFFFF) then rej stRange d
    else if moves && (!x.members.isEmpty || joinedWorker d) then rej stConflict d
    else
      let y := if moves then leaveCascade d.cascade else d.cascade
      okay (setCascade { y with cascadeId := u32 q 0, role := u8 q 4, push := bitOf (u8 q 5) 0, open_ := bitOf (u8 q 5) 1,
                                        witness := bitOf (u8 q 5) 2, maxHops := u8 q 6, noteRing := ringName (u16 q 8), linkRing := ringName (u16 q 10),
                                        rootHash := slice q 16 32, expelled := [] } d)) s

/-- CASCADE_ALLOW (R403): joined workers that the new list excludes are expelled. -/
def execCascadeAllow (c : Cmd) (s : State) : Host.Outcome State Fault Refusal :=
  cmd 0x1002 4 4 c (fun q _ d =>
    let n := u8 q 0
    let es := (List.range n).map fun k => (slice q (4 + 20 * k) 16, u8 q (20 + 20 * k))
    let bound := (es.map (·.2)).filter (· != 0)
    if n > 63 || !zerosAt q 1 3 || q.length < 4 + 20 * n || es.any (fun e => decide (e.2 > 63)) || bound.eraseDups.length != bound.length
        || (List.range n).any (fun k => !zerosAt q (21 + 20 * k) 3) then rej stRange d
    else
      let d := setCascade { d.cascade with allow := es, expelled := [] } d
      okay (if d.cascade.open_ then d else expel (fun m => !(es.any fun e => e.1 == m.serial)) d)) s

/-- CASCADE_EXPEL (R404). -/
def execCascadeExpel (c : Cmd) (s : State) : Host.Outcome State Fault Refusal :=
  cmd 0x1004 4 4 c (fun q _ d =>
    if !zerosAt q 1 3 || !(d.cascade.members.any fun m => m.num == u8 q 0) then rej stRange d
    else okay (expel (fun m => m.num == u8 q 0) d)) s

/-- CASCADE_RESYNC (R397, R404): the comparison is made with the member's next STATUS. -/
def execCascadeResync (c : Cmd) (s : State) : Host.Outcome State Fault Refusal :=
  cmd 0x1005 4 8 c (fun q fn d =>
    let ms := d.cascade.members.filter fun m => m.num == u8 q 0
    match (ms.filter Member.sends).head?.or ms.head? with
    | none => rej stRange d
    | some m =>
      if !zerosAt q 1 3 then rej stRange d
      else pend fn d (fun n d => setCascade { d.cascade with resyncs := d.cascade.resyncs ++ [(m.num * 256 + m.unit, n)] } d)) s

/-- CASCADE_STATUS (R405). -/
def execCascadeStatus (c : Cmd) (s : State) : Host.Outcome State Fault Refusal :=
  cmd 0x1003 4 40 c (fun q _ d =>
    let x := d.cascade
    if !zerosAt q 0 4 then rej stRange d
    else
      { dev := d, status := stOk,
        body := le 1 x.role ++ le 1 (if x.role = 0 then 0xFF else ownMember d) ++ le 1 (((beatsInUse d).bind (·.hops)).getD 0xFF) ++ le 3 0 ++ le 8 (joinedBits d fun _ => true)
          ++ le 8 (joinedBits d fun m => m.outOfStep) ++ le 8 x.nextLink ++ le 8 x.swapLate }) s

end Sys2Proof.Machine
end

