-- ==== Sys2Proof/Machine/Cistern.lean ====
section
/-!
DEFINITION. The Cistern (13_cistern.md): its layout, channels, refresh, training and patrol scrub.
-/

namespace Sys2Proof.Machine

/-- CISTERN_REGIONS (R333, R348). -/
def execCisternRegions (c : Cmd) (s : State) : Host.Outcome State Fault Refusal :=
  cmd 0x0D01 16 4 c (fun q _ d =>
    let l := (u32 q 0, u32 q 4, u32 q 8)
    let sum := l.1 + l.2.1 + l.2.2
    if l.1 % 64 != 0 || l.2.1 % 64 != 0 || l.2.2 % 64 != 0 || l.1 < 1024 || l.2.1 < 128 || !zerosAt q 12 4 || sum > usableBytes / mib || archiveMib l < 1024 then
      rej stRange d
    else okay { d with cistern := { d.cistern with nextLayout := l } }) s

/-- CISTERN_STATUS (R349). -/
def execCisternStatus (c : Cmd) (s : State) : Host.Outcome State Fault Refusal :=
  cmd 0x0D02 4 172 c (fun q _ d =>
    let l := d.cistern.layout
    let up := (List.range 16).foldl (fun a c => a + if (chanOf d c).inService then 2 ^ c else 0) 0
    let one := fun c => let x := chanOf d c; le 1 x.band ++ le 1 x.owed ++ le 2 x.forced ++ le 2 x.corrected ++ le 2 x.uncorrectable
    if !zerosAt q 0 4 then rej stRange d
    else
      { dev := d, status := stOk,
        body := le 2 up ++ le 4 l.1 ++ le 4 l.2.1 ++ le 4 l.2.2 ++ le 4 (archiveMib l) ++ le 4 (keptSegments d) ++ (List.range 16).flatMap one
          ++ le 8 d.cistern.scrubPass ++ stampBytes d.cistern.scrubSince }) s

/-- CISTERN_FENCE (R337, R350): the operation keeps the instant up to which writes count as accepted before it. -/
def execCisternFence (c : Cmd) (s : State) : Host.Outcome State Fault Refusal :=
  cmd 0x0D03 4 8 c (fun q fn d => if u8 q 0 > 63 || !zerosAt q 1 3 then rej stRange d else pendOp fn 0x12 q (le 8 d.clock) 0 d) s

/-- CISTERN_RETRAIN (R345, R351, R473). -/
def execCisternRetrain (c : Cmd) (s : State) : Host.Outcome State Fault Refusal :=
  cmd 0x0D04 1 8 c (fun q fn d =>
    if u8 q 0 > 15 then rej stRange d
    else if (unitOf d 72).step != 0 || d.pair.mode = 0 && d.guard.streams.any (fun (_, x) => !x.slots.isEmpty) then rej stConflict d
    else pendOp fn 0x0B q [] (u8 q 0 + 1) { d with cistern := { d.cistern with retrained := true } }) s

/-- A write of the retention writer (rank 1) or of the ledger writer (rank 2) that was accepted by an instant has not completed. The model
completes the writes of every other master at once (log 88). -/
def writesOpen (d : Dev) (masters upTo : Nat) : Bool :=
  (bitOf masters 0 && d.guard.retains.any fun r => retainOpen r && match r.frame.confirmed with | some a => decide (a ≤ upTo) | none => false)
    || (bitOf masters 1 && d.ledger.queue.any fun r => decide (r.at_ ≤ upTo))

/-- FENCE_HOLDS (R337, R350): the fence's ticket completes once every write accepted before it from its masters has completed. -/
def execFenceHolds (t op : Nat) (s : State) : Host.Outcome State Fault Refusal :=
  act (fun d =>
    let d := advance t d
    match opOf d op with
    | some o => if o.code = 0x12 && o.state != 0 && !writesOpen d (u8 o.req 0) (u64 o.host 0) then endOp o stOk [] d else d
    | none => d) s

-- Training (R343 to R345) -------------------------------------------------------------------------------------------------------

/-- After a warm reset part of the retained control area is gone, with a lost channel's chunks or with a word that cannot be read:
safe state, and no replay (R332, R344). -/
def lostControl (channel : Nat) (d : Dev) : Dev :=
  let d := { d with steward := { d.steward with ops := d.steward.ops.filter fun o => o.code != 0x0D } }
  enterSafe 1 { d with guard := { d.guard with starters := (d.guard.starters ++ [0x900 + channel]).eraseDups } }

/-- The channel of the first word of the control area that cannot be read (R332). -/
def badControl (d : Dev) : Option Nat := (d.cistern.badWords.find? fun w => decide (w < 2 * mib)).map fun w => channelOf (8 * w)

/-- The training of a bring-up, or the verification of a warm reset, ends with its last channel (R343, R344, R371). -/
def endBringup (d : Dev) : Dev :=
  match d.steward.ops.find? fun o => o.code == 0x0B && o.key == 0 with
  | some o => endOp o stOk [] d
  | none => d

/-- TRAINING_DONE (R343 to R345): a channel's training, verification or retraining ends. A good training leaves new values, free here, in
the registers that survive a warm reset; a verification that fails is followed by a retraining; with a channel that stays out of service the
rings lose its chunks. The rehash waits for every verification after a warm reset. A channel that nothing trains has none to end. -/
def execTrainingDone (t channel : Nat) (ok : Bool) (s : State) : Host.Outcome State Fault Refusal :=
  act (fun d =>
    let d := advance t d
    let x := chanOf d channel
    if channel ≥ 16 || !x.trains then d
    else if x.verifying && !x.retried && !ok then setChan channel { x with retried := true } d
    else
      let (trained, d) := if ok && !(x.verifying && !x.retried) then takeFree d else (x.trained, d)
      let d := setChan channel { x with inService := ok, training := false, failed := !ok, trained, verifying := false, retried := false }
        { d with cistern := { d.cistern with selfRefresh := (unitOf d 72).step == 4 } }
      let d := if ok then endCondition (0x900 + channel) 0x1F d else loseCover (report (0x900 + channel) 0x1F 0 d)
      let d := if x.verifying && !ok then lostControl channel d else d
      let d := match d.steward.ops.find? fun o => o.code == 0x0B && o.state != 0 && o.key == channel + 1 with
        | some o => endOp o (if ok then stOk else stFault) [] d
        | none => d
      if (List.range 16).all fun c => (chanOf d c).inService || (chanOf d c).failed then endBringup d else d) s

-- Refresh (R338 to R340) -----------------------------------------------------------------------------------------------------------

/-- The postponement limit of a band (R338, R339). -/
def refreshLimit (band : Nat) : Nat := match band with | 0 => 8 | 1 => 4 | _ => 2

/-- tREFI of a band, in ticks (R338, R339). -/
def refreshInterval (band : Nat) : Nat := 16 * match band with | 0 => 3906 | 1 => 1953 | _ => 977

/-- Slots of the forced batch that an owed count above the limit makes (R340). -/
def batchSlots (x : Channel) : Nat := x.owed - refreshLimit x.band

/-- A count above the limit makes a forced batch, down to the limit (R340). -/
def forceBatch (x : Channel) : Channel :=
  if batchSlots x = 0 then x else { x with owed := refreshLimit x.band, forced := min 0xFFFF (x.forced + 1) }

/-- How long a forced batch takes, in ticks: 60 ns to the first REFab, and 280 ns for each of a slot's two (R341). -/
def batchTicks (slots : Nat) : Nat := if slots = 0 then 0 else 16 * (60 + 560 * slots)

/-- REFRESH_INTERVAL (R338, R340): `slots` have completed since the last row, and an interval boundary is counted where tREFI of the band
in force has passed since the one before. -/
def execRefreshInterval (t channel slots : Nat) (s : State) : Host.Outcome State Fault Refusal :=
  act (fun d =>
    let d := advance t d
    let x := chanOf d channel
    let next := x.intervalAt + refreshInterval x.band
    if channel ≥ 16 || !x.inService || d.cistern.selfRefresh then d
    else if d.clock < next then setChan channel { x with owed := x.owed - slots } d
    else setChan channel (forceBatch { x with owed := x.owed - slots + 1, intervalAt := next }) d) s

/-- MR4_READ (R339, R340): the rates of a channel's two ranks, 0 1×, 1 2×, above it over temperature, every 16 µs; the channel follows the
higher one, a band at a time. On a change of band the interval timer restarts as the forced batch ends. -/
def execMr4Read (t channel : Nat) (rates : Nat × Nat) (s : State) : Host.Outcome State Fault Refusal :=
  act (fun d =>
    let d := advance t d
    let x := chanOf d channel
    let rate := max rates.1 rates.2
    let early := match x.mr4At with | some a => decide (d.clock < a + 256000) | none => false
    if channel ≥ 16 || !x.inService || d.cistern.selfRefresh || early then d
    else
      let band := if x.band < min rate 2 then x.band + 1 else if min rate 2 < x.band then x.band - 1 else x.band
      let y := { x with band, mr4 := rates, mr4At := some d.clock }
      let d := setChan channel (forceBatch { y with intervalAt := if band = x.band then x.intervalAt else d.clock + batchTicks (batchSlots y) }) d
      if rate ≥ 2 then report (0x900 + channel) 0x20 0 d else endCondition (0x900 + channel) 0x20 d) s

/-- OSCILLATOR_READ (R345): the interval oscillators as read, by which drift is followed. -/
def execOscillatorRead (t channel dqi dqo : Nat) (s : State) : Host.Outcome State Fault Refusal :=
  act (fun d =>
    let d := advance t d
    if channel ≥ 16 || !(chanOf d channel).inService then d
    else setChan channel { chanOf d channel with oscillators := (dqi, dqo) } d) s

-- The patrol scrub (R331, R346, R371) ---------------------------------------------------------------------------------------------------

/-- Storage groups of the usable space, in the order in which the scrub reads them: by usable address (R328, R346). -/
def storageGroups : Nat := usableBytes / 128

/-- A usable 8-byte word that the scrub found uncorrectable (R331, R346): a Retained copy that holds it covers its frame no longer
(R48, R61), a ledger record that holds it goes out as a STORE gap record (R283), and a READY Helm reloads the firmware and archive
region from flash (R332, log 116). -/
def wordLost (w : Nat) (d : Dev) : Dev :=
  let d := wordBad w { d with pair := { d.pair with scrubUncorr := d.pair.scrubUncorr + 1, bad := true } }
  if d.helm.state == 1 && inArchive d (8 * w) then { d with cistern := { d.cistern with flips := tput 0 w 0 d.cistern.flips } } else loseCover d

/-- The scrub's read of a word with flipped bits: one that it corrects is to be written back (R346). -/
def scrubWord (w : Nat) (d : Dev) : Dev :=
  if (d.cistern.wordRead w).isNone then wordLost w d
  else if 2 < onesIn (tget 0 d.cistern.flips w) then d
  else
    let d := wordCorrected w { d with pair := { d.pair with scrubCorr := d.pair.scrubCorr + 1 } }
    { d with cistern := { d.cistern with scrubBack := d.cistern.scrubBack ++ [w] } }

/-- The words that the scrub corrected last and that no master has written near since are written back (R346). -/
def writeBack (d : Dev) : Dev :=
  { d with cistern := { d.cistern with flips := d.cistern.flips.filter fun (w, _) => !d.cistern.scrubBack.contains w, scrubBack := [] } }

/-- The patrol scrub reads on by some storage groups; a pass ends with the last of the usable space, and each begins where the one before
ends, the first with its first groups (R346, R349). -/
def scrubGroups (groups : Nat) (d : Dev) : Dev :=
  let d := writeBack d
  let first := d.cistern.scrubAt
  let d := (d.cistern.flips.filter fun (w, _) => decide (16 * first ≤ w) && decide (w < 16 * (first + groups))).foldl (fun d e => scrubWord e.1 d) d
  let c := d.cistern
  let c := if c.scrubPass = 0 && first = 0 then { c with scrubSince := helmStamp d } else c
  { d with cistern := if storageGroups ≤ first + groups then { c with scrubAt := 0, scrubPass := c.scrubPass + 1, scrubSince := helmStamp d }
                      else { c with scrubAt := first + groups } }

/-- Bits flip in stored words (R26, R347): words of the usable space, and the bits of each. -/
def flipBits (flips : List (Nat × Nat)) (d : Dev) : Dev :=
  { d with cistern := { d.cistern with flips := flips.foldl (fun x e =>
      if e.1 < usableBytes / 8 then tput 0 e.1 (tget 0 x e.1 ^^^ (e.2 % 2 ^ 80)) x else x) d.cistern.flips } }

/-- Flips of a word's data bits, and of its check bits, as flips of the stored word (R328). -/
def storedFlips (data check : List (Nat × Nat)) : List (Nat × Nat) :=
  (data.map fun e => (e.1, e.2 % 2 ^ 64)) ++ check.map fun e => (e.1, e.2 % 2 ^ 16 * 2 ^ 64)

/-- PATROL_SCRUB_TIMER (R346, R371): the scrub's next storage groups are due, and `data` and `check` are the bits that have flipped in the DRAM
by now. `toEnd`: they are read in this step (log 9); otherwise, and behind a training, the scrub is an operation of the Steward (R383). In
self-refresh nothing is scrubbed. -/
def execPatrolScrubTimer (t groups : Nat) (data check : List (Nat × Nat)) (toEnd : Bool) (s : State) : Host.Outcome State Fault Refusal :=
  act (fun d =>
    let d := flipBits (storedFlips data check) (advance t d)
    if d.cistern.selfRefresh then d
    else if !toEnd || d.steward.ops.any fun o => o.code == 0x0B then addHwOp 0x0C (le 4 groups) 0 d
    else scrubGroups groups d) s

end Sys2Proof.Machine
end

