-- ==== Sys2Proof/Machine/Learn.lean ====
section
/-!
DEFINITION. Learning (07_actions_learning.md, R183 to R196): requests, their release, station moves and pins, aging and flushing.
-/

namespace Sys2Proof.Machine

def basinIsland (b : Nat) : Nat := 0x40 + b
def basinTicks (d : Dev) (b : Nat) : Nat := islandTicks d (basinIsland b)

/-- A learned table's entries in some Basin. -/
def learnedUsed (d : Dev) (t : Nat) : Bool := d.tables.basins.any fun (_, b) => !(emsOf (tableDef d t) (tget [] b.em t)).isEmpty

/-- A TEMPLATE that R189 rejects in a generation. -/
def templateBad (x : Gen) (n : Nat) : Bool :=
  let a := actionOf x n
  (aStream a).isSome || (aConf a).isSome || (aLevel a).isSome

/-- LEARN_CONFIGURE (R184, R189, R194). -/
def execLearnConfigure (c : Cmd) (s : State) : Host.Outcome State Fault Refusal :=
  cmd 0x0704 32 8 c (fun q _ d =>
    let t := u8 q 0
    let x := learnOf d t
    let reach := orDefault (u32 q 28) 2000
    let y : LearnCfg := { x with moveLimit := orDefault (u8 q 1) 4, vidSrc := u16 q 2, segments := slice q 4 8, template := u32 q 12, floodBase := u16 q 16,
                                 holdDown := orDefault (u16 q 18) 30, ageTime := orDefault (u32 q 20) 300, moveWindow := orDefault (u32 q 24) 1000 }
    let answer := fun st (d : Dev) => ({ dev := d, status := st, body := le 2 0 ++ le 4 d.tables.reach } : Reply)
    if t > 15 || (tableDef d t).kind != 2 || (y.vidSrc != 0xFFFF && y.vidSrc > 94) || !segmentsOk y.segments
        || segmentsLen y.segments != (tableDef d t).keyBytes || y.template > 65535 || templateBad d.tables.genA y.template || templateBad d.tables.genB y.template
        || y.floodBase + 4095 > 32767 || !within y.holdDown 1 3600 || !within y.ageTime 8 1000000 || !within y.moveWindow 1 60000
        || !within reach 500 20000 || reach < minReach d then answer stRange d
    else if y.segments != x.segments && learnedUsed d t then answer stConflict d
    else answer stOk { d with tables := { d.tables with reach, learn := tput none t (some y) d.tables.learn } }) s

/-- LEARN_FLUSH (R195). -/
def execLearnFlush (c : Cmd) (s : State) : Host.Outcome State Fault Refusal :=
  cmd 0x0705 4 8 c (fun q fn d =>
    if u8 q 0 > 15 || (tableDef d (u8 q 0)).kind != 2 || (u16 q 2 != 0xFFFF && portUnused d (u16 q 2)) then rej stRange d
    else pendOp fn 9 q [] (u8 q 0 + 1) d) s

-- Requests (R183 to R185) ------------------------------------------------------------------------------------------------------------

/-- Ticks for which a completed request stays in the filter: AGE_TIME / 8 (R183). -/
def filterTicks (x : LearnCfg) : Nat := x.ageTime * 2000000000

/-- The filter suppresses a request (R183). -/
def filtered (d : Dev) (b t : Nat) (key : List Byte) (port : Nat) : Bool :=
  (basinState d b).filter.any fun (t', k, p, at_) => t' == t && k == key && p == port && decide (d.clock < at_)

/-- A request that has been applied joins the filter for AGE_TIME / 8; the filter keeps one entry for a key (R183, R194, log 34). -/
def noteFilter (b t : Nat) (key : List Byte) (port ticks : Nat) (d : Dev) : Dev :=
  let x := basinState d b
  setBasin b { x with filter := ((t, key, port, d.clock + ticks) :: x.filter.filter fun (t', k, _, _) => !(t' == t && k == key)).take 64 } d

/-- Requests in the order of release: lower stamp, then lower Port, then arrival (R184). -/
def insertRequest (r : LearnReq) : List LearnReq → List LearnReq
  | [] => [r]
  | x :: xs => if r.ticks < x.ticks || (r.ticks == x.ticks && decide (r.port < x.port)) then r :: x :: xs else x :: insertRequest r xs

/-- A committed frame's learn request (R183, R184); a red frame, which enters no queue, makes none (R235; DESIGN CHOICE, log 34). -/
def makeRequest (i : Nat) (d : Dev) : Dev :=
  let f := frameOf d i
  let b := basinOf f.port
  match aLearn f.action with
  | none => d
  | some t =>
    let key := keyFrom (learnOf d t).segments (tableDef d t).keyBytes f.fv
    let x := basinState d b
    if f.stream.isSome || f.injected.isSome || f.colour == 2 || (tableDef d t).kind != 2 || filtered d b t key f.port then d
    else if x.queue.length ≥ 1024 then count 0x348 b d
    else
      modFrame i (fun f => { f with learning := true })
        (setBasin b { x with queue := insertRequest { table := t, key, ticks := f.stamp.ticks, port := f.port, frame := i } x.queue } d)

/-- LEARN_RELEASE (R184, R185): the Basin's first request whose stamp plus REACH has come goes to the Steward; it stays in the queue
while the Steward has no place for it. -/
def execLearnRelease (t basin : Nat) (s : State) : Host.Outcome State Fault Refusal :=
  act (fun d =>
    let d := advance t d
    let x := basinState d basin
    match x.queue.findIdx? (fun r => !r.released) with
    | none => d
    | some k =>
      match x.queue[k]? with
      | none => d
      | some r =>
        if basinTicks d basin < r.ticks + 16 * d.tables.reach || opVerdict d 8 (r.table + 1) != stOk then d
        else addOp 8 0 0 (le 1 basin) [] (r.table + 1) (setBasin basin { x with queue := x.queue.set k { r with released := true, cfg := learnOf d r.table } } d)) s

/-- A request is settled: its frame's cells are no longer held for it. -/
def settle (i : Nat) (d : Dev) : Dev := reap i (modFrame i (fun f => { f with learning := false }) d)

/-- LEARN_ABANDON (R188): requests still open REACH + 4 µs after their stamp. -/
def execLearnAbandon (t basin : Nat) (s : State) : Host.Outcome State Fault Refusal :=
  act (fun d =>
    let d := advance t d
    let x := basinState d basin
    let late := fun (r : LearnReq) => decide (r.ticks + 16 * d.tables.reach + 64000 ≤ basinTicks d basin)
    let gone := x.queue.filter late
    gone.foldl (fun d r => settle r.frame (count 0x347 basin d)) (setBasin basin { x with queue := x.queue.filter fun r => !late r } d)) s

-- Moves (R185, R186) ---------------------------------------------------------------------------------------------------------------------

/-- The tracker's evicted key: the unpinned one with the oldest window. -/
def evict (ts : List Track) : Option (List Track) :=
  match ts.foldl (fun (a : Option Track) k => if k.pinnedAt.isSome then a else match a with
      | some m => if k.opened < m.opened then some k else some m
      | none => some k) none with
  | some k => some (ts.erase k)
  | none => none

/-- What a move does to its key's track: the tracker, and whether the key is pinned; none for a move that goes untracked (R186). -/
def trackMove (x : LearnCfg) (clock : Nat) (ts : List Track) (r : LearnReq) : Option (List Track × Bool) :=
  let mine := fun (k : Track) => k.table == r.table && k.key == r.key
  match ts.find? mine with
  | some k =>
    let fresh := decide (r.ticks - k.opened > x.moveWindow * 16000000)
    let k' : Track := if fresh then { k with moves := 1, opened := r.ticks } else { k with moves := k.moves + 1 }
    let pin := decide (k'.moves > x.moveLimit)
    let k' := if pin then { k' with pinnedAt := some clock, holdDown := x.holdDown } else k'
    some (ts.map fun y => if mine y then k' else y, pin)
  | none =>
    let one : Track := { table := r.table, key := r.key, moves := 1, opened := r.ticks }
    if ts.length < 4096 then some (ts ++ [one], false) else (evict ts).map fun ts => (ts ++ [one], false)

/-- The DETAIL of a hold-down event (R196). -/
def holdDetail (port basin table : Nat) : Nat := port + 512 * basin + 4096 * table

/-- The copies of a learn-failure flood (R188). -/
def learnFlood (r : LearnReq) (d : Dev) : Dev :=
  let f := frameOf d r.frame
  let x := r.cfg
  let vid := if x.vidSrc = 0xFFFF then 0 else beAt f.fv x.vidSrc 2 % 4096
  let got := f.copies.map fun c => (copyOf d c).port
  let ts := ((mcastList d (x.floodBase + vid)).map entryTarget).filter fun t => t.port != f.port && !got.contains t.port && !portUnused d t.port
  let rw := rewriteIn d (basinOf f.port) f.gen (aRewrite f.action)
  ts.foldl (fun d t =>
    let f := frameOf d r.frame
    let (q, beyond) := localQueue d t.port t.queue
    let out := rewriteFrame f.action rw f.fv t.vid (passBytes f)
    let d := if beyond then count 0x20B t.port d else d
    let mode := if aTrailer f.action = 1 then 0 else aTrailer f.action
    let c : Copy := { frame := r.frame, port := t.port, queue := q, out, kind := 3, state := 1, verdict := true, rewrite := aRewrite f.action, trailerMode := mode }
    if (portOf d t.port).state != 4 then count 0x209 t.port d
    else if (portOf d t.port).mtu < out.length + 4 then count 0x10C f.port d
    else
      match admitPart d f q (f.colour == 1) with
      | some part => countIn 0x400 q (out.length + 4) (newCopy r.frame { c with part } d).2
      | none => let d := count 0x402 q d; setQueue q { queueOf d q with drops := (queueOf d q).drops + 1 } d) d

/-- A hit on another Port moves the station, unless the entry is pinned (R185, R186). -/
def applyMove (b : Nat) (r : LearnReq) (p : Nat) (e : Em) (d : Dev) : Dev :=
  let t := r.table
  if e.pinned then count 0x343 b d
  else
    let es := learnedOf d b t
    let d := setLearned b t (tput none p (some { e with result := r.port, age := 0 }) es) (count 0x342 b d)
    let x := basinState d b
    let d := match trackMove r.cfg d.clock x.tracker r with
      | none => count 0x345 b d
      | some (ts, pin) =>
        let d := setBasin b { x with tracker := ts } d
        if pin then
          let es := learnedOf d b t
          raise 0x0701 0xFFFF (holdDetail r.port b t) (r.key.take 32)
            (count 0x344 b (setLearned b t (tput none p (some { e with result := r.port, age := 0, pinned := true }) es) d))
        else d
    noteFilter b t r.key r.port (filterTicks r.cfg) d

/-- A released request is applied (R185, R188). -/
def applyRequest (b : Nat) (r : LearnReq) (d : Dev) : Dev :=
  let t := r.table
  let x := tableDef d t
  let es := learnedOf d b t
  match emFind d b 0 t r.key with
  | some (p, e) =>
    if e.result = r.port then
      noteFilter b t r.key r.port (filterTicks r.cfg) (setLearned b t (tput none p (some { e with age := 0 }) es) (count 0x341 b d))
    else applyMove b r p e d
  | none =>
    match emInsert x es { key := r.key, genA := true, genB := true, result := r.port } with
    | some (es, _, _) => noteFilter b t r.key r.port (filterTicks r.cfg) (setLearned b t es (count 0x340 b d))
    | none => learnFlood r (count 0x346 b d)

/-- LEARN_APPLY: the first released request of a table in a Basin (R371). -/
def learnApply (b t : Nat) (d : Dev) : Dev :=
  let x := basinState d b
  match x.queue.find? fun r => r.released && r.table == t with
  | none => d
  | some r => settle r.frame (applyRequest b r (setBasin b { x with queue := x.queue.erase r } d))

-- Aging, flushing and pins (R186, R187, R195) ------------------------------------------------------------------------------------------------

/-- A sweep of one entry: an unpinned entry ages, and is deleted at AGE 8. -/
def ageEntry (e : Em) : Option Em := if e.pinned then some e else if e.age + 1 ≥ 8 then none else some { e with age := e.age + 1 }

/-- The number of a Basin's slot in a pass over all Basins' copies of a table. -/
def slotNumber (b p : Nat) : Nat := b * 2 ^ 24 + p

/-- The pass of a sweep, or of a flush: what it does with an entry, none where the entry is not its business (R187, R195). -/
def sweepOf (flush : Option Nat) (e : Em) : Option (Option Em) :=
  match flush with
  | none => some (ageEntry e)
  | some port => if port == 0xFFFF || e.result == port then some none else none

/-- The next entry of a pass, from a slot number on: its Basin, its place and the entry. -/
def nextSwept (d : Dev) (flush : Option Nat) (t basins first : Nat) : Option (Nat × Nat × Em) :=
  (List.range 8).findSome? fun b =>
    if !bitOf basins b then none
    else (learnedOf d b t).findSome? fun (p, e) =>
      if first ≤ slotNumber b p then e.bind fun e => (sweepOf flush e).map fun _ => (b, p, e) else none

/-- One entry of a pass; a flushed entry's key leaves the move tracker. -/
def sweepOne (flush : Option Nat) (t b p : Nat) (e : Em) (d : Dev) : Dev :=
  match sweepOf flush e with
  | none => d
  | some y =>
    let d := setLearned b t (tput none p y (learnedOf d b t)) d
    if flush.isNone then d
    else
      let x := basinState d b
      setBasin b { x with tracker := x.tracker.filter fun k => !(k.table == t && k.key == e.key) } d

/-- What is left of a pass from a slot number on (R187, R195). -/
def sweepRest (flush : Option Nat) (t basins first : Nat) (d : Dev) : Dev :=
  ((List.range 8).filter (bitOf basins)).foldl (fun d b =>
    (learnedOf d b t).foldl (fun d r => match r.2 with
      | some e => if first ≤ slotNumber b r.1 then sweepOne flush t b r.1 e d else d
      | none => d) d) d

/-- AGE_SWEEP (R187): a table's sweep is asked of the Steward every AGE_TIME / 8. -/
def execAgeSweep (t table : Nat) (s : State) : Host.Outcome State Fault Refusal :=
  act (fun d =>
    let d := advance t d
    let x := learnOf d table
    if (tableDef d table).kind != 2 || d.clock < x.sweptAt + filterTicks x || opVerdict d 9 (table + 1) != stOk then d
    else
      addOp 9 0 0 [] [] (table + 1) { d with tables := { d.tables with learn := tput none table (some { x with sweptAt := d.clock }) d.tables.learn } }) s

/-- One Basin's pins that have lasted HOLD_DOWN end (R186). -/
def endPins (b : Nat) (d : Dev) : Dev :=
  let due := (basinState d b).tracker.filter fun k => match k.pinnedAt with
    | some a => decide (a + k.holdDown * 16000000000 ≤ d.clock)
    | none => false
  due.foldl (fun d k =>
    let x := basinState d b
    let d := setBasin b { x with tracker := x.tracker.map fun y => if y.table == k.table && y.key == k.key then { y with pinnedAt := none } else y } d
    match emFind d b 0 k.table k.key with
    | some (p, e) =>
      let es := learnedOf d b k.table
      raise 0x0702 0xFFFF (holdDetail e.result b k.table) (k.key.take 32) (setLearned b k.table (tput none p (some { e with pinned := false }) es) d)
    | none => d) d

/-- PIN_CHECK (R186): every 1 s; a Basin that sleeps is checked when it is awake again (R29). -/
def execPinCheck (t : Nat) (s : State) : Host.Outcome State Fault Refusal :=
  act (fun d => (List.range 8).foldl (fun d b => if islandAwake d (basinIsland b) then endPins b d else d) (advance t d)) s

end Sys2Proof.Machine
end

