-- ==== Sys2Proof/Machine/Weir.lean ====
section
/-!
DEFINITION. The Weir (02_guarded_delivery.md): the sequence, the acceptance outcome, the Hold and Retained copies and the receipt of
a committed guarded frame.
-/

namespace Sys2Proof.Machine

/-- Bytes of the Hold Pool (R46). -/
def holdPool : Nat := 8388608

/-- The guarded load buckets now: 100/16 byte and 1/40 frame each tick, up to 64 KiB and 1,024 frames (R41, log 12). -/
def loadNow (d : Dev) : Dev :=
  let g := d.guard
  let dt := d.clock - g.tokensAt
  { d with guard := { g with gbTokens := min (65536 * 16) (g.gbTokens + 100 * dt),
                             ppTokens := if g.ppPrimed then min 40960 (g.ppTokens + dt) else 40960, ppPrimed := true, tokensAt := d.clock } }

/-- A frame within the device guarded load is charged to it (R41). -/
def loadTakes (d : Dev) (bytes : Nat) : Bool := decide (16 * bytes ≤ d.guard.gbTokens) && decide (40 ≤ d.guard.ppTokens)

def chargeLoad (bytes : Nat) (d : Dev) : Dev :=
  { d with guard := { d.guard with gbTokens := d.guard.gbTokens - 16 * bytes, ppTokens := d.guard.ppTokens - 40 } }

/-- The slots that a guarded frame targets, as its Hold copy needs them (R46, R315). -/
def holdSlots (d : Dev) (f : Frame) : List HoldSlot :=
  let inConf := match aConf f.action with | some g => (confOf d g).enabled | none => false
  f.copies.filterMap fun i =>
    let c := copyOf d i
    match c.slot with
    | some k => some { slot := k, out := c.out, trailerMode := c.trailerMode, rewrite := c.rewrite, conf := inConf, level := c.level.map (·.1) }
    | none => none

/-- The oldest Retained copies go where the ring has wrapped onto them (R46, R332). -/
def wrapRetained (room : Nat) : List Retain → List Retain
  | [] => []
  | r :: t => if ((r :: t).foldl (fun a x => a + retainSize x.frame) 0) ≤ room then r :: t else wrapRetained room t

/-- The Hold copy of a frame is written, and its Retained copy has its place in the ring, to which the retention writer writes it in its
order (RETENTION_WRITE_DONE); a Hold copy whose slots have all been sent already is freed at once (R46). -/
def writeHold (i stream seq : Nat) (d : Dev) : Dev :=
  let f := { frameOf d i with held := true }
  let slots := holdSlots d f
  let d := askCistern (setFrame i f d)
  let g := d.guard
  let pos := g.retainUsed % max 1 (retentionRing d)
  freeHolds stream
    { d with guard := { g with holds := g.holds ++ [{ stream, seq, frame := f, slots }], holdUsed := g.holdUsed + holdSize f,
                               retains := wrapRetained (retentionRing d) (g.retains ++ [{ stream, seq, frame := f, slots, pos }]),
                               retainUsed := g.retainUsed + retainSize f } }

/-- A STALE unit writes Hold copies and sends receipts from a stream's cut on (R319 step 5). -/
def pastCut (d : Dev) (st : Stream) (seq : Nat) : Bool :=
  d.pair.mode == 1 && d.pair.role == 3 && match st.cut with | some c => !seqAfter c seq | none => false

/-- The outcome that a frame has at once, for a cause that does not rest on the Hold Pool or the load (R42, log 15): while acceptance is
suspended every frame ends SUSPENDED (R50, R57). -/
def causeAtOnce (d : Dev) (f : Frame) (st : Stream) : Option Nat :=
  if f.cond != 1 && f.cond != 2 then some 8
  else if f.port != st.ingress then some 6
  else if f.copies.any (fun c => (copyOf d c).kind == 0 && (copyOf d c).slot.isNone) then some 7
  else if st.diverged then some 9
  else none

/-- A SUSPENDED frame keeps its Hold and Retained copies where only the Tether's loss has suspended acceptance (R317), and on a STALE unit
from its stream's cut on (R319 step 5); it keeps none in a freeze, in the safe state, or before the cut (R50, R57, R296, log 15). -/
def keepsSuspended (d : Dev) (cut : Bool) : Bool :=
  cut || (d.pair.promiseSuspended && !d.guard.suspended && d.guard.cause == 0 && decide (d.pair.role ≤ 2))

/-- The Hold copy and the receipt of a frame that keeps them, and the causes that its storing meets: HOLD_FULL and STORE_FAULT
(R41, R42). -/
def keepFrame (i stream seq : Nat) (fromCut storeErr : Bool) (d : Dev) : Option Nat × Dev :=
  let f := frameOf d i
  if d.guard.holdUsed + holdSize f > holdPool then (some 2, d)
  else if storeErr then (some 10, report 0x602 0x04 stream d)
  else
    let d := writeHold i stream seq d
    (none, if sendsReceipts d fromCut then tetherSend 0x22 (receiptBytes stream seq f.fcs f.decision) d else d)

/-- A frame's outcome where it is known at the Weir, with what the Weir keeps of it (R41, R42). A frame that ends OVER_RATE, STREAM_PORT or
EGRESS_SET keeps no Hold and no Retained copy and sends no receipt (DESIGN CHOICE, log 15). -/
def weirOutcome (i stream seq : Nat) (st : Stream) (storeErr : Bool) (d : Dev) : Option Nat × Dev :=
  let f := frameOf d i
  let len := f.bytes.length + 4
  let cut := pastCut d st seq
  match causeAtOnce d f st with
  | some 9 => let (_, d) := keepFrame i stream seq cut storeErr d; (some 9, d)
  | some 8 => if keepsSuspended d cut then let (_, d) := keepFrame i stream seq cut storeErr d; (some 8, d) else (some 8, d)
  | some c => (some c, d)
  | none =>
    let d := loadNow d
    if !loadTakes d len then (some 1, d) else keepFrame i stream seq cut storeErr (chargeLoad len d)

/-- The Weir takes a committed guarded frame: the stream's next sequence, its decision digest, its outcome or the wait for it
(R39, R41, R42, R308). -/
def weir (i : Nat) (storeErr : Bool) (d : Dev) : Dev :=
  let f := frameOf d i
  match f.stream with
  | none => d
  | some s =>
    if f.refused then d
    else
      let st := streamOf d s
      let n := st.next
      let d := setStream s { st with next := (n + 1) % 2 ^ 32 } d
      let decision := decisionDigest d f.action f.gen f.port s n
      let d := setFrame i { f with seq := some n, decision, confirmed := some d.clock, cond := acceptCond d, recordDue := true } d
      let d := if d.pair.mode = 1 then noteRecent i d else d
      let (out, d) := weirOutcome i s n st storeErr d
      let d := match d.pair.receipts.find? fun r => r.stream == s && r.seq == n with
        | some r => compareReceipt r d
        | none => d
      match out with
      | some c => setOutcome i c d
      | none => if d.pair.mode = 1 then meetReceipt i d else tryAccept i d

end Sys2Proof.Machine
end

