-- ==== Sys2Proof/Machine/Confirm.lean ====
section
/-!
DEFINITION. Confirmation (08_speculation.md): the single event at which the ingress Basin decides a frame, what a failed one
counts, and everything that changes only at a committed one (R30, R202).
-/

namespace Sys2Proof.Machine

-- Punts (R130, R175, R440) -----------------------------------------------------------------------------------------------------------

/-- A punt's buffer: the header of R440 and the frame's bytes; `mirror`: the session of a mirror copy. -/
def puntBytes (f : Frame) (reason : Nat) (mirror : Option Nat) (bytes : List Byte) (len : Nat) : List Byte :=
  stampBytes f.stamp ++ le 2 reason
    ++ le 2 (f.port + match mirror with | some n => 512 + 1024 * n | none => 0)
    ++ padTo 12 f.fv ++ le 2 len ++ le 2 0 ++ bytes

/-- A ring has a free descriptor and a free completion entry for one more punt, beside those that wait for it (R434, R437, R441). -/
def puntRoom (d : Dev) (r : Nat) : Bool :=
  let x := ringOf d r
  let q := cqOf d x.cq
  let n := (d.dma.punts.filter fun p => p.1 == r).length
  x.kind == 1 && ringReady d r && decide (n < ringAvail x) && decide (cqUsed q + q.reserved + n + 1 < cqSize q)

/-- A punt at confirmation (R441, R443, R445): to the ring of its reason, where it waits for its delivery; one without an enabled ring, one
above 20 Mpps and one without a descriptor or a completion entry are dropped and counted. -/
def addPunt (reason : Nat) (bytes : List Byte) (d : Dev) : Dev :=
  match puntRing d reason with
  | none => count 0x801 0 d
  | some r =>
    let x := d.dma
    if (ringOf d r).state = 0 then count 0x801 0 d
    else if x.puntNext ≤ d.clock || Config.puntFits (x.puntNext - d.clock) then
      let d := { d with dma := { x with puntNext := max x.puntNext d.clock + 800 } }
      if puntRoom d r then { d with dma := { d.dma with punts := d.dma.punts ++ [(r, bytes)] } } else count 0x802 0 d
    else count 0x802 0 d

/-- A frame's punt: parse punts pass the parse punt policer, whose bucket fills by the settings in force, while a rate of 0 at the frame's
walk still drops it (R130, R136, R175). -/
def puntFrame (i reason : Nat) (d : Dev) : Dev :=
  let f := frameOf d i
  let b := passBytes f
  let bytes := puntBytes f reason none b b.length
  if reason = 0x0010 || reason = 0x0011 then
    let n := puntBucket d
    let t := d.tables
    if f.puntRate != 0 && decide (16000000000 ≤ n) then addPunt reason bytes { d with tables := { t with puntTokens := n - 16000000000, puntAt := d.clock } }
    else count 0x800 0 { d with tables := { t with puntTokens := n, puntAt := d.clock } }
  else addPunt reason bytes d

/-- An Announce: the best master clock algorithm takes it where it offers no less than the parent, comes from the parent, or the
parent's last one is more than three intervals old (R95, log 107). -/
def hearAnnounce (clock : Nat) (b : List Byte) (p : Nat) (h : PtpHeard) : PtpHeard :=
  let v := announceVector b p
  let same := (h.parent.map fun x => x % 2 ^ 80) == some (ptpIdentity b p)
  let old := decide (3 * intervalTicks h.announceLog < clock - h.announceAt)
  if h.parent.isNone || same || old || (h.parent.map fun x => decide (v < x)).getD false then
    { h with parent := some v, accuracy := byteAt b (p + 49), announceAt := clock, announceLog := ptpInterval b p, syncRun := if same then h.syncRun else 0 }
  else h

/-- A Sync of the parent: 16 in sequence qualify the source (R95). -/
def hearSync (clock : Nat) (b : List Byte) (p : Nat) (h : PtpHeard) : PtpHeard :=
  if (h.parent.map fun x => x % 2 ^ 80) != some (ptpIdentity b p) then h
  else
    let seq := ptpSeqId b p
    { h with syncRun := if 0 < h.syncRun && seq == (h.syncSeq + 1) % 65536 then min 16 (h.syncRun + 1) else 1,
             syncSeq := seq, syncAt := clock, syncLog := ptpInterval b p }

/-- A Pdelay_Resp or its Follow_Up gives the mean link delay: half of the round trip less the time the responder took (R103,
log 107). -/
def hearPdelay (ticks : Nat) (b : List Byte) (p : Nat) (x : PtpPort) : PtpPort :=
  match x.pdelayReq with
  | some (seq, who, t1) =>
    if ptpSeqId b p != seq || beAt b (p + 44) 10 != who then x
    else if ptpType b p = 3 then
      let round : Int := 4096 * ((ticks : Int) - t1) - ptpCorrection b p
      if ptpTwoStep b p then { x with pdelayResp := some (round + ptpStamp b (p + 34)) } else { x with linkDelay := (round / 2).toNat }
    else match x.pdelayResp with
      | some r => { x with linkDelay := ((r - ptpStamp b (p + 34) - ptpCorrection b p) / 2).toNat, pdelayResp := none }
      | none => x
  | none => x

/-- What Helm takes from a PTP message of its own clock or of the delay mechanism, which a clock Port uses where DELAY says so (R95, R101,
R103, R104). -/
def helmHears (f : Frame) (d : Dev) : Dev :=
  match ptpCovered d f.port f.bytes with
  | none => d
  | some p =>
    let x := ptpPort d f.port
    let hear := fun (g : PtpHeard → PtpHeard) => { x with heard := tmod {} (ptpDomain f.bytes p) g x.heard }
    let ty := ptpType f.bytes p
    let y := if ty = 0 && x.role = 3 then hear (hearSync d.clock f.bytes p)
      else if ty = 11 && x.role = 3 then hear (hearAnnounce d.clock f.bytes p)
      else if (ty = 3 || ty = 10) && (x.role = 2 || x.delay = 1) then hearPdelay f.stamp.ticks f.bytes p x
      else x
    { d with ptp := { d.ptp with ports := tput {} f.port y d.ptp.ports } }

/-- A PTP message of the unit's own clock goes to Helm with its ingress stamp; it is dropped while Helm is stopped (R104,
R426). -/
def puntToHelm (f : Frame) (d : Dev) : Dev :=
  if helmStopped d then { d with ptp := { d.ptp with dropped := d.ptp.dropped + 1 } }
  else helmHears f { d with ptp := { d.ptp with toHelm := d.ptp.toHelm ++ [(f.stamp, f.bytes)] } }

-- Mirror copies (R176) -------------------------------------------------------------------------------------------------------------------

/-- A mirror copy to a Port: stored and forwarded, with no stream, trailer or rewrite; a red frame's enters no queue, and a yellow one's is
admitted as yellow (R176, R218, R235). -/
def mirrorTo (i : Nat) (x : Session) (out : List Byte) (d : Dev) : Dev :=
  let f := frameOf d i
  let (q, beyond) := localQueue d x.port x.queue
  let d := if beyond && f.colour != 2 then count 0x20B x.port d else d
  if f.colour = 2 then d
  else if (portOf d x.port).state != 4 then count 0x209 x.port d
  else
    match admitPart d f q (f.colour == 1) with
    | none => count 0x20D x.port d
    | some part =>
      let n := d.nextCopy
      let c : Copy := { frame := i, port := x.port, queue := q, kind := 1, state := 1, verdict := true, out, part, trailerMode := 0,
                        enqAt := tmTicks d (dieOf x.port), enqClock := d.clock }
      let y := queueOf d q
      let d := modFrame i (fun f => { f with gone := f.gone ++ [n] }) (setCopy n c { d with nextCopy := n + 1 })
      countIn 0x400 q (out.length + 4) (setQueue q { y with copies := y.copies ++ [n] } d)

/-- One of every SAMPLE frames of a session is mirrored, as received and cut to TRUNCATE bytes with its FCS (R176). -/
def mirrorFrame (i : Nat) (d : Dev) : Dev :=
  let f := frameOf d i
  let n := aSession f.action
  let x := tget ({} : Session) d.tables.sessions n
  if !aMirror f.action || !x.enabled then d
  else
    let due := decide (x.sample ≤ x.seen + 1)
    let d := { d with tables := { d.tables with sessions := tput {} n { x with seen := if due then 0 else x.seen + 1 } d.tables.sessions } }
    let out := if x.truncate = 0 then f.bytes else f.bytes.take (x.truncate - 4)
    if !due then d
    else if x.punt then addPunt 0x0030 (puntBytes f 0x0030 (some n) out f.bytes.length) d
    else mirrorTo i x out d

-- What a commit counts (R131, R173, R202, R450) ---------------------------------------------------------------------------------------------

/-- One event that waited for the commit: ingress events count on their Basin too, and a buffer drop on its queue's samples. -/
def countNote (n : Nat × Nat) (d : Dev) : Dev :=
  if n.1 / 256 = 1 then countRx n.1 n.2 0 d
  else if n.1 = 0x402 then
    let x := queueOf d n.2
    count 0x402 n.2 (setQueue n.2 { x with drops := x.drops + 1 } d)
  else if n.1 = 0x600 then
    let x := confOf d n.2
    count 0x600 n.2 (setConf n.2 { x with late := (x.late + 1) % 2 ^ 64 } d)
  else count n.1 n.2 d

/-- The ingress codes that a committed frame's outcome, fragment bit and drop give (R131). -/
def outcomeCodes (f : Frame) : List Nat :=
  (match f.parse with | 1 => [7] | 2 => [5] | 3 => [6] | _ => []) ++ (if bitOf (byteAt f.fv 0) 1 then [8] else [])
    ++ (match f.drop with | some c => if c = 0 then [] else [c] | none => [])

/-- A policer's charge and count at a commit (R233). -/
def chargePolicer (f : Frame) (d : Dev) : Dev :=
  match f.policer with
  | none => d
  | some n =>
    let len := f.bytes.length + 4
    let p := (tget ({} : Policer) d.tm.policers n).now d.clock
    let p := { p with tc := if f.colour = 0 then p.tc - len * creditByte else p.tc, tp := if f.colour = 2 then p.tp else p.tp - len * creditByte }
    countIn (0x700 + f.colour) n len { d with tm := { d.tm with policers := tput {} n p d.tm.policers } }

/-- The counts of a commit; a MAC control frame counts as such and by its parse outcome alone (R66, R131). -/
def countCommit (i : Nat) (d : Dev) : Dev :=
  let f := frameOf d i
  let len := f.bytes.length + 4
  if f.mac then (outcomeCodes f).foldl (fun d c => countRx (0x100 + c) f.port 0 d) (countRx 0x104 f.port 0 d)
  else
    let d := f.notes.foldl (fun d n => countNote n d) d
    let d := (outcomeCodes f).foldl (fun d c => countRx (0x100 + c) f.port 0 d) d
    let d := if f.injected.isSome then d else windowAdd f.port 0 f.stamp.ticks len (countRx 0x100 f.port len d)
    let d := chargePolicer f d
    let d := match aCounter f.action with | some c => countAction c len d | none => d
    f.copies.foldl (fun d c =>
      let x := copyOf d c
      if x.kind = 0 && x.state < 3 then countIn 0x400 x.queue (x.out.length + 4) d else d) d

-- Digests and targets (R266, R282) -----------------------------------------------------------------------------------------------------------

/-- The ledger digest of a frame whose record is due; an engine takes one frame each 20 ns (R282). -/
def digestFrame (i : Nat) (d : Dev) : Dev :=
  let f := frameOf d i
  let b := basinOf f.port
  let x := basinState d b
  if !f.recordDue then d
  else if (match x.digestAt with | some a => decide (d.clock < a + 320) | none => false) then count 0x349 b d
  else
    let h := sipHash d.ledger.key (f.bytes.take d.ledger.digestBytes) % 2 ^ 48
    setFrame i { f with digest := some h, digestLen := d.ledger.digestBytes } (setBasin b { x with digestAt := some d.clock } d)

/-- A Level Release copy's due tick: C + REACH + ceil(16 M) + its offset, C the commit's tick in the ingress Basin (R266). -/
def dueTick (d : Dev) (g ingress port : Nat) : Nat :=
  let x := levelOf d g
  let reach := if dieOf ingress = 0 then x.reachW else x.reachE
  let off : Int := ((x.members.find? fun m => m.1 == port).map (·.2)).getD 0
  (((basinTicks d (basinOf ingress) + 16 * x.margin : Nat) : Int) + reach + off).toNat

/-- The due ticks of a frame's copies, and whether the member list in force lists their Ports (R266, R269, R274). -/
def setDue (i : Nat) (d : Dev) : Dev :=
  let f := frameOf d i
  f.copies.foldl (fun d c => match (copyOf d c).level with
    | some (g, _) =>
      modCopy c (fun y => { y with level := some (g, dueTick d g f.port y.port), listed := (levelOf d g).members.any fun m => m.1 == y.port }) d
    | none => d) d

-- The stream of a frame at its confirmation (R38) -----------------------------------------------------------------------------------------

/-- A copy of a frame that becomes guarded at its confirmation takes its slot, and where it has not started the stream queue of its Port;
one that is being sent on a Port outside the set is stomped (R37, R55). A copy that a Confluence group holds, and whose stream queue is not
the group's, leaves the group for its stream queue as LATE (R259). -/
def guardCopy (st : Stream) (i : Nat) (d : Dev) : Dev :=
  let c := copyOf d i
  match st.slots.findIdx? fun x => x.port == c.port with
  | none => if c.state = 2 then stompCopy i 0x204 (report (0x200 + basinOf c.port) 0x0E c.port d) else d
  | some k =>
    let q := (queueRange d c.port).1 + ((st.slots[k]?).map (·.queue)).getD 0
    let x := queueOf d c.queue
    let d := if c.conf.isSome && q != c.queue then note c.frame 0x602 ((c.conf.map (·.1)).getD 0) d else d
    if c.conf.isSome && q != c.queue then
      let d := setCopy i { c with slot := some k, queue := q, conf := none, late := true } (unhold i d)
      setQueue q { queueOf d q with copies := (queueOf d q).copies ++ [i] } d
    else if c.state < 2 && x.copies.contains i && q != c.queue then
      let d := setCopy i { c with slot := some k, queue := q } (unqueue i d)
      setQueue q { queueOf d q with copies := (queueOf d q).copies ++ [i] } d
    else setCopy i { c with slot := some k, queue := if c.state < 2 then q else c.queue } d

/-- A configuration of a stream holds for frames confirmed after it (R38): a forwarded frame whose action sets the stream and that was
looked up before it becomes guarded now. A stream that is not configured leaves its frame unguarded, and is counted. -/
def joinStream (i : Nat) (d : Dev) : Dev :=
  let f := frameOf d i
  match f.wants with
  | none => d
  | some s =>
    let st := streamOf d s
    if st.slots.isEmpty then count 0x50D (dieOf f.port) d
    else if f.stream.isSome || f.drop.isSome || aDest f.action ≥ 3 then d
    else f.copies.foldl (fun d c => guardCopy st c d) (setFrame i { f with stream := some s } d)

-- The commit ----------------------------------------------------------------------------------------------------------------------------------

/-- The punts of a committed frame: its action's or its outcome's, and its clock's. -/
def puntCommit (i : Nat) (d : Dev) : Dev :=
  let f := frameOf d i
  let d := match f.punt with | some r => puntFrame i r d | none => d
  if f.forClock && !f.mac then puntToHelm f d else d

/-- Everything that changes at a committed confirmation (R30, R202). -/
def commitFrame (i : Nat) (storeErr : Bool) (d : Dev) : Dev :=
  let d := joinStream i d
  let f := frameOf d i
  let guarded := f.stream.isSome && !f.refused && f.drop.isNone
  let owed := !guarded && aLedger f.action && f.colour != 2 && !f.refused
  let d := setFrame i { f with state := 2, confirmed := some d.clock, recordDue := guarded || owed,
                               outcomeAt := if owed then some d.clock else none,
                               multi := f.multi || decide (1 < f.copies.length) } d
  let d := mirrorFrame i (puntCommit i (countCommit i d))
  let d := makeRequest i (setDue i (digestFrame i d))
  let d := if guarded then weir i storeErr d else endedRecords i (frameRecord i false d)
  noteDrained f.gen (reap i d)

-- Failures (R123, R128, R129, R198) -----------------------------------------------------------------------------------------------------------

/-- The deferred check that a frame fails now that its length is known: of this pass, or of the first (R122, R174); TRUNCATED goes before it
(R123). -/
def deferred (f : Frame) : Option (Nat × Nat) := if f.parse = 3 then none else lateCheck (passBytes f) f.pendingChecks <|> lateCheck f.bytes f.firstChecks

/-- A frame turns MALFORMED at its end (R122, R128, R129): its copies fail; L2_ONLY gives it one more pass, unless it has had
one. -/
def turnMalformed (i : Nat) (at_ : Nat × Nat) (d : Dev) : Dev :=
  let f := frameOf d i
  let f := { f with parse := 2, fv := deferredFail f.fv at_.1 at_.2, stream := none }
  if f.malAct = 1 && f.pass = 1 then setFrame i { f with l2 := true, again := true, lookedAt := some d.clock } d
  else
    let d := if f.malAct = 2 then puntFrame i 0x0010 (setFrame i f d) else d
    failFrame i 5 d

/-- The cause of a failure that is known before the frame's end (R198). -/
def earlyFail (d : Dev) (f : Frame) (cellErr : Bool) : Option Nat :=
  match f.doomed with
  | some c => some c
  | none => if cellErr then some 11
    else if f.injected.isNone && (portOf d f.port).mtu < received d f then some 3 else none

/-- The cause of a failure found at the frame's end: its FCS, or its length (R66, R198). -/
def lateFail (f : Frame) : Option Nat :=
  if f.injected.isSome then none
  else if crc32 f.bytes != f.fcs then some 1
  else if f.bytes.length + 4 < 64 then some 2
  else none

/-- The completion of an injected frame's descriptor, at its confirmation (R442). -/
def completeInject (f : Frame) (reread : Option (List Byte)) (d : Dev) : Dev :=
  match f.injected with
  | none => d
  | some (r, k) =>
    let len := (((ringOf d r).started.find? fun s => s.index == k).map (·.len)).getD 0
    finishDesc r k 0 0 len f.stamp.ticks reread d

/-- The confirmation of a frame (R198). -/
def confirmFrame (i : Nat) (cellErr storeErr : Bool) (d : Dev) : Dev :=
  let f := frameOf d i
  match earlyFail d f cellErr with
  | some c => failFrame i c (if c = 11 then report (0x400 + dieOf f.port) 0x02 0 d else d)
  | none =>
    if received d f < f.bytes.length + 4 || f.again then d
    else
      match lateFail f with
      | some c => failFrame i c d
      | none =>
        if f.state != 1 || !f.enqueued then d
        else match deferred f with
          | some k => turnMalformed i k d
          | none => commitFrame i storeErr d

/-- CONFIRMATION (R198): the ingress Basin decides a frame. `cellErr`: an uncorrectable error in its cells; `storeErr`: one on the
Hold Pool or retention write path; `reread`: END of an INJECT ring's parked descriptor. -/
def execConfirmation (t frame : Nat) (cellErr storeErr : Bool) (reread : Option (List Byte)) (s : State) : Host.Outcome State Fault Refusal :=
  act (fun d =>
    let d := advance t d
    let f := frameOf d frame
    if !hasFrame d frame || f.state ≥ 2 then d
    else
      let e := confirmFrame frame cellErr storeErr d
      if hasFrame e frame && (frameOf e frame).state < 2 then e else completeInject f reread e) s

end Sys2Proof.Machine
end

