-- ==== Sys2Proof/Machine/Ledger.lean ====
section
/-!
DEFINITION. The ledger (11_ledger.md): the writer, gap records, blocks, seals, their export and the ledger commands.
-/

namespace Sys2Proof.Machine

-- SHA-256 over a block as it grows (R285) -------------------------------------------------------------------------------

/-- Bytes taken into a running hash: the chaining words and what is left of a 64-byte block; `n` bounds the blocks. -/
def shaFeed : Nat → List Nat → List Byte → List Nat × List Byte
  | 0, h, p => (h, p)
  | n + 1, h, p => if p.length < 64 then (h, p) else shaFeed n (shaCompress h (p.take 64)) (p.drop 64)

/-- The end of a running hash over `len` bytes. -/
def shaFinish (h : List Nat) (part : List Byte) (len : Nat) : List Byte :=
  let full := part ++ [0x80#8] ++ List.replicate ((119 - len % 64) % 64) 0 ++ be 8 (8 * len)
  (shaBlocks (full.length / 64) h full).flatMap fun x => be 4 x

-- Blocks (R284, R285) ---------------------------------------------------------------------------------------------------------

def setLedger (x : Ledger) (d : Dev) : Dev := { d with ledger := x }

/-- A slot of the record ring is free (R283, R289). -/
def ringRoom (d : Dev) : Bool := decide (d.ledger.nextRecord < d.ledger.freeFrom + ringRecords d)

/-- A slot of the seal ring is free for one more block (R289). -/
def sealRoom (d : Dev) : Bool := decide (d.ledger.closeNo < d.ledger.sealFree + 262144)

/-- A core mismatch is open: within its 2 s, or unresolved after them (R89, R285). -/
def mismatchOpen (d : Dev) : Bool := d.time.mismatch.isSome || d.time.unresolved

/-- Seal bytes 0 to 159 of the open block as it closes (R285). -/
def sealHead (d : Dev) (flags : Nat) : List Byte :=
  let l := d.ledger
  let b := l.block
  let now := coreStamp d false
  le 4 0x594C5331 ++ le 2 1 ++ le 2 (b2n l.genesis + flags) ++ le 8 l.closeNo ++ le 8 b.first ++ le 4 b.count
    ++ le 4 (Config.bootCount.toNat + d.helm.boots)
    ++ stampBytes (b.least.getD b.openStamp) ++ stampBytes (b.most.getD now) ++ stampBytes now
    ++ le 2 b.worst ++ le 1 (b.servoSeen.foldl (fun a s => a + 2 ^ s) 0)
    ++ le 1 (b2n b.suspect + 2 * b2n b.stepped + 4 * b2n (b.mismatch || mismatchOpen d))
    ++ le 1 (min 255 b.changes) ++ le 1 d.time.src ++ le 2 (min 65535 b.gaps) ++ le 4 b.keyId ++ List.replicate 16 0
    ++ padTo 32 (if l.genesis then [] else l.chain) ++ shaFinish b.hash b.part (32 + 32 * b.count)

/-- The open block closes and the next opens; a new key applies from it, and stamps no longer carry STEPPED (R99, R284,
R289). -/
def closeBlock (flags : Nat) (d : Dev) : Dev :=
  let l := d.ledger
  let head := sealHead d flags
  let chain := sha256 head
  let (keyId, key) := l.newKey.getD (l.keyId, l.key)
  let next : Block := { first := l.nextRecord, openStamp := coreStamp d false, part := chain, servoSeen := [d.time.servo],
                        mismatch := mismatchOpen d, keyId }
  pruneLedger { d with time := { d.time with steppedFlag := false },
                       ledger := { l with closed := l.closed ++ [{ head, closedAt := d.clock }], chain, closeNo := l.closeNo + 1, genesis := false,
                                          waited := false, rehash := false, rehashed := false, block := next, keyId, key, newKey := none } }

/-- The open block's 1 ms of device time has passed (R284). -/
def blockTimed (d : Dev) : Bool := decide (d.ledger.block.openStamp.ticks + 16000000 ≤ coreTicks d.time.west)

/-- Closes the open block where one of the events of R284 has come; with a full seal ring it stays open (R289), and
the genesis block while Helm still boots (R478 step 11). A block that a warm reset has had rehashed closes with WARM_RESET, FORCED
(R284, R287, log 95). -/
def closeIfDue (d : Dev) : Dev :=
  let l := d.ledger
  let full := decide (l.block.count ≥ 65536)
  if l.rehashed then if sealRoom d then closeBlock 10 d else d
  else if l.rehash || (l.genesis && d.helm.state == 0) || !(full || blockTimed d || l.newKey.isSome) then d
  else if !sealRoom d then setLedger { l with waited := true } d
  else closeBlock (4 * b2n (blockTimed d && !full && l.newKey.isNone) + 8 * b2n (l.newKey.isSome || l.waited)) d

/-- The open block with one more record (R285). -/
def Block.take (b : Block) (bs : List Byte) : Block :=
  let s := stampOfBytes bs
  let kind := u16 bs 22 / 8192
  let (hash, part) := shaFeed 1 b.hash (b.part ++ bs)
  { b with count := b.count + 1, hash, part,
           least := match b.least with | some x => if s.ticks < x.ticks then some s else some x | none => some s,
           most := match b.most with | some x => if x.ticks < s.ticks then some s else some x | none => some s,
           worst := max b.worst s.bound, suspect := b.suspect || bitOf s.qual 4, stepped := b.stepped || bitOf s.qual 3,
           mismatch := b.mismatch || (kind == 2 && u16 bs 16 == 0x0408),
           changes := b.changes + b2n (kind == 2 && u16 bs 16 == 0x0401), gaps := b.gaps + b2n (kind == 3) }

/-- Places a record in the ring with the next number (R284). -/
def placeRecord (bs : List Byte) (d : Dev) : Dev :=
  let l := d.ledger
  closeIfDue (memStore (recordAddr d l.nextRecord) bs (setLedger { l with nextRecord := l.nextRecord + 1, block := l.block.take bs } d))

/-- A record as it enters the ring: its digest under the key of the block that it enters, whose KEY_ID the seal gives (R285, R289,
log 113). -/
def keyedRecord (d : Dev) (r : LedgerRec) : List Byte :=
  match r.input with
  | some x => overwrite r.bytes 26 (le 6 (sipHash d.ledger.key x % 2 ^ 48))
  | none => r.bytes

/-- A gap record stands in for lost records, and is reported (R283). -/
def placeGap (cause : Nat) (x : Lost) (d : Dev) : Dev :=
  placeRecord (gapBytes d cause x.count x.guarded x.first) (report 0x603 0x1C 0 d)

/-- The writer takes the next record: a gap record that is due, or the oldest of its queue (R280, R283). -/
def writeRecord (d : Dev) : Dev :=
  let l := d.ledger
  if l.rehash || l.block.count ≥ 65536 then d
  else if ringRoom d && l.lostReset.count > 0 then placeGap 4 l.lostReset (setLedger { l with lostReset := {} } d)
  else if ringRoom d && l.lostFull.count > 0 then placeGap 1 l.lostFull (setLedger { l with lostFull := {} } d)
  else if ringRoom d && l.lostRate.count > 0 && l.queue.length < 2048 then placeGap 2 l.lostRate (setLedger { l with lostRate := {} } d)
  else
    match l.queue with
    | [] => d
    | r :: rest =>
      if ringRoom d then placeRecord (keyedRecord d r) (setLedger { l with queue := rest } d)
      else count 0x807 0 (setLedger { l with queue := rest, lost := l.lost + 1, lostFull := l.lostFull.add r } d)

/-- LEDGER_RECORD_WRITE (R280): what the writer sends waits while the Cistern's island sleeps (R29), and while the channel of its slot trains
(R345). -/
def execLedgerRecordWrite (t : Nat) (s : State) : Host.Outcome State Fault Refusal :=
  act (fun d => let d := closeIfDue (advance t d); if islandAwake d 0x4E && !channelsTrain d (recordAddr d d.ledger.nextRecord) 32 then writeRecord d else d) s

/-- RECORD_PENDING_TIMEOUT (R279): 100 µs after the outcome the FRAME record is written with PENDING. -/
def execRecordPendingTimeout (t frame : Nat) (s : State) : Host.Outcome State Fault Refusal :=
  act (fun d =>
    let d := advance t d
    match (frameOf d frame).outcomeAt with
    | some a => if d.clock - a ≥ 1600000 then frameRecord frame true d else d
    | none => d) s

/-- BLOCK_TIME_CLOSE (R284). -/
def execBlockTimeClose (t : Nat) (s : State) : Host.Outcome State Fault Refusal :=
  act (fun d => closeIfDue (advance t d)) s

-- Seals (R285, R286) ----------------------------------------------------------------------------------------------------------

/-- SEAL_WRITE (R285, R286, R398): the Grotto signs the oldest closed block's seal, and its note follows; `signed` tells
whether the Grotto could. It waits where R343 holds the genesis seal back, while the Cistern's island sleeps (R29), and while the channel of its
slot trains (R345). -/
def execSealWrite (t : Nat) (signed : Bool) (s : State) : Host.Outcome State Fault Refusal :=
  act (fun d =>
    let d := advance t d
    match d.ledger.closed with
    | [] => d
    | b :: rest =>
      if ledgerHeld d || !islandAwake d 0x4E || channelsTrain d (sealAddr d d.ledger.nextSeal) 256 then d
      else if !signed then report 0x603 0x1E 0 d
      else
        let l := d.ledger
        let hash := sha256 b.head
        let bytes := b.head ++ be 32 (Config.signR b.head).toNat ++ be 32 (Config.signS b.head).toNat ++ List.replicate 32 0
        let d := setLedger { l with closed := rest, nextSeal := l.nextSeal + 1, lastHash := hash } d
        sealNote l.nextSeal hash (endCondition 0x603 0x1E (memStore (sealAddr d l.nextSeal) bytes d))) s

/-- SEAL_DEADLINE (R285): a seal not written 200 µs after its block's close is reported once. -/
def execSealDeadline (t : Nat) (s : State) : Host.Outcome State Fault Refusal :=
  act (fun d =>
    let d := advance t d
    match d.ledger.closed with
    | [] => d
    | b :: rest =>
      if b.late || d.clock - b.closedAt < 3200000 then d
      else report 0x603 0x1D 0 (setLedger { d.ledger with closed := { b with late := true } :: rest } d)) s

-- Export (R283, R289) ---------------------------------------------------------------------------------------------------------

/-- The first word of a record's slot holds three flipped bits: it reads uncorrectable (R331). -/
def spoilRecord (n : Nat) (d : Dev) : Dev :=
  { d with cistern := { d.cistern with flips := tput 0 (recordAddr d n / 8) 7 d.cistern.flips } }

/-- LEDGER_EXPORT (R283, R289): records and seals go to their rings in number order; `bad` names the records that have become
uncorrectable by the time it reads them. -/
def execLedgerExport (t ring : Nat) (bad : List Nat) (desc reread : Option (List Byte)) (s : State) : Host.Outcome State Fault Refusal :=
  act (fun d =>
    let d := advance t d
    match sourceOfRing d ring with
    | some 0 => fillRing ring 0 desc reread (bad.foldl (fun d n => if d.ledger.exported ≤ n && n < d.ledger.nextRecord then spoilRecord n d else d) d)
    | some 1 => fillRing ring 1 desc reread d
    | _ => d) s

-- Commands (R292 to R294) --------------------------------------------------------------------------------------------------------

/-- LEDGER_CONFIGURE (R292). -/
def execLedgerConfigure (c : Cmd) (s : State) : Host.Outcome State Fault Refusal :=
  cmd 0x0B01 32 4 c (fun q fn d =>
    let l := d.ledger
    let n := orDefault (u8 q 5) 64
    let flags := u8 q 4
    if !nameable d fn (u16 q 0) l.recordRing || !nameable d fn (u16 q 2) l.sealRing || (u16 q 0 == u16 q 2 && u16 q 0 != 0xFFFF)
        || flags > 3 || !within n 32 256 || n % 32 != 0 || u16 q 6 != 0 || !zerosAt q 12 4 then rej stRange d
    else
      let d := setLedger { l with newRecordRing := some (ringName (u16 q 0)), newSealRing := some (ringName (u16 q 2)), allCopies := bitOf flags 0,
                                  digestBytes := n, newKey := if bitOf flags 1 then some (u32 q 8, slice q 16 16) else l.newKey } d
      okay (closeIfDue (applyRings d))) s

/-- LEDGER_STATUS (R293). -/
def execLedgerStatus (c : Cmd) (s : State) : Host.Outcome State Fault Refusal :=
  cmd 0x0B02 4 72 c (fun q _ d =>
    let l := d.ledger
    if !zerosAt q 0 4 then rej stRange d
    else
      { dev := d, status := stOk,
        body := le 2 0 ++ le 4 (Config.bootCount.toNat + d.helm.boots) ++ le 8 l.nextRecord ++ le 8 l.nextSeal
          ++ le 8 (l.nextRecord - l.freeFrom) ++ le 8 l.lost ++ padTo 32 l.lastHash }) s

/-- LEDGER_CERTS (R294). -/
def execLedgerCerts (c : Cmd) (s : State) : Host.Outcome State Fault Refusal :=
  cmd 0x0B03 4 2052 c (fun q _ d =>
    if u8 q 0 > 2 || !zerosAt q 1 3 then rej stRange d
    else
      let der := (certificate (u8 q 0)).take 2048
      { dev := d, status := stOk, body := le 2 der.length ++ der }) s

end Sys2Proof.Machine
end

