-- ==== Sys2Proof/Machine/Steward.lean ====
section
/-!
DEFINITION. The Steward (15_steward.md): the effect and the end of each operation, what starts, yields, resumes and stops one, and
its two commands.
-/

namespace Sys2Proof.Machine

def setSteward (x : Steward) (d : Dev) : Dev := { d with steward := x }

def modOp (id : Nat) (f : Op → Op) (d : Dev) : Dev :=
  setSteward { d.steward with ops := d.steward.ops.map fun o => if o.id = id then f o else o } d

/-- The routine that the Steward runs: running, or on its undo path. -/
def runningOp (d : Dev) : Option Op := d.steward.ops.find? fun o => o.state == 1 || o.state == 3

-- The ends of operations (R371, R378, R382) -------------------------------------------------------------------------------------

/-- The end of an operation that a `table.write` asked for, in that command's layout (R166). -/
def endWrite (o : Op) (status moves place : Nat) (d : Dev) : Dev :=
  endOpWith o status (le 2 status ++ le 1 moves ++ le 1 place ++ le 4 o.ticket) d

/-- An operation ends with a status and no further effect. -/
def endPlain (o : Op) (status : Nat) (d : Dev) : Dev :=
  if o.opcode = 0x0602 then endWrite o status 0 0xFF d else endOp o status [] d

/-- A stopped or aborted write set leaves its generation INCOMPLETE (R371, R372, R378). -/
def markIncomplete (d : Dev) : Dev := let g := inactive d; setGen g { genOf d g with incomplete := true } d

/-- The sending unit's snapshot does not complete: its partner is told (R371, log 16). -/
def snapshotStopped (d : Dev) : Dev := tetherKeep 0x28 (controlBody 5 0) none true { d with pair := { d.pair with sending := false } }

/-- An exact-match insertion that is given up: the key's staged copy is cleared, and the moves already made stay (R371, R382). -/
def undoInsert (o : Op) (d : Dev) : Dev :=
  let x := tableDef d (o.key - 1)
  let key := slice o.req 16 x.keyBytes
  match o.planned with
  | none => d
  | some (_, _, ps) =>
    let es := programmedOf d (o.key - 1)
    setEm (o.key - 1) (writeSlots ((ps.filter fun p => ((tget none es p).map (·.key)) == some key).map fun p => (p, none)) es) d

/-- An aborted operation ends with ST_FAULT, its undo outcome reached (R371, R382). -/
def endFault (o : Op) (d : Dev) : Dev :=
  match o.code with
  | 1 => endPlain o stFault (undoInsert o d)
  | 3 => endPlain o stFault (markIncomplete d)
  | 4 => endPlain o stFault (markIncomplete d)
  | 7 => endPlain o stFault (markIncomplete d)
  | 6 => endPlain o stFault { d with tables := { d.tables with swap := d.tables.swap.filter fun x => x.flipped } }
  | 0x0F => abortSnap o d
  | 0x11 => endPlain o stFault (snapshotStopped (raise 0x0C0A 0xFFFF 2 [] d))
  | _ => endPlain o stFault d

/-- A routine that has been stopped where it was ends with ST_FAULT and no undo path: a write set leaves its generation INCOMPLETE, the
slots of an exact-match write are rewritten from Helm's shadow, and a swap whose beat number the Basins have flips there (R378). -/
def endStopped (o : Op) (d : Dev) : Dev :=
  match o.code with
  | 1 => endPlain o stFault (match o.found with
      | some ws => setEm (o.key - 1) (emsOf (tableDef d (o.key - 1)) ws) d
      | none => d)
  | 3 => endPlain o stFault (markIncomplete d)
  | 4 => endPlain o stFault (markIncomplete d)
  | 7 => endPlain o stFault (markIncomplete d)
  | 6 => endPlain o stFault { d with tables := { d.tables with swap := d.tables.swap.filter fun x => x.pushed } }
  | 0x0F => endPlain o stFault { d with counters := { d.counters with snaps := d.counters.snaps.filter fun x => x.ticket != some o.ticket } }
  | 0x11 => endPlain o stFault { d with pair := { d.pair with sending := false } }
  | _ => endPlain o stFault d

/-- A queued operation is removed and has changed nothing (R382). -/
def removeOp (o : Op) (d : Dev) : Dev :=
  match o.code with
  | 6 => endPlain o stFault { d with tables := { d.tables with swap := none } }
  | 0x0F => endPlain o stFault { d with counters := { d.counters with snaps := d.counters.snaps.filter fun x => x.ticket != some o.ticket } }
  | 0x11 => endPlain o stFault (snapshotStopped d)
  | _ => endPlain o stFault d

-- The patch image (R377) ---------------------------------------------------------------------------------------------------------

/-- A patch image that Helm takes: its layout, its ROM_ID and its signature hold (R377). -/
def patchGood (b : List Byte) : Bool :=
  let n := u16 b 6
  u32 b 0 == 0x53545031 && u16 b 4 == 1 && n ≤ 512 && u32 b 8 == Config.romId.toNat && decide (208 + 4 * n ≤ b.length) && Config.imageSigned b

/-- A control-store word under its two parity bits, even over [23:12] and over [11:0] (R375). -/
def storeWord (w : Nat) : Nat :=
  w % 2 ^ 24 + 2 ^ 24 * b2n (oddOnes 12 w) + 2 ^ 25 * b2n (oddOnes 12 (w / 2 ^ 12))

/-- PATCH_LOAD (R377): the patch image of Helm's firmware. -/
def loadPatch (b : List Byte) (d : Dev) : Dev :=
  if patchGood b then
    setSteward { d.steward with
      patch := (List.range (u16 b 6)).foldl (fun t k => tput 0 k (storeWord (u32 b (144 + 4 * k))) t) [],
      matches_ := (List.range 32).foldl (fun t k => tput 0 k (u32 b (16 + 4 * k) % 2 ^ 24) t) [], patchId := u32 b 12, patchState := 1 } d
  else report 0xA00 0x23 0 (setSteward { d.steward with patchState := 2 } d)

-- The effects (R371) --------------------------------------------------------------------------------------------------------------

/-- The slots that REPLAY goes through: stream and slot, in order. -/
def replaySlots (d : Dev) : List (Nat × Nat) := d.guard.streams.flatMap fun (s, st) => (List.range st.slots.length).map fun k => (s, k)

/-- REPLAY of one slot (R53): the accepted frames above its last-sent value, from retention, in sequence order with REPLAY. -/
def replaySlot (s k : Nat) (d : Dev) : Dev :=
  match (streamOf d s).slots[k]? with
  | none => d
  | some sl =>
    let rs := d.guard.retains.filter fun r => r.stream == s && r.done && !r.lost && r.frame.outcome == some 0 && seqAfter r.seq sl.lastSent
    (sortBy (fun (r : Retain) => (r.seq + 2 ^ 32 - sl.lastSent) % 2 ^ 32) rs).foldl (fun d r =>
      match r.slots.find? fun x => x.slot == k with
      | some x =>
        let d := (spansOf d r).foldl (fun d (a, n) => noteRead a n d) d
        if retainReads d r then releaseOne 5 s r.seq r.frame x d else d
      | none => d) d

/-- What is left of a REPLAY from its n-th slot on (R53). -/
def replay (n : Nat) (d : Dev) : Dev := ((replaySlots d).drop n).foldl (fun d e => replaySlot e.1 e.2 d) d

/-- LEDGER_REHASH (R287): the open block over its records as they read now, a record that cannot be read as its STORE gap record: its
hash, its least and greatest stamps, its largest BOUND and its gap records. A record that has left with the export has no gap record in its
place any more, and is hashed as it left, so that no seal of the device is BROKEN (R291; DESIGN CHOICE, log 113). The block closes once
the seal ring has room (R289). -/
def rehashBlock (d : Dev) : Dev :=
  let d := storeGaps (max d.ledger.block.first d.ledger.exported) d
  let l := d.ledger
  let b := l.block
  let fresh : Block := { first := b.first, openStamp := b.openStamp, hash := shaInit, part := l.chain, keyId := b.keyId }
  let read := fun n => if l.exported ≤ n then ringRecord d n else
    let g := tget [] l.bad n; if g.isEmpty then memWritten d (recordAddr d n) 32 else g
  let n := (List.range b.count).foldl (fun x k => x.take (read (b.first + k))) fresh
  let block := { n with servoSeen := b.servoSeen, suspect := b.suspect, stepped := b.stepped, mismatch := b.mismatch, changes := b.changes }
  closeIfDue (setLedger { l with rehashed := true, block } d)

/-- The port that a LEARN_FLUSH names, none of an AGE_SWEEP, and the Basins of either (R187, R195). -/
def passPort (o : Op) : Option Nat := if o.ticket = 0 then none else some (u16 o.req 2)
def passBasins (o : Op) : Nat := if o.ticket = 0 then 0xFF else u8 o.req 1

/-- The tables in which an operation that has ended may have freed a candidate slot for a stash entry (R150). -/
def freedIn (o : Op) (d : Dev) : List Nat :=
  if o.code = 7 then d.tables.em.map (·.1) else if o.code = 9 || (o.code = 1 && o.opcode != 0) then [o.key - 1] else []

/-- An operation's whole effect, or what its safe points have left of it (R380), and its end (R371). Those that wait for something
outside the Steward give it up here, and end with it: a swap at its drain, a training at its end, a fence where its writes stand. -/
def applyWork (o : Op) (d : Dev) : Dev :=
  match o.code with
  | 1 =>
    match o.planned with
    | some (moves, place, _) =>
      let t := o.key - 1
      endWrite o stOk moves place (setEm t (writeSlots o.plan (programmedOf d t)) d)
    | none =>
      if o.opcode = 0 then endPlain o stOk (promoteTable (o.key - 1) d)
      else let w := applyTableWrite o.req d; endWrite o w.status w.moves w.place w.dev
  | 2 => let w := applyTableWrite o.req d; endWrite o w.status w.moves w.place w.dev
  | 3 =>
    if o.opcode = 0x0602 then let w := applyTableWrite o.req d; endWrite o w.status w.moves w.place w.dev
    else endPlain o stOk (applyActions o.req o.step d)
  | 4 => endPlain o stOk (applyGraph o.host d)
  | 5 => let w := applyMcast o.req o.host d; endPlain o w.status w.dev
  | 6 => endPlain o stOk { d with tables := { d.tables with swap := d.tables.swap.filter fun x => !x.flipped } }
  | 7 => endPlain o stOk (applySync o.step d)
  | 8 => endPlain o stOk (learnApply (u8 o.req 0) (o.key - 1) d)
  | 9 => endPlain o stOk (sweepRest (passPort o) (o.key - 1) (passBasins o) o.step d)
  | 0x0A => endPlain o stOk (scrubOne o.req d)
  | 0x0C => endPlain o stOk (scrubGroups (u32 o.req 0 - o.step) d)
  | 0x0D => endPlain o stOk (replay o.step d)
  | 0x0E => let d := rehashBlock d; endPlain o stOk (match badControl d with | some c => lostControl c d | none => d)
  | 0x0F => endSnap o d
  | 0x10 => endPlain o stOk (reEvaluate o.req d)
  | 0x11 => endPlain o stOk (sendSnapshot d)
  | 0x13 => endPlain o stOk (loadPatch o.host d)
  | _ => endPlain o stOk d

/-- An operation's whole effect and its end; where it freed slots, stash entries may be promoted (R150). -/
def applyOp (o : Op) (d : Dev) : Dev := (freedIn o d).foldl (fun d t => askPromote t d) (applyWork o d)

/-- What starts with an operation that waits for something outside the Steward: the beat number of a swap goes to the Basins, and to
the workers, with a later one where N would be less than 16 beats ahead of the PUSH (R160, R396; DESIGN CHOICE, log 33); a channel's training begins (R345). -/
def startWork (o : Op) (d : Dev) : Dev :=
  match o.code with
  | 6 =>
    let late := o.own && !(pushTargets d).isEmpty && decide (o.beat < beatNow d + 17)
    let beat := if late then beatNow d + 17 else o.beat
    let d := modOp o.id (fun o => { o with past := true, beat }) d
    let d := { d with tables := { d.tables with swap := d.tables.swap.map fun x => { x with pushed := true, beat } } }
    let d := if late then mirror 0x0603 beat o.req none d else d
    if o.own then pushCommand 0x0603 beat o.req d else d
  | 0x0B => if o.key = 0 then d else setChan (o.key - 1) { chanOf d (o.key - 1) with inService := false, training := true } d
  | _ => d

/-- The operations that wait for something outside the Steward. -/
def waitsOutside (code : Nat) : Bool := code == 6 || code == 0x0B || code == 0x12

-- Starting (R383, R384, R396) ----------------------------------------------------------------------------------------------------

/-- The last operation ahead of another that it is queued behind (R383). -/
def blocker (d : Dev) (o : Op) : Option Op :=
  ((d.steward.ops.takeWhile fun x => x.id != o.id).filter fun x => exclusion x o.code o.key == 1).getLast?

/-- A programmed write may start: the inactive generation has drained, and no swap that was accepted before it is in force (R158,
R384). -/
def mayWrite (d : Dev) (o : Op) : Bool :=
  o.opcode == 0 || drained d (inactive d) && match d.tables.swap with | some x => decide (o.id < x.op) | none => true

/-- What an operation waits for besides the matrix: a write to the inactive generation its drain (R384), a swap the workers' ACKs
(R396), a re-read its own event (PARITY_REREAD), a pair snapshot a swap or another in progress (R319), a counter snapshot its capture (R456), replay and rehash the
Cistern after a warm reset (R480), and what crosses to the Basins, or to the Cistern, those that sleep (R29, R473). -/
def opReady (d : Dev) (o : Op) : Bool :=
  (!(within o.code 1 4 || within o.code 7 10) || basinsAwake d) && match o.code with
  | 0x0A => u8 o.req 0 != 0xFF
  | 1 => mayWrite d o
  | 2 => mayWrite d o
  | 6 => !(o.own && pushesOpen d)
  | 0x11 => d.tables.swap.isNone && !(d.steward.ops.takeWhile fun x => x.id != o.id).any fun x => x.code == 0x11
  | 0x0F => islandAwake d 0x4E && d.counters.snaps.any fun x =>
      x.ticket == some o.ticket && x.boundary.isSome && !channelsTrain d (spillBase d + x.offset) (4 * x.count)
  | 0x0D => islandAwake d 0x4E && !d.cistern.channels.any fun (_, x) => x.training
  | 0x0E => islandAwake d 0x4E && !d.cistern.channels.any fun (_, x) => x.training
  | _ => true

/-- An operation could have the Steward now: one that is queued and ready, or one that has yielded. -/
def couldRun (d : Dev) (x : Op) : Bool :=
  (x.state == 0 && (blocker d x).isNone && opReady d x) || (x.state == 2 && d.steward.tokens.any fun k => k.op == x.id)

/-- An operation of a higher class is ready: it goes first (R371, R381, log 116). -/
def outranked (d : Dev) (o : Op) : Bool := d.steward.ops.any fun x => decide (opClass x.code < opClass o.code) && couldRun d x

/-- Whether the running routine gives the Steward up to another operation at its safe point (R381). -/
def yieldsTo (d : Dev) (r o : Op) : Bool :=
  d.steward.safe && r.state == 1 && decide (d.steward.tokens.length < if opClass o.code = 0 then 16 else 14)
    && (decide (opClass o.code < opClass r.code)
      || (decide (2 ≤ opClass o.code) && decide (2 ≤ opClass r.code) && decide (d.steward.ranFrom + 160000 ≤ d.clock)))

/-- The running routine stands at a safe point where it has to give the Steward up (R381). -/
def mustYield (d : Dev) (r : Op) : Bool := d.steward.ops.any fun x => x.id != r.id && couldRun d x && yieldsTo d r x

/-- The running routine's resume token: its PC, m60 to m62, the live registers, and what it waits for (R381). -/
def tokenOf (d : Dev) (r : Op) : Token :=
  let w := d.steward
  let names := [60, 61, 62] ++ (List.range w.live.2).map fun k => (w.live.1 + k) % 64
  { op := r.id, pc := w.pc, saved := names.map fun n => (n, tget 0 w.regs n), first := w.live.1, count := w.live.2,
    waiting := w.waiting, issued := w.issued, crossing := w.crossing }

/-- The Steward is free for an operation, or its running routine yields (R381). -/
def yieldFor (o : Op) (d : Dev) : Option Dev :=
  match runningOp d with
  | none => some d
  | some r =>
    if yieldsTo d r o then
      some (modOp r.id (fun r => { r with state := 2 })
        (setSteward { d.steward with tokens := d.steward.tokens ++ [tokenOf d r], waiting := (0, 0, 0), issued := [], crossing := 0 } d))
    else none

/-- The context of a routine that begins (R374). -/
def enterRoutine (o : Op) (d : Dev) : Dev :=
  let (pc, d) := takeFree d
  let w := d.steward
  let ctx := BitVec.ofNat 64 (o.ticket + o.code * 2 ^ 32)
  modOp o.id (fun o => { o with state := 1 })
    (setSteward { w with regs := tput 0 62 ctx w.regs, pc := pc % 0x4000, words := 0, safe := false, waiting := (0, 0, 0), ranFrom := d.clock,
                         live := (0, 0), issued := [], crossing := 0 } d)

/-- The Steward finds an insertion's whole chain before it makes the first write (R148). -/
def planInsert (o : Op) (d : Dev) : Dev :=
  let t := o.key - 1
  let x := tableDef d t
  let key := slice o.req 16 x.keyBytes
  let (a, b) := targetGens d (u8 o.req 2)
  let es := programmedOf d t
  let d := if o.code = 1 && o.opcode != 0 then modOp o.id (fun o => { o with found := some (tget [] d.tables.em t) }) d else d
  if o.code != 1 || o.opcode == 0 || u8 o.req 1 != 0 || (emCarrier x es d.tables.current key a b (u32 o.req 12)).isSome then d
  else
    match emNew x es key a b (u32 o.req 12) with
    | some (ws, moves, place, ps) => modOp o.id (fun o => { o with plan := ws, planned := some (moves, place, ps) }) d
    | none => d

/-- One more unit of an operation's work that lookups or the host can see between two safe points (R380); none where nothing of it shows
before its end. A slot write of an insertion: a lookup finds each entry in at least one of its places (R149), and once the key stands in
its place the operation can no longer be aborted (R371). -/
def unitOfWork (o : Op) (d : Dev) : Option Dev :=
  let next := fun (step : Nat) => modOp o.id fun o => { o with step, progress := o.progress + 1 }
  match o.code with
  | 1 =>
    match o.plan with
    | w :: ws =>
      let t := o.key - 1
      let placed := (o.planned.map fun x => x.2.2.headD 0) == some w.1 && w.2.isSome
      some (modOp o.id (fun o => { o with plan := ws, progress := o.progress + b2n w.2.isNone, past := o.past || placed })
        (setEm t (tput none w.1 w.2 (programmedOf d t)) d))
    | [] => if o.opcode = 0 then (promoteNext (o.key - 1) d).map (next 0) else none
  | 3 => if o.opcode != 0x0602 && decide (o.step < u8 o.req 1) then some (next (o.step + 1) (writeAction o.req o.step d)) else none
  | 4 => if o.step < (graphOf o.host).nodes.length then some (next (o.step + 1) (loadNodes o.host (o.step + 1) d)) else none
  | 7 => if o.step < 6 then some (next (o.step + 1) (syncPart o.step d)) else none
  | 9 => (nextSwept d (passPort o) (o.key - 1) (passBasins o) o.step).map fun (b, p, e) =>
      next (slotNumber b p + 1) (sweepOne (passPort o) (o.key - 1) b p e d)
  | 0x0C => if o.step < u32 o.req 0 then some (next (o.step + 1) (scrubGroups 1 d)) else none
  | 0x0D => ((replaySlots d)[o.step]?).map fun e => next (o.step + 1) (replaySlot e.1 e.2 d)
  | _ => none

/-- At a safe point one more unit of the running operation's work has been done (R380). -/
def stepWork (d : Dev) : Dev :=
  match runningOp d with
  | some o => if o.state = 1 then (unitOfWork o d).getD d else d
  | none => d

/-- STEWARD_OP_START (R371, R383): a ready operation starts where none of a higher class is ready. `toEnd`: it runs to its end in this step
(log 9); otherwise its routine is entered, and the microwords that follow are its words. A swap that was queued ahead of the abort of a
write set finds its generation INCOMPLETE, and ends with ST_CONFLICT (R372; DESIGN CHOICE, log 33). -/
def execStewardOpStart (t op : Nat) (toEnd : Bool) (s : State) : Host.Outcome State Fault Refusal :=
  act (fun d =>
    let d := advance t d
    match opOf d op with
    | none => d
    | some o =>
      if o.state != 0 || (blocker d o).isSome || !opReady d o || outranked d o then d
      else
        match yieldFor o d with
        | none => d
        | some d =>
          if o.code = 6 && (genOf d (inactive d)).incomplete then endOp o stConflict [] { d with tables := { d.tables with swap := none } }
          else if !toEnd then enterRoutine o (planInsert o (startWork o d))
          else if waitsOutside o.code then startWork o (modOp op (fun o => { o with state := 2 }) d)
          else applyOp o d) s

/-- STEWARD_RESUME (R381): a yielded routine is restored from its token at the word after its safe point, where no operation of a higher
class is ready; a running one of a lower class yields to it, and one that has run for 10 µs. -/
def execStewardResume (t op : Nat) (s : State) : Host.Outcome State Fault Refusal :=
  act (fun d =>
    let d := advance t d
    match d.steward.tokens.find? (fun k => k.op == op), opOf d op with
    | some k, some o =>
      if outranked d o then d
      else
        match yieldFor o d with
        | none => d
        | some d =>
          let w := d.steward
          modOp op (fun o => { o with state := 1 })
            (setSteward { w with tokens := w.tokens.filter fun x => x.op != op, pc := k.pc, live := (k.first, k.count), words := 0, safe := false,
                                 waiting := k.waiting, issued := k.issued, crossing := k.crossing,
                                 regs := k.saved.foldl (fun r (n, v) => tput 0 n v r) w.regs, ranFrom := d.clock } d)
    | _, _ => d) s

-- Aborts (R379, R382, R386) ------------------------------------------------------------------------------------------------------------

/-- The running routine takes a pending abort at its safe point: it goes to its undo entry (R382). -/
def takeAbort (d : Dev) : Dev :=
  match runningOp d with
  | some o =>
    if o.aborting && o.state = 1 then
      modOp o.id (fun o => { o with state := 3 })
        (setSteward { d.steward with pc := (tget 0 d.steward.regs 60).toNat % 2 ^ 15, waiting := (0, 0, 0) } d)
    else d
  | none => d

/-- A safe point: the words counted since the last are gone, and a pending abort is taken (R379, R382). -/
def safePoint (d : Dev) : Dev :=
  let d := stepWork d
  takeAbort (setSteward { d.steward with words := 0, safe := true } d)

/-- A 49th word without a safe point: reported, and treated as one with an abort pending (R379). -/
def pollOverdue (o : Op) (d : Dev) : Dev := safePoint (modOp o.id (fun o => { o with aborting := true }) (report 0xA00 0x24 d.steward.pc d))

/-- POLL_OVERDUE (R379). -/
def execPollOverdue (t : Nat) (s : State) : Host.Outcome State Fault Refusal :=
  act (fun d =>
    let d := advance t d
    match runningOp d with
    | some o => if d.steward.words ≥ 48 && d.steward.waiting.1 == 0 then pollOverdue o d else d
    | none => d) s

/-- An abort is registered on an operation that may take one: at once where it is queued or waits outside the Steward, else at its
next safe point (R382). -/
def abortOp (o : Op) (d : Dev) : Dev :=
  if o.state = 0 then removeOp o d
  else if o.state = 2 && !(d.steward.tokens.any fun k => k.op == o.id) then endFault o d
  else
    let d := modOp o.id (fun o => { o with aborting := true }) d
    if o.state = 1 && d.steward.safe then takeAbort d else d

/-- STEWARD_ABORT (R386). -/
def execStewardAbort (c : Cmd) (s : State) : Host.Outcome State Fault Refusal :=
  cmd 0x0F02 8 4 c (fun q _ d =>
    let n := u32 q 0
    if !zerosAt q 4 4 then rej stRange d
    else
      match d.steward.ops.find? fun o => n != 0 && o.ticket == n with
      | none => rej stRange d
      | some o => if opAbortable o.code && !o.past then okay (abortOp o d) else rej stDenied d) s

/-- STATE of an operation: one under way that has no resume token runs (R381, R385). -/
def opState (d : Dev) (o : Op) : Nat := if o.state = 2 && !(d.steward.tokens.any fun k => k.op == o.id) then 1 else o.state

/-- One entry of `steward.ops` (R385). -/
def opEntry (d : Dev) (o : Op) : List Byte :=
  le 4 o.ticket ++ le 1 o.code ++ le 1 (opState d o) ++ le 1 (opClass o.code) ++ le 1 (b2n (opAbortable o.code && !o.past)) ++ le 4 o.progress
    ++ le 4 (((blocker d o).map (·.ticket)).getD 0)

/-- STEWARD_OPS (R385). -/
def execStewardOps (c : Cmd) (s : State) : Host.Outcome State Fault Refusal :=
  cmd 0x0F01 4 1040 c (fun q _ d =>
    let os := d.steward.ops.take 64
    let used := (d.steward.matches_.filter fun e => bitOf e.2 23).length
    if !zerosAt q 0 4 then rej stRange d
    else { dev := d, status := stOk,
           body := le 2 os.length ++ le 4 Config.romId.toNat ++ le 4 d.steward.patchId ++ le 1 d.steward.patchState ++ le 1 used
             ++ le 2 d.steward.tokens.length ++ os.flatMap (opEntry d) }) s

/-- STEWARD_WAIT_END (R374): what a wait instruction waits for has come. A read that cannot be returned leaves an abort pending,
where the operation may take one (R382). -/
def execStewardWaitEnd (t : Nat) (s : State) : Host.Outcome State Fault Refusal :=
  act (fun d =>
    let d := advance t d
    match runningOp d with
    | none => d
    | some o =>
      let w := d.steward
      match w.waiting with
      | (1, _, _) => setSteward { w with waiting := (0, 0, 0), crossing := 0 } d
      | (2, _, _) =>
        let put := fun (r : Tbl Word64) (e : Nat × Option (List Byte)) =>
          (List.range 8).foldl (fun r k =>
            let n := (e.1 + k) % 64
            if n = 0 then r else tput 0 n (BitVec.ofNat 64 (leAt (e.2.getD []) (8 * k) 8)) r) r
        let bad := w.issued.any fun e => e.2.isNone
        let d := setSteward { w with waiting := (0, 0, 0), issued := [], regs := (w.issued.filter fun e => e.2.isSome).foldl put w.regs } d
        if bad && opAbortable o.code && !o.past then takeAbort (modOp o.id (fun o => { o with aborting := true }) d) else d
      | (3, ev, x) =>
        let come := match ev with
          | 0 => decide (x ≤ coreTicks d.time.west / 4096)
          | 1 => inFlight d x == 0
          | _ => decide (x ≤ d.clock)
        if come then setSteward { w with waiting := (0, 0, 0) } d else d
      | _ => d) s

end Sys2Proof.Machine
end

