-- ==== Sys2Proof/Machine/Micro.lean ====
section
/-!
DEFINITION. The Steward's microwords (R373 to R379): each executes in the routine that runs, at its PC.
-/

namespace Sys2Proof.Machine

/-- A microregister; m0 reads as 0 (R374). -/
def mreg (d : Dev) (n : BitVec 6) : Word64 := if n = 0 then 0 else tget 0 d.steward.regs n.toNat

/-- Writes a microregister; a write to m0 is ignored (R374). -/
def setMreg (n : BitVec 6) (v : Word64) (d : Dev) : Dev :=
  if n = 0 then d else setSteward { d.steward with regs := tput 0 n.toNat v d.steward.regs } d

/-- The condition flags, written to m61: Z, N, and C, which the spec does not derive (log 45). -/
def setFlags (x : Word64) (d : Dev) : Dev :=
  let (c, d) := takeFree d
  setMreg 61 (BitVec.ofNat 64 (b2n (x == 0) + 2 * b2n x.msb + 4 * (c % 2))) d

def flagZ (d : Dev) : Bool := (mreg d 61).getLsbD 0
def flagN (d : Dev) : Bool := (mreg d 61).getLsbD 1
def flagC (d : Dev) : Bool := (mreg d 61).getLsbD 2

def setPc (n : Nat) (d : Dev) : Dev := setSteward { d.steward with pc := n % 2 ^ 15 } d

/-- The control-store address that a PC fetches from: the lowest valid match register of a ROM address redirects it into the patch RAM
(R376). -/
def fetchAt (d : Dev) : Nat :=
  let pc := d.steward.pc
  if pc < 0x4000 then
    match (List.range 32).find? fun k => bitOf (tget 0 d.steward.matches_ k) 23 && bitsOf (tget 0 d.steward.matches_ k) 13 0 == pc with
    | some k => 0x4000 + bitsOf (tget 0 d.steward.matches_ k) 22 14
    | none => pc
  else pc

/-- A word that fails parity twice, or is invalid: the routine stops there, its undo path does not run, and it is reported (R378). -/
def microFault (o : Op) (d : Dev) : Dev := endStopped o (report 0xA00 0x22 (fetchAt d) d)

/-- The word that the PC fetches, with its parity bits: of the ROM or of the patch RAM; other addresses are invalid (R375). -/
def fetched (d : Dev) : Option Nat :=
  let a := fetchAt d
  if a < 0x4000 then some (storeWord (Config.rom a).toNat)
  else if a < 0x4200 then some (tget 0 d.steward.patch (a - 0x4000))
  else none

/-- The microword at the PC: none where it fails parity or is invalid (R375, R378). -/
def microAt (d : Dev) : Option Micro := (fetched d).bind fun w => if storeWord w = w then decodeMicro (BitVec.ofNat 24 w) else none

/-- One microword of the running routine, where it is the one at the PC. `ok`: it passed parity, at once or when fetched again (R378).
`safe`: it is a safe point (R379). At a safe point where a higher class is ready the routine goes no further (R381). `f`, none where the
word is invalid, is its effect, with the PC at the word's own address; the PC moves on before it. -/
def word (i : Micro) (t : Nat) (ok safe : Bool) (f : Op → Dev → Option Dev) (s : State) : Host.Outcome State Fault Refusal :=
  act (fun d =>
    let d := advance t d
    match runningOp d with
    | none => d
    | some o =>
      if d.steward.waiting.1 != 0 || mustYield d o then d
      else if !ok || (microAt d).isNone then microFault o d
      else if microAt d != some i then d
      else if d.steward.words ≥ 48 && !safe then pollOverdue o d
      else
        let d := setPc (fetchAt d) d
        match f o (setSteward { d.steward with words := d.steward.words + 1, safe := false } d) with
        | some d => d
        | none => microFault o d) s

/-- A microword that goes on to the next address. -/
def plain (i : Micro) (t : Nat) (ok : Bool) (f : Dev → Dev) (s : State) : Host.Outcome State Fault Refusal :=
  word i t ok false (fun _ d => some (f (setPc (d.steward.pc + 1) d))) s

/-- A microword that writes mA. -/
def writeA (i : Micro) (t : Nat) (a : BitVec 6) (ok : Bool) (v : Dev → Word64) (s : State) : Host.Outcome State Fault Refusal :=
  plain i t ok (fun d => setMreg a (v d) d) s

/-- A wait: the routine stands at a safe point, and takes a pending abort there (R379, R382). -/
def waitAt (w : Nat × Nat × Nat) (d : Dev) : Dev :=
  let d := setPc (d.steward.pc + 1) d
  safePoint (setSteward { d.steward with waiting := w } d)

/-- IMM where it is signed (R374). -/
def relative (pc : Nat) (imm : BitVec 12) : Nat := ((pc : Int) + imm.toInt + 2 ^ 15).toNat % 2 ^ 15


-- Arithmetic (R374) -------------------------------------------------------------------------------------------------------------

/-- NOP. -/
def execNop (t : Nat) (ok : Bool) (s : State) : Host.Outcome State Fault Refusal := plain .nop t ok id s

/-- MOV. -/
def execMov (t : Nat) (a b : BitVec 6) (ok : Bool) (s : State) : Host.Outcome State Fault Refusal :=
  writeA (.mov a b) t a ok (fun d => mreg d b) s

/-- ADD. -/
def execAdd (t : Nat) (a b c : BitVec 6) (ok : Bool) (s : State) : Host.Outcome State Fault Refusal :=
  writeA (.add a b c) t a ok (fun d => mreg d b + mreg d c) s

/-- SUB. -/
def execSub (t : Nat) (a b c : BitVec 6) (ok : Bool) (s : State) : Host.Outcome State Fault Refusal :=
  writeA (.sub a b c) t a ok (fun d => mreg d b - mreg d c) s

/-- AND. -/
def execAnd (t : Nat) (a b c : BitVec 6) (ok : Bool) (s : State) : Host.Outcome State Fault Refusal :=
  writeA (.and a b c) t a ok (fun d => mreg d b &&& mreg d c) s

/-- OR. -/
def execOr (t : Nat) (a b c : BitVec 6) (ok : Bool) (s : State) : Host.Outcome State Fault Refusal :=
  writeA (.or a b c) t a ok (fun d => mreg d b ||| mreg d c) s

/-- XOR. -/
def execXor (t : Nat) (a b c : BitVec 6) (ok : Bool) (s : State) : Host.Outcome State Fault Refusal :=
  writeA (.xor a b c) t a ok (fun d => mreg d b ^^^ mreg d c) s

/-- SHL. -/
def execShl (t : Nat) (a b c : BitVec 6) (ok : Bool) (s : State) : Host.Outcome State Fault Refusal :=
  writeA (.shl a b c) t a ok (fun d => mreg d b <<< ((mreg d c).toNat % 64)) s

/-- SHR, logical. -/
def execShr (t : Nat) (a b c : BitVec 6) (ok : Bool) (s : State) : Host.Outcome State Fault Refusal :=
  writeA (.shr a b c) t a ok (fun d => mreg d b >>> ((mreg d c).toNat % 64)) s

/-- CMP. -/
def execCmp (t : Nat) (b c : BitVec 6) (ok : Bool) (s : State) : Host.Outcome State Fault Refusal :=
  plain (.cmp b c) t ok (fun d => setFlags (mreg d b - mreg d c) d) s

/-- LDI. -/
def execLdi (t : Nat) (a : BitVec 6) (imm : BitVec 12) (ok : Bool) (s : State) : Host.Outcome State Fault Refusal :=
  writeA (.ldi a imm) t a ok (fun _ => imm.zeroExtend 64) s

/-- ADDI, with IMM signed. -/
def execAddi (t : Nat) (a : BitVec 6) (imm : BitVec 12) (ok : Bool) (s : State) : Host.Outcome State Fault Refusal :=
  writeA (.addi a imm) t a ok (fun d => mreg d a + imm.signExtend 64) s

/-- SHLI. -/
def execShli (t : Nat) (a : BitVec 6) (imm : BitVec 12) (ok : Bool) (s : State) : Host.Outcome State Fault Refusal :=
  writeA (.shli a imm) t a ok (fun d => (mreg d a <<< 12) ||| imm.zeroExtend 64) s

/-- CMPI. -/
def execCmpi (t : Nat) (a : BitVec 6) (imm : BitVec 12) (ok : Bool) (s : State) : Host.Outcome State Fault Refusal :=
  plain (.cmpi a imm) t ok (fun d => setFlags (mreg d a - imm.zeroExtend 64) d) s

-- Control flow (R374) --------------------------------------------------------------------------------------------------------------

/-- Whether a branch condition holds; none for an invalid code. -/
def condition (d : Dev) (n : BitVec 6) : Option Bool :=
  match n.toNat with
  | 0 => some true
  | 1 => some (flagZ d)
  | 2 => some (!flagZ d)
  | 3 => some (flagN d)
  | 4 => some (!flagN d)
  | 5 => some (flagC d)
  | 6 => some (!flagC d)
  | _ => none

/-- BR: relative to the address of the word itself. -/
def execBr (t : Nat) (a : BitVec 6) (imm : BitVec 12) (ok : Bool) (s : State) : Host.Outcome State Fault Refusal :=
  word (.br a imm) t ok false (fun _ d =>
    (condition d a).map fun b => setPc (if b then relative d.steward.pc imm else d.steward.pc + 1) d) s

/-- JMP. -/
def execJmp (t : Nat) (b : BitVec 6) (ok : Bool) (s : State) : Host.Outcome State Fault Refusal :=
  word (.jmp b) t ok false (fun _ d => some (setPc (mreg d b).toNat d)) s

/-- CALL: the target is read before the link is written. -/
def execCall (t : Nat) (b : BitVec 6) (ok : Bool) (s : State) : Host.Outcome State Fault Refusal :=
  word (.call b) t ok false (fun _ d =>
    some (setPc (mreg d b).toNat (setMreg 63 (BitVec.ofNat 64 (d.steward.pc + 1)) d))) s

/-- RET. -/
def execRet (t : Nat) (ok : Bool) (s : State) : Host.Outcome State Fault Refusal :=
  word .ret t ok false (fun _ d => some (setPc (mreg d 63).toNat d)) s

-- Checks and hashes (R374) ------------------------------------------------------------------------------------------------------------

/-- CRC: the 8 bytes of mB, least significant first; the spec names two values of C, and the result of any other is free (log 45). -/
def execCrc (t : Nat) (a b c : BitVec 6) (ok : Bool) (s : State) : Host.Outcome State Fault Refusal :=
  plain (.crc a b c) t ok (fun d =>
    let run := fun poly => crcRun poly ((mreg d a).toNat % 2 ^ 32) (le 8 (mreg d b).toNat)
    match c.toNat with
    | 0 => setMreg a (BitVec.ofNat 64 (run polyCast)) d
    | 1 => setMreg a (BitVec.ofNat 64 (run polyIeee)) d
    | _ => let (x, d) := takeFree d; setMreg a (BitVec.ofNat 64 x) d) s

/-- Eight or fewer consecutive microregisters from one; numbers wrap after m63 (log 45). -/
def mregs (d : Dev) (a : BitVec 6) (n : Nat) : List Word64 := (List.range n).map fun k => mreg d (a + BitVec.ofNat 6 k)

def setMregs (a : BitVec 6) (vs : List Word64) (d : Dev) : Dev :=
  (vs.zipIdx).foldl (fun d (v, k) => setMreg (a + BitVec.ofNat 6 k) v d) d

/-- SHA: one compression of the block in mB to mB+7 into the state in mA to mA+3, two words a register, the first in the upper half
(log 45). -/
def execSha (t : Nat) (a b : BitVec 6) (ok : Bool) (s : State) : Host.Outcome State Fault Refusal :=
  plain (.sha a b) t ok (fun d =>
    let h := (mregs d a 4).flatMap fun x => [x.toNat / 2 ^ 32, x.toNat % 2 ^ 32]
    let r := shaCompress h ((mregs d b 8).flatMap fun x => be 8 x.toNat)
    setMregs a ((List.range 4).map fun k => BitVec.ofNat 64 (r.getD (2 * k) 0 * 2 ^ 32 + r.getD (2 * k + 1) 0)) d) s

-- Tables, Cistern and block registers (R374) ------------------------------------------------------------------------------------------

/-- What is sent to an island waits while that sleeps (R29). -/
def awake (island t : Nat) (s : State) (o : Host.Outcome State Fault Refusal) : Host.Outcome State Fault Refusal :=
  if islandAwake s.dev island then o else act (advance t) s

/-- A table word of a Basin by space and address (log 22): what TWR wrote there, else the word of the entry that R504's layout of addresses
names; none where the spec gives the place no layout. -/
def tableWord (d : Dev) (basin space addr : Nat) : Option Nat :=
  let g := addr / 2 ^ 14 % 2
  let g3 := addr / 2 ^ 16 % 2
  match tget none d.steward.rawWords (rawKey basin space addr), space with
  | some w, _ => some w.toNat
  | none, 0 => (slotWords d basin (addr / 2 ^ 24 % 16) (addr % 2 ^ 24))[addr / 2 ^ 32 % 16]?
  | none, 2 => ((tget none (genOf d g).tcam (addr % 2 ^ 14)).map (tcamIn d basin g (addr % 2 ^ 14))).bind fun e =>
      let parts := e.key ++ e.mask ++ be 8 e.result
      if 8 * (addr / 2 ^ 15 % 64) < parts.length then some (beNat (slice parts (8 * (addr / 2 ^ 15 % 64)) 8)) else none
  | none, 3 =>
    if bitOf addr 17 then
      if addr / 2 ^ 32 % 16 < 16 then some (leAt (rewriteIn d basin g3 (addr % 2 ^ 16)) (8 * (addr / 2 ^ 32 % 16)) 8) else none
    else (actionIn d basin g3 (addr % 2 ^ 16))[addr / 2 ^ 32 % 16]?
  | none, _ => none

/-- A table word that a routine reads cannot be used: its entry has failed parity in that Basin, or it fails now (R146, R382). -/
def wordUnusable (d : Dev) (basin space addr w : Nat) : Bool :=
  badNow d basin (rawEntry (rawKey basin space addr)).2 || ((space == 0 || (space == 3 && !bitOf addr 17)) && !wordGood w)

/-- The routine's own data cannot be read: an abort is pending, where the operation may take one; a scrub reads such words for its living
(R382). -/
def dataFault (o : Op) (d : Dev) : Dev :=
  if opAbortable o.code && !o.past && o.code != 0x0A then modOp o.id (fun o => { o with aborting := true }) d else d

/-- TRD: where the spec gives no layout the value is free (log 22). It waits while the Basin sleeps (R29). -/
def execTrd (t : Nat) (a b c : BitVec 6) (ok : Bool) (s : State) : Host.Outcome State Fault Refusal :=
  awake (0x40 + bitsOf (mreg s.dev c).toNat 2 0) t s <| word (.trd a b c) t ok false (fun o d =>
    let m := (mreg d c).toNat
    let addr := (mreg d b).toNat
    let d := setPc (d.steward.pc + 1) d
    match tableWord d (bitsOf m 2 0) (bitsOf m 7 4) addr with
    | some x => some ((if wordUnusable d (bitsOf m 2 0) (bitsOf m 7 4) addr x then dataFault o else id) (setMreg a (BitVec.ofNat 64 x) d))
    | none => let (x, d) := takeFree d; some (setMreg a (BitVec.ofNat 64 x) d)) s

/-- The Basins that a TWR names take what crosses to them: none of them sleeps, but for one at Drained, which is left out (R29, R472). -/
def maskAwake (d : Dev) (mask : Nat) : Bool := (List.range 8).all fun b => !bitOf mask b || islandAwake d (0x40 + b) || (unitOf d (64 + b)).step == 5

/-- TWR: in every Basin of the mask but those at Drained, whose lookups read it from then on. It waits while one of them sleeps (R29, R472). -/
def execTwr (t : Nat) (a b c : BitVec 6) (ok : Bool) (s : State) : Host.Outcome State Fault Refusal :=
  if !maskAwake s.dev (bitsOf (mreg s.dev c).toNat 15 8) then act (advance t) s
  else plain (.twr a b c) t ok (fun d =>
    let m := (mreg d c).toNat
    let put := fun (w : Tbl (Option Word64)) k =>
      if bitOf m (8 + k) && (unitOf d (64 + k)).step != 5 then tput none (rawKey k (bitsOf m 7 4) (mreg d b).toNat) (some (mreg d a)) w else w
    setSteward { d.steward with crossing := d.steward.crossing + 1, rawWords := (List.range 8).foldl put d.steward.rawWords } d) s

/-- TWAIT. -/
def execTwait (t : Nat) (ok : Bool) (s : State) : Host.Outcome State Fault Refusal :=
  word .twait t ok true (fun _ d => some (waitAt (1, 0, 0) d)) s

/-- A word that asks the Cistern for 64 bytes waits while that is at Dry (R473), and while a channel of them trains (R345). -/
def served (b : BitVec 6) (t : Nat) (s : State) (o : Host.Outcome State Fault Refusal) : Host.Outcome State Fault Refusal :=
  if islandAwake s.dev 0x4E && !channelsTrain s.dev (mreg s.dev b).toNat 64 then o else act (advance t) s

/-- CRD: the 64 bytes as they stand at the issue; the registers hold them once CWAIT ends (log 45). -/
def execCrd (t : Nat) (a b : BitVec 6) (ok : Bool) (s : State) : Host.Outcome State Fault Refusal :=
  served b t s <| plain (.crd a b) t ok (fun d =>
    let at_ := (mreg d b).toNat
    let got := if memGood d at_ 64 then some (memBytes d at_ 64) else none
    noteRead at_ 64 (setSteward { d.steward with issued := d.steward.issued ++ [(a.toNat, got)] } d)) s

/-- CWR. -/
def execCwr (t : Nat) (a b : BitVec 6) (ok : Bool) (s : State) : Host.Outcome State Fault Refusal :=
  served b t s <| plain (.cwr a b) t ok (fun d =>
    let at_ := (mreg d b).toNat
    memStore at_ ((mregs d a 8).flatMap fun x => le 8 x.toNat) d) s

/-- CWAIT. -/
def execCwait (t : Nat) (ok : Bool) (s : State) : Host.Outcome State Fault Refusal :=
  word .cwait t ok true (fun _ d => some (waitAt (2, 0, 0) d)) s

/-- RRD: what RWR wrote; the registers' own contents are not given, and the value is free (log 22). -/
def execRrd (t : Nat) (a b : BitVec 6) (ok : Bool) (s : State) : Host.Outcome State Fault Refusal :=
  plain (.rrd a b) t ok (fun d =>
    match tget none d.steward.rawRegs (mreg d b).toNat with
    | some x => setMreg a x d
    | none => let (x, d) := takeFree d; setMreg a (BitVec.ofNat 64 x) d) s

/-- RWR. -/
def execRwr (t : Nat) (a b : BitVec 6) (ok : Bool) (s : State) : Host.Outcome State Fault Refusal :=
  plain (.rwr a b) t ok (fun d =>
    setSteward { d.steward with rawRegs := tput none (mreg d b).toNat (some (mreg d a)) d.steward.rawRegs } d) s

/-- The stream and sequence of the kept frame whose Field Vector stands at a Hold address (R374). -/
def heldAt (d : Dev) (addr : Word64) : Option (Nat × Nat) :=
  ((d.guard.holds.map fun h => (h.stream, h.seq)) ++ d.pair.recent.map fun x => (x.stream, x.seq)).find? fun e => Config.holdAddress e.1 e.2 == addr

/-- RELOOK: the decision digest (R300) of the frame at a Hold address, in a generation; where no Field Vector stands there the value is free
(log 22). -/
def execRelook (t : Nat) (a b c : BitVec 6) (ok : Bool) (s : State) : Host.Outcome State Fault Refusal :=
  plain (.relook a b c) t ok (fun d =>
    match (heldAt d (mreg d b)).bind fun e => relookIn d e.1 e.2 ((mreg d c).toNat % 2) with
    | some x => setMreg a (BitVec.ofNat 64 x) d
    | none => let (x, d) := takeFree d; setMreg a (BitVec.ofNat 64 (x % 2 ^ 32)) d) s

-- Waits, safe points and ends (R374, R379, R382) -----------------------------------------------------------------------------------------

/-- EVWAIT: beat number mA, the in-flight count of a generation at 0, or a delay of mA ticks. -/
def execEvwait (t : Nat) (a : BitVec 6) (imm : BitVec 12) (ok : Bool) (s : State) : Host.Outcome State Fault Refusal :=
  word (.evwait a imm) t ok true (fun _ d =>
    match imm.toNat / 256 with
    | 0 => some (waitAt (3, 0, (mreg d a).toNat) d)
    | 1 => some (waitAt (3, 1, imm.toNat % 2) d)
    | 2 => some (waitAt (3, 2, d.clock + (mreg d a).toNat) d)
    | _ => none) s

/-- POLL. -/
def execPoll (t : Nat) (ok : Bool) (s : State) : Host.Outcome State Fault Refusal :=
  word .poll t ok true (fun _ d => some (safePoint (setPc (d.steward.pc + 1) d))) s

/-- TOKEN: the live registers a resume token holds; a count of 0 or above 16 is invalid. -/
def execToken (t : Nat) (imm : BitVec 12) (ok : Bool) (s : State) : Host.Outcome State Fault Refusal :=
  word (.token imm) t ok false (fun _ d =>
    let n := imm.toNat / 64
    if within n 1 16 then
      let d := setPc (d.steward.pc + 1) d
      some (setSteward { d.steward with live := (imm.toNat % 64, n) } d)
    else none) s

/-- UNDO: the undo entry, relative to the word's own address. -/
def execUndo (t : Nat) (imm : BitVec 12) (ok : Bool) (s : State) : Host.Outcome State Fault Refusal :=
  word (.undo imm) t ok false (fun _ d =>
    let pc := d.steward.pc
    some (setMreg 60 (BitVec.ofNat 64 (relative pc imm)) (setPc (pc + 1) d))) s

/-- DONE: a routine on its undo path, or with an abort registered, ends with ST_FAULT (R382, R386); one that ends well has its operation's whole
effect (log 9). -/
def execDone (t : Nat) (a : BitVec 6) (imm : BitVec 12) (ok : Bool) (s : State) : Host.Outcome State Fault Refusal :=
  word (.done a imm) t ok false (fun o d =>
    let d := setPc (d.steward.pc + 1) d
    some (applyMirrors (if o.state = 3 || o.aborting then endFault o d else if imm = 0 then applyOp o d else endPlain o imm.toNat d))) s

/-- FAULT. -/
def execFault (t : Nat) (a : BitVec 6) (imm : BitVec 12) (ok : Bool) (s : State) : Host.Outcome State Fault Refusal :=
  plain (.fault a imm) t ok (fun d => report 0xA00 (imm.toNat % 64) (mreg d a).toNat d) s

end Sys2Proof.Machine
end

