-- ==== Sys2Proof/Machine/Tether.lean ====
section
/-!
DEFINITION. The Tether of a Pair (12_pairing.md): the handshake, heartbeats, sent reports, receipts, disputes, control and snapshot
messages. The layouts of message bodies that the spec leaves open are those of log 16.
-/

namespace Sys2Proof.Machine

def setPair (x : Pair) (d : Dev) : Dev := { d with pair := x }

-- Losing and having contact (R313, R317) ----------------------------------------------------------------------------------------

/-- The STANDBY takes over on a FINAL report or a pattern that it has recognised (R313 cause 7). -/
def takesOver (d : Dev) : Bool := match d.pair.trigger with | some (_, cause, _) => cause == 7 | none => false

/-- The Tether is lost: what was under way on it ends, a planned swap too, but MIRROR messages received are still applied (R305). While the
Pulse shows ALIVE, the STANDBY goes STALE, unless it is about to take over, and the ACTIVE suspends its acceptance (R313 causes 7 and 10,
R317). -/
def loseTether (d : Dev) : Dev :=
  let d := failPlanned (mirrorsAlone (failResync (if d.pair.sync = 2 then 4 else 2) d))
  let d := setPair { d.pair with tetherUp := false, tetherSince := none, handshake := false, unacked := [], partnerRole := 0xFF, partnerLate := false,
                                 mirrorAt := [], noContactSince := d.clock, healing := [] } d
  if d.pair.mode != 1 || d.pair.pulse != some 0 then d
  else if d.pair.role = 2 then if takesOver d then d else changeRole 3 10 d
  else if d.pair.role = 1 then suspendPromise d
  else d

/-- TETHER_LINK_DOWN (R317): a lane is down, and with it the PCS. -/
def execTetherLinkDown (t lane : Nat) (s : State) : Host.Outcome State Fault Refusal :=
  act (fun d =>
    let d := report (0xD00 + lane % 4) 0x2B 0 (advance t d)
    if !d.pair.pcsUp then d
    else
      let was := d.pair.tetherUp
      let d := raise 0x0C02 0xFFFF 0 [] (setPair { d.pair with pcsUp := false } d)
      if was then loseTether d else d) s

/-- HEARTBEAT_TIMEOUT (R313): no HEARTBEAT for 4 µs while the PCS is up. -/
def execHeartbeatTimeout (t : Nat) (s : State) : Host.Outcome State Fault Refusal :=
  act (fun d =>
    let d := advance t d
    if d.pair.tetherUp && d.pair.pcsUp && !hasHeartbeat d then loseTether (raise 0x0C02 0xFFFF 1 [] d) else d) s

/-- CONTACT_LOST (R313, R318): neither Tether nor Pulse. The ACTIVE or SOLO unit goes on or freezes as the Witness rules; the STANDBY's
decision follows (R316). -/
def execContactLost (t : Nat) (s : State) : Host.Outcome State Fault Refusal :=
  act (fun d =>
    let d := advance t d
    if d.pair.mode != 1 || !d.pair.contact || !contactLost d then d
    else
      let d := setPair { d.pair with contact := false, partnerRole := 0xFF, noContactSince := d.clock } d
      match d.pair.role with
      | 0 => if maySend d then resumePromise d else changeRole 4 15 (freeze d)
      | 1 => if maySend d then resumePromise (changeRole 0 16 d) else changeRole 4 15 (freeze d)
      | 2 => if d.pair.trigger.isNone then setPair { d.pair with trigger := some (d.clock, 8, false) } d else d
      | _ => d) s

-- The handshake (R298, R301) ------------------------------------------------------------------------------------------------------

/-- The body of a HELLO: serial number, stepping, firmware release, PAIR_ID, unit number, ROLE_PREF, DOWNSTREAM. -/
def helloBody (d : Dev) : List Byte :=
  (List.range 16).map Config.serial ++ [0x42, 0x30] ++ be 2 d.helm.fwRelease ++ be 4 d.pair.pairId ++ be 1 (unitNo d) ++ be 1 (b2n d.pair.rolePref)
    ++ be 1 d.pair.downstream

/-- Why pairing is refused, 0 where it is not: the first cause of R301's table that holds. -/
def refusal (d : Dev) (body : List Byte) (latency : Nat) : Nat :=
  if beAt body 20 4 != d.pair.pairId then 1
  else if (beAt body 25 1 != 0) == d.pair.rolePref then 2
  else if slice body 16 2 != [0x42, 0x30] || beAt body 18 2 != d.helm.fwRelease then 3
  else if latency > 300 then 4
  else if beAt body 26 1 != d.pair.downstream then 5
  else 0

/-- Sends HELLO in pair mode over a PCS that is up. -/
def sendHello (d : Dev) : Dev := if d.pair.mode = 1 && d.pair.pcsUp then tetherSend 0x20 (helloBody d) d else d

/-- TETHER_LINK_UP (R301). -/
def execTetherLinkUp (t : Nat) (s : State) : Host.Outcome State Fault Refusal :=
  act (fun d =>
    let d := advance t d
    let d := [0xD00, 0xD01, 0xD02, 0xD03].foldl (fun d src => endCondition src 0x2B d) d
    sendHello (setPair { d.pair with pcsUp := true, refused := 0 } d)) s

/-- HELLO_SEND (R299): every 1 ms until paired. -/
def execHelloSend (t : Nat) (s : State) : Host.Outcome State Fault Refusal :=
  act (fun d => let d := advance t d; if d.pair.tetherUp then d else sendHello d) s

/-- HELLO_RECEIVE (R298, R301): `latency` is what the unit measures at the handshake, in ns. A unit already paired answers, so that its
partner pairs too; the numbers of MIRROR messages start again (log 16). -/
def execHelloReceive (t : Nat) (body : List Byte) (latency : Nat) (s : State) : Host.Outcome State Fault Refusal :=
  act (fun d =>
    let d := advance t d
    if d.pair.mode != 1 || !d.pair.pcsUp then d
    else
      let cause := refusal d body latency
      let d := setPair { d.pair with hello := body, latency := min latency 0xFFFF } d
      if cause != 0 then
        let was := d.pair.tetherUp
        let d := raise 0x0C02 0xFFFF 2 [] (raise 0x0C04 0xFFFF cause [] (setPair { d.pair with refused := cause } d))
        if was then loseTether d else d
      else if d.pair.tetherUp then sendHello d
      else
        let p := d.pair
        raise 0x0C03 0xFFFF d.pair.latency []
          (setPair { p with refused := 0, tetherUp := true, tetherSince := some d.clock, hbAt := some d.clock, handshake := true, contact := true,
                            partnerRole := 0xFF, partnerLate := false, msgSeq := tput 0 0x24 0 p.msgSeq, mirrorNext := 0, mirrorIn := [],
                            mirrorPart := [], mirrorAt := [], unacked := [], controlSeen := [], newestRecv := none, segments := [], partialAt := [],
                            missing := [], disputeNext := none } d)) s

/-- TETHER_ECHO (R298): the latency that the unit measures. -/
def execTetherEcho (t latency : Nat) (s : State) : Host.Outcome State Fault Refusal :=
  act (fun d => let d := advance t d; if d.pair.pcsUp then setPair { d.pair with latency := min latency 0xFFFF } d else d) s

-- Heartbeats (R306, R307, R313) ------------------------------------------------------------------------------------------------------

/-- FLAGS of the health record (R311). -/
def healthFlags (good : Bool) (d : Dev) : Nat :=
  b2n good + 2 * b2n (d.pair.sync == 3) + 4 * b2n d.pair.tetherUp + 8 * b2n d.pair.pulse.isSome + 16 * b2n (witnessVerdict d).isSome
    + 32 * b2n (decide (d.pair.testsRun < 1000))

/-- GOOD so far: nothing failed, the servo LOCKED or in HOLDOVER, no stamp SUSPECT, and a STANDBY synchronous (R311). -/
def goodNow (d : Dev) : Bool :=
  !d.pair.bad && (d.time.servo == 2 || d.time.servo == 3) && d.time.mismatch.isNone && !d.time.unresolved
    && !(d.time.islands.any fun (_, x) => x.suspect) && (d.pair.role != 2 || d.pair.sync == 3)

/-- The echo of the partner's last SENT_TICKS, moved on by the time that this unit has kept it, so that the partner finds the round trip in
it; 0 for none (R307; DESIGN CHOICE, log 56). -/
def echoTicks (d : Dev) : Nat := match d.pair.hbSent with | some (sent, at_) => sent + (d.clock - at_) | none => 0

/-- The body of a HEARTBEAT. -/
def heartbeatBody (d : Dev) : List Byte :=
  be 1 d.pair.role ++ be 2 (healthFlags (goodNow d) d) ++ be 4 (d.pair.newestRecv.getD 0xFFFFFFFF) ++ be 8 (echoTicks d)
    ++ be 1 d.time.src ++ be 1 d.time.servo ++ be 4 d.time.west.servoTerm ++ be 2 (stampAt d 0x49 0).bound

/-- HEARTBEAT_SEND (R299): every 1 µs. -/
def execHeartbeatSend (t : Nat) (s : State) : Host.Outcome State Fault Refusal :=
  act (fun d =>
    let d := advance t d
    if d.pair.mode = 1 && d.pair.tetherUp then tetherSend 0x21 (heartbeatBody d) d else d) s

/-- A planned swap that this unit asked for or made has ended: the new ACTIVE sends (R322). -/
def endPlanned (status : Nat) (d : Dev) : Dev :=
  match d.pair.planned with
  | some (_, tk) => completeOpt tk status [] (setPair { d.pair with planned := none, plannedSent := false } d)
  | none => d

/-- The partner is STANDBY again after its resynchronisation: acceptance resumes in the streams that had diverged when it asked for one
(R43, R319). -/
def healStreams (d : Dev) : Dev :=
  { d with guard := { d.guard with streams := d.guard.streams.map fun (k, x) => (k, { x with diverged := x.diverged && !d.pair.healing.contains k }) },
           pair := { d.pair with healing := [] } }

/-- A sending unit takes its partner's request for a resynchronisation, which will heal the streams diverged now (R43, R319). -/
def noteHealing (d : Dev) : Dev :=
  setPair { d.pair with healing := d.guard.streams.filterMap fun (k, x) => if x.diverged then some k else none } d

/-- The role rows that the partner's role decides (R313 causes 1, 2, 14, 17, 18; R43, R317). -/
def compareRoles (d : Dev) : Dev :=
  let p := if d.pair.partnerLate && d.pair.partnerRole = 2 then 3 else d.pair.partnerRole
  let first := d.pair.handshake && d.guard.cause == 0
  if first && d.pair.role = 4 && p ≤ 1 then changeRole 3 1 d
  else if first && d.pair.role = 4 && p = 4 && d.pair.rolePref then takeover 2 d
  else if first && d.pair.role = 0 && p = 0 && !d.pair.rolePref then changeRole 4 18 (freeze d)
  else if d.pair.role = 1 && (p = 3 || p = 4) then changeRole 0 14 d
  else if d.pair.role ≤ 1 && p = 2 then
    let d := if d.pair.role = 0 then changeRole 1 17 d else d
    resumePromise (healStreams d)
  else d

/-- The difference of the two units' device times, from the partner's SENT_TICKS and half the round trip that the echo of this unit's own
measures (R307). -/
def timeDifference (d : Dev) (sent echo : Nat) : Int := (sent : Int) + ((tetherTicks d : Int) - echo) / 2 - tetherTicks d

/-- The comparison of device times (R307), from the first HEARTBEAT with an echo on. -/
def compareTimes (sent echo bound : Nat) (d : Dev) : Dev :=
  let diff := if echo = 0 then 0 else timeDifference d sent echo
  let off := decide (diff.natAbs > bound + (stampAt d 0x49 0).bound + 32)
  let d := if off && !d.pair.timeOff then raise 0x0C08 0xFFFF (unsigned 32 diff) [] d else d
  let d := setPair { d.pair with timeOff := off } d
  if off then standbyStale d else d

/-- A report is asked for (R306). -/
def askReport (at_ n : Nat) (d : Dev) : Dev :=
  tetherKeep 0x28 (controlBody 4 n) none true
    (setPair { d.pair with missing := d.pair.missing ++ [(n, at_)], partialAt := d.pair.partialAt.filter fun e => e.1 != n } d)

/-- Reports of which segments are still missing when the next report was due, 256 ns after their first message, are asked for (R49, R306). -/
def askPartial (d : Dev) : Dev :=
  (d.pair.partialAt.filter fun e => decide (d.clock - e.2 ≥ 4096)).foldl (fun d e => askReport e.2 e.1 d) d

/-- HEARTBEAT_RECEIVE (R306, R307, R313). -/
def execHeartbeatReceive (t : Nat) (msg : TMsg) (s : State) : Host.Outcome State Fault Refusal :=
  onTether t msg (fun d =>
    let b := msg.body
    let role := beAt b 0 1
    if role > 4 then d
    else
      let late := d.pair.partnerLate && role != 3 && role != 4
      let d := setPair { d.pair with partnerRole := role, partnerLate := late, hbAt := some d.clock, hbSent := some (msg.sent, d.clock), contact := true,
                                     partnerServo := some (beAt b 15 1, beAt b 16 1, beAt b 17 4) } d
      let d := if d.pair.role = 2 && role ≤ 1 && d.pair.plannedSent then endPlanned stOk d else d
      compareTimes msg.sent (beAt b 7 8) (beAt b 21 2) (askPartial (compareRoles (applyMirrors d)))) s

-- Sent reports (R49, R50, R306) ---------------------------------------------------------------------------------------------------------

/-- The messages of a report: up to four of up to 128 entries, the last with LAST (R299). -/
def reportBodies (r : Report) : List (List Byte) :=
  let n := max 1 (ceilDiv r.entries.length 128)
  (List.range n).map fun k =>
    be 4 r.num ++ be 1 (b2n r.final + 2 * b2n r.planned + 4 * b2n (k + 1 == n) + 8 * (k % 4))
      ++ ((r.entries.drop (128 * k)).take 128).flatMap fun e => be 4 e.1 ++ be 4 e.2

def sendReport (r : Report) (d : Dev) : Dev := (reportBodies r).foldl (fun d b => tetherSend 0x23 b d) d

/-- A new report of the slots that changed since the last, at most 512 (R49, R50). -/
def newReport (final planned : Bool) (d : Dev) : Dev :=
  let keys := d.guard.changed.take 512
  let entry := fun k => (k, (((streamOf d (k / 4)).slots[k % 4]?).map (·.lastSent)).getD 0)
  let r : Report := { num := d.pair.nextReport, final, planned, entries := keys.map entry }
  sendReport r { d with pair := { d.pair with nextReport := (r.num + 1) % 2 ^ 32, reports := (r :: d.pair.reports).take 16 },
                        guard := { d.guard with changed := d.guard.changed.drop 512 } }

/-- SENT_REPORT_SEND (R49): every 256 ns, while the last-sent table is open. -/
def execSentReportSend (t : Nat) (s : State) : Host.Outcome State Fault Refusal :=
  act (fun d =>
    let d := advance t d
    if d.pair.mode = 1 && d.pair.tetherUp && d.pair.role ≤ 1 && !d.guard.closed then newReport false false d else d) s

/-- A planned swap's copies have all been sent: the table closes, FINAL with PLANNED leaves, and the old ACTIVE is STANDBY (R316,
R313 cause 13). -/
def finishPlanned (d : Dev) : Dev :=
  let busy := (transmitting d).any fun i => (copyOf d i).slot.isSome
  if busy then d
  else
    let d := newReport true true { d with guard := { d.guard with closed := true, finalDue := false, finalSent := true } }
    unfreeze (changeRole 2 13 (setPair { d.pair with plannedSent := true } d))

/-- PLANNED_SWAP_BEAT (R316): from beat N on the ACTIVE starts no new guarded copy. -/
def execPlannedSwapBeat (t : Nat) (s : State) : Host.Outcome State Fault Refusal :=
  act (fun d =>
    let d := advance t d
    match d.pair.planned with
    | some (beat, _) =>
      if d.pair.role = 1 && d.pair.tetherUp && !d.guard.frozen && decide (beat ≤ coreTicks d.time.west / 4096) then
        finishPlanned { d with guard := { d.guard with frozen := true, frozenAt := some d.clock, finalDue := true, finalSent := false } }
      else d
    | none => d) s

/-- FINAL_REPORT_SEND (R50 step 4, R316): the FINAL report of a freeze, or of a planned swap once its copies have been sent. -/
def execFinalReportSend (t : Nat) (s : State) : Host.Outcome State Fault Refusal :=
  act (fun d =>
    let d := advance t d
    if d.pair.mode != 1 || !d.guard.finalDue || !d.pair.tetherUp then d
    else if d.pair.role = 1 && !d.guard.closed && d.pair.planned.isSome then finishPlanned d
    else newReport true false { d with guard := { d.guard with finalDue := false, finalSent := true } }) s

/-- A slot's reported last-sent value is taken where it is newer; Hold copies it frees go, but on a FENCED unit (R46, R296, R306). -/
def takeLastSent (key seq : Nat) (d : Dev) : Dev :=
  let s := key / 4
  let st := streamOf d s
  let slots := (st.slots.zipIdx).map fun (x, i) => if i = key % 4 && seqAfter seq x.lastSent then { x with lastSent := seq } else x
  let d := setStream s { st with slots } d
  if d.pair.role = 4 then d else freeHolds s d

/-- The highest report number seen, whole or in part. -/
def highestReport (p : Pair) : Option Nat :=
  let all := p.newestRecv.toList ++ p.segments.map (·.1) ++ p.missing.map (·.1)
  all.foldl (fun (a : Option Nat) n => match a with | none => some n | some m => some (if seqAfter n m then n else m)) none

/-- Every segment up to the one with LAST has come. -/
def wholeReport (p : Pair) (n : Nat) : Bool :=
  let mine := p.segments.filter fun e => e.1 == n
  match mine.find? fun e => e.2.2 with
  | some e => (List.range (e.2.1 + 1)).all fun k => mine.any fun x => x.2.1 == k
  | none => false

/-- Report numbers that are now known to be missing, in whole or in part, once report `n` has come (R306). -/
def nowMissing (p : Pair) (n : Nat) : List Nat :=
  match highestReport p with
  | none => []
  | some h =>
    if !seqAfter n h then []
    else
      let part := if p.segments.any (fun e => e.1 == h) && !(p.missing.any fun e => e.1 == h) then [h] else []
      let gap := (n + 2 ^ 32 - h) % 2 ^ 32 - 1
      part ++ (List.range gap).map fun k => (h + 1 + k) % 2 ^ 32

/-- A segment that comes before one that it should follow shows that one missing (R306). -/
def holed (p : Pair) (n seg : Nat) : Bool :=
  !(p.missing.any fun e => e.1 == n) && (List.range seg).any fun k => !(p.segments.any fun e => e.1 == n && e.2.1 == k)

/-- The numbering of a report's message: what is missing is asked for, and a report that is whole counts (R306). -/
def noteReport (n seg : Nat) (last : Bool) (d : Dev) : Dev :=
  let ms := nowMissing d.pair n
  let d := ms.foldl (fun d m => askReport d.clock m d) d
  let d := if holed d.pair n seg then askReport d.clock n d else d
  let p := { d.pair with segments := if d.pair.segments.contains (n, seg, last) then d.pair.segments else d.pair.segments ++ [(n, seg, last)] }
  if wholeReport p n then
    let newest := match p.newestRecv with | some m => if seqAfter n m then n else m | none => n
    setPair { p with segments := p.segments.filter fun e => e.1 != n, missing := p.missing.filter fun e => e.1 != n,
                     partialAt := p.partialAt.filter fun e => e.1 != n, newestRecv := some newest } d
  else if (p.missing ++ p.partialAt).any fun e => e.1 == n then setPair p d
  else setPair { p with partialAt := p.partialAt ++ [(n, d.clock)] } d

/-- The entries of a SENT message. -/
def sentEntries (b : List Byte) : List (Nat × Nat) :=
  (List.range ((b.length - 5) / 8)).map fun k => (beAt b (5 + 8 * k) 4, beAt b (9 + 8 * k) 4)

/-- SENT_RECEIVE (R306, R313 cause 7): a unit that does not send takes its partner's values; the FINAL report triggers the STANDBY's
takeover. -/
def execSentReceive (t : Nat) (msg : TMsg) (s : State) : Host.Outcome State Fault Refusal :=
  onTether t msg (fun d =>
    let b := msg.body
    let flags := beAt b 4 1
    if d.pair.role ≤ 1 || b.length < 5 then d
    else
      let d := (sentEntries b).foldl (fun d e => if e.1 < 2 ^ 18 then takeLastSent e.1 e.2 d else d) d
      let n := beAt b 0 4
      let d := noteReport n (bitsOf flags 4 3) (bitOf flags 2) d
      if bitOf flags 0 && d.pair.role = 2 && !(d.pair.segments.any fun e => e.1 == n) then
        let at_ := match d.pair.trigger with | some (a, _, _) => a | none => d.clock
        setPair { d.pair with trigger := some (at_, 7, true) } d
      else d) s

/-- SENT_REPORT_TIMEOUT (R306): a report missing for 2 µs, whole or in part, makes the receiver STALE. -/
def execSentReportTimeout (t : Nat) (s : State) : Host.Outcome State Fault Refusal :=
  act (fun d =>
    let d := advance t d
    if (d.pair.missing ++ d.pair.partialAt).any fun e => decide (d.clock - e.2 ≥ 32000) then
      standbyStale (setPair { d.pair with missing := [], partialAt := [] } d)
    else d) s

-- Receipts and disputes (R41, R43, R308, R309, R319) --------------------------------------------------------------------------------------

/-- What the unit committed in a stream under numbers that no longer hold is forgotten (R319). -/
def forgetRecent (stream : Nat) (d : Dev) : Dev := setPair { d.pair with recent := d.pair.recent.filter fun x => x.stream != stream } d

/-- A STALE unit aligns a stream: its own earliest frame of the last 1 µs with the receipt's digest takes the receipt's sequence, and
later frames are numbered from it; the first sequence held from here on is the cut, and what was committed under the earlier numbers is
compared no more (R319 step 4). -/
def alignStream (r : Receipt) (d : Dev) : Dev :=
  let st := streamOf d r.stream
  if d.pair.role != 3 || d.pair.sync != 2 || st.cut.isSome || st.slots.isEmpty then d
  else
    match d.pair.recent.find? fun x => x.stream == r.stream && x.digest == r.digest && decide (d.clock - x.at_ ≤ 16000) with
    | none => d
    | some x =>
      let n := (r.seq + (st.next + 2 ^ 32 - x.seq)) % 2 ^ 32
      forgetRecent r.stream (setStream r.stream { st with next := n, cut := some n, diverged := false } d)

/-- The entries of a RECEIPT message. -/
def receiptEntries (b : List Byte) (clock : Nat) : List Receipt :=
  (List.range (b.length / 16)).map fun k =>
    { stream := beAt b (16 * k) 2, seq := beAt b (16 * k + 4) 4, digest := beAt b (16 * k + 8) 4, decision := beAt b (16 * k + 12) 4, at_ := clock }

/-- One receipt: it aligns a stream, is compared with the unit's own frame, and meets the frame that awaits it; one that comes first
waits (R41, R308, R319). -/
def takeReceipt (r : Receipt) (d : Dev) : Dev :=
  let d := compareReceipt r (alignStream r d)
  let waits := d.pair.receipts.filter fun x => decide (d.clock - x.at_ ≤ 64000) && !(x.stream == r.stream && x.seq == r.seq)
  let d := setPair { d.pair with receipts := waits ++ [r] } d
  match d.frames.find? fun (_, f) => f.stream == some r.stream && f.seq == some r.seq && f.confirmed.isSome && f.outcome.isNone with
  | some (i, _) => meetReceipt i d
  | none => d

/-- RECEIPT_RECEIVE (R308). -/
def execReceiptReceive (t : Nat) (msg : TMsg) (s : State) : Host.Outcome State Fault Refusal :=
  onTether t msg (fun d => ((receiptEntries msg.body d.clock).take 64).foldl (fun d r => takeReceipt r d) d) s

/-- DISPUTE_WINDOW_CLOSE (R308): once the 256 ns of the oldest window with a dispute have passed, its first four disputed frames are
re-evaluated; the others are only counted. They wait while the Steward's queue has no room (R383). -/
def execDisputeWindowClose (t : Nat) (s : State) : Host.Outcome State Fault Refusal :=
  act (fun d =>
    let d := advance t d
    match d.pair.disputed with
    | [] => d
    | w :: _ =>
      if tetherTicks d / 4096 ≤ w.window || opVerdict d 0x10 0 != stOk then d
      else
        let (ws, later) := d.pair.disputed.partition fun x => x.window == w.window
        addHwOp 0x10 ((ws.take 4).flatMap disputeBytes) 0 (setPair { d.pair with disputed := later } d)) s

/-- DISPUTE messages were lost: the disputes that this unit settled with agreement and match, and of which its partner's message has not
come, are unresolved (R299, R309). -/
def disputesLost (d : Dev) : Dev :=
  let waits := d.pair.settled.filter fun x => x.2.2.1 && !(d.pair.theirSettled.any fun e => e.1 == x.1 && e.2.1 == x.2.1)
  waits.foldl (fun d x => unresolvedDispute x.1 x.2.1 x.2.2.2.1 x.2.2.2.2 d)
    (setPair { d.pair with settled := d.pair.settled.filter fun x => !waits.contains x } d)

/-- DISPUTE_RECEIVE (R309); its number tells whether others were lost before it (R299). -/
def execDisputeReceive (t : Nat) (msg : TMsg) (s : State) : Host.Outcome State Fault Refusal :=
  onTether t msg (fun d =>
    let b := msg.body
    let e := (beAt b 0 2, beAt b 2 4, beAt b 6 1 != 0 && beAt b 7 1 != 0)
    let gap := match d.pair.disputeNext with | some n => n != msg.seq | none => false
    let d := setPair { d.pair with theirSettled := e :: d.pair.theirSettled.take 63, disputeNext := some ((msg.seq + 1) % 2 ^ 32) } d
    matchDispute e.1 e.2.1 (if gap then disputesLost d else d)) s

-- Health (R311, R312) ------------------------------------------------------------------------------------------------------------------

/-- The 64-byte health record. -/
def healthBytes (good : Bool) (corrected uncorrectable : Nat) (d : Dev) : List Byte :=
  let p := d.pair
  le 8 (islandTicks d 0x4C) ++ le 1 (unitNo d) ++ le 1 p.role ++ le 2 (healthFlags good d)
    ++ le 4 (if good then (d.clock - p.goodSince) / 16000000000 else 0) ++ le 4 p.testsRun ++ le 4 p.testsFailed ++ le 4 p.scrubCorr
    ++ le 4 p.scrubUncorr ++ le 4 corrected ++ le 4 uncorrectable ++ le 2 p.latency ++ le 2 (ceilDiv d.guard.holdUsed 1024)
    ++ le 4 p.periodDisputes ++ le 4 ((d.guard.streams.filter fun (_, x) => x.diverged).length) ++ le 12 0

/-- HEALTH_SEND (R311): every 1 ms, on the Tether and to the ring `pair.configure` names. `corrected` and `uncorrectable` are the
Tether codewords that its FEC counted in the period. A condition of GOOD that fails at the new period's start fails in it. -/
def execHealthSend (t corrected uncorrectable : Nat) (s : State) : Host.Outcome State Fault Refusal :=
  act (fun d =>
    let d := advance t d
    let d := if uncorrectable = 0 then d else noteBad d
    let good := goodNow d
    let b := healthBytes good corrected uncorrectable d
    let d := if d.pair.mode = 1 && d.pair.tetherUp then tetherSend 0x26 b d else d
    let p := d.pair
    let fresh := !goodNow (setPair { p with bad := false } d)
    setPair { p with goodSince := if good then p.goodSince else d.clock, bad := fresh, testsRun := 0, testsFailed := 0, scrubCorr := 0, scrubUncorr := 0,
                     periodDisputes := 0, healthOut := if p.healthRing.isSome then p.healthOut ++ [b] else p.healthOut } d) s

/-- HEALTH_RECEIVE (R311). -/
def execHealthReceive (t : Nat) (msg : TMsg) (s : State) : Host.Outcome State Fault Refusal :=
  onTether t msg (fun d => setPair { d.pair with partnerHealth := padTo 64 msg.body } d) s

/-- TEST_HEADER (R312): a test header has run in an idle slot of a Basin, and the re-lookup path gives the same result or another. -/
def execTestHeader (t _basin : Nat) (good : Bool) (s : State) : Host.Outcome State Fault Refusal :=
  act (fun d =>
    let d := advance t d
    let d := setPair { d.pair with testsRun := d.pair.testsRun + 1 } d
    if good then d else noteBad (setPair { d.pair with testsFailed := d.pair.testsFailed + 1 } d)) s

-- Resynchronisation (R319, R320) ------------------------------------------------------------------------------------------------------

/-- Steps 4 to 6 begin: every stream is aligned anew, or with scope STREAMS the diverged ones, the others going on from their next
sequence (R319). -/
def startAlign (scope : Nat) (d : Dev) : Dev :=
  let one := fun (x : Stream) => if scope = 0 || x.diverged then { x with cut := none } else { x with cut := some x.next }
  setPair { d.pair with sync := 2, alignAt := some d.clock }
    { d with guard := { d.guard with streams := d.guard.streams.map fun (k, x) => (k, one x), closed := false } }

/-- The STALE unit asks for a resynchronisation (R319 step 1). -/
def beginResync (scope : Nat) (ticket : Option Nat) (d : Dev) : Dev :=
  let d := setPair { d.pair with resync := some (scope, ticket, false), sync := 1, newestRecv := none, segments := [], partialAt := [], missing := [] } d
  let d := tetherKeep 0x28 (controlBody (2 + scope) 0) none true d
  if scope = 1 then startAlign 1 d else d

/-- What made the unit STALE no longer holds: guard-bit faults, mismatch, time difference, links of guarded Ports; and after a Tether
loss the Tether has been up for 1 ms (R317, R319). -/
def causeCleared (d : Dev) : Bool :=
  let ports := d.guard.streams.flatMap fun (_, x) => if x.slots.isEmpty then [] else x.ingress :: x.slots.map (·.port)
  !(d.coll.present.any fun (src, ks) => tget false d.coll.guard src && ks.any isGuardKind) && d.time.mismatch.isNone && !d.pair.timeOff
    && ports.all (fun p => (tget {} d.ports p).state == 4)
    && match d.pair.tetherSince with | some a => decide (d.clock - a ≥ 16000000) || d.pair.lastCause != 10 | none => false

/-- RESYNC_START (R319): AUTO_RESYNC. -/
def execResyncStart (t : Nat) (s : State) : Host.Outcome State Fault Refusal :=
  act (fun d =>
    let d := advance t d
    if d.pair.mode = 1 && d.pair.role = 3 && d.pair.autoResync && d.pair.tetherUp && hasHeartbeat d && d.pair.resync.isNone && d.guard.cause = 0
        && causeCleared d && d.helm.state = 1 then beginResync 0 none d else d) s

/-- SNAPSHOT_RECEIVE (R319 step 3, R426): while Helm is READY it is written, and both generations' digests compared; a difference repeats the snapshot once. -/
def execSnapshotReceive (t seq : Nat) (data : Snapshot) (s : State) : Host.Outcome State Fault Refusal :=
  act (fun d =>
    let d := advance t d
    if d.pair.mode != 1 || !d.pair.tetherUp || d.helm.state != 1 then d
    else
      let d := tetherAck 0x27 seq d
      match d.pair.resync with
      | some (0, tk, again) =>
        if d.pair.role != 3 || d.pair.sync != 1 then d
        else
          let d := writeSnapshot data d
          if genDigest d 0 == data.digestA && genDigest d 1 == data.digestB then
            startAlign 0 (setPair { d.pair with snapNext := data.streams.map fun (k, x) => (k, x.next) } d)
          else if again then failResync 3 d
          else tetherKeep 0x28 (controlBody 2 0) none true (setPair { d.pair with resync := some (0, tk, true) } d)
      | _ => d) s

/-- STREAM_ALIGN_TIMEOUT (R319 step 4): 10 µs after step 3 a stream without a receipt takes the snapshot's next sequence. -/
def execStreamAlignTimeout (t : Nat) (s : State) : Host.Outcome State Fault Refusal :=
  act (fun d =>
    let d := advance t d
    match d.pair.alignAt with
    | some a =>
      if d.pair.role != 3 || d.pair.sync != 2 || d.clock - a < 160000 then d
      else
        let next := fun (k : Nat) (x : Stream) => ((d.pair.snapNext.find? fun e => e.1 == k).map (·.2)).getD x.next
        let one := fun (k : Nat) (x : Stream) =>
          if x.slots.isEmpty || x.cut.isSome then x else { x with next := next k x, cut := some (next k x), diverged := false }
        let late := d.guard.streams.filterMap fun (k, x) => if x.slots.isEmpty || x.cut.isSome then none else some k
        late.foldl (fun d k => forgetRecent k d) { d with guard := { d.guard with streams := d.guard.streams.map fun (k, x) => (k, one k x) } }
    | none => d) s

/-- Every stream is aligned, and every slot's reported last-sent has reached its cut minus 1 (R319 step 6). -/
def allAligned (d : Dev) : Bool :=
  d.guard.streams.all fun (_, x) => x.slots.isEmpty || match x.cut with
    | some c => x.slots.all fun sl => !seqAfter ((c + 2 ^ 32 - 1) % 2 ^ 32) sl.lastSent
    | none => false

/-- SYNCHRONOUS (R319 step 6, R313 cause 6). -/
def execSynchronous (t : Nat) (s : State) : Host.Outcome State Fault Refusal :=
  act (fun d =>
    let d := advance t d
    match d.pair.resync with
    | some (scope, tk, _) =>
      if d.pair.mode != 1 || d.pair.role != 3 || d.pair.sync != 2 || d.guard.cause != 0 || !d.pair.tetherUp || !allAligned d then d
      else
        let d := unfreeze (changeRole 2 6 d)
        let d := raise 0x0C09 0xFFFF scope [] (setPair { d.pair with resync := none, alignAt := none, snapNext := [] } d)
        completeOpt tk stOk [] { d with guard := { d.guard with streams := d.guard.streams.map fun (k, x) => (k, { x with cut := none }) } }
    | none => d) s

-- CONTROL and retransmission (R299, R306) --------------------------------------------------------------------------------------------------

/-- A planned swap starts: its beat is fixed at least 2 beats ahead and mirrored (R316). -/
def startPlanned (ticket : Option Nat) (d : Dev) : Dev :=
  let beat := coreTicks d.time.west / 4096 + 34
  mirror 0x0C03 beat [] none (setPair { d.pair with planned := some (beat, ticket), plannedSent := false } d)

/-- An acknowledgement: the message is no longer kept; a mirrored command whose local part is done completes (R305). -/
def takeAck (subtype seq : Nat) (d : Dev) : Dev :=
  let mine := fun (u : Unacked) => u.subtype == subtype && u.seq == seq
  let us := d.pair.unacked.filter mine
  let d := setPair { d.pair with unacked := d.pair.unacked.filter fun u => !mine u } d
  us.foldl (fun d u => match u.ticket with | some n => if u.localDone then finishTicket n u.result d else d | none => d) d

/-- What a CONTROL message asks: whether it is done, and acknowledged (log 16). A request to resynchronise waits for a READY Helm, which
accepts it (R319, R426). -/
def takeControl (what arg : Nat) (d : Dev) : Option Dev :=
  match what with
  | 1 => some (if d.pair.role = 1 && d.pair.planned.isNone then startPlanned none d else d)
  | 2 =>
    if d.pair.role > 1 || d.helm.state != 1 then none
    else if opVerdict d 0x11 0 = stConflict then none
    else some (addOp 0x11 0 0 [] [] 0 (noteHealing (setPair { d.pair with sending := true } d)))
  | 3 => if d.pair.role ≤ 1 && d.helm.state = 1 then some (noteHealing d) else none
  | 4 => some (match d.pair.reports.find? fun r => r.num == arg with | some r => sendReport r d | none => d)
  | 5 => some (failResync 2 d)
  | _ => some d

/-- CONTROL_RECEIVE (R306). -/
def execControlReceive (t : Nat) (msg : TMsg) (s : State) : Host.Outcome State Fault Refusal :=
  onTether t msg (fun d =>
    let what := beAt msg.body 0 2
    let arg := beAt msg.body 2 4
    if what ≥ 0x20 then takeAck what arg d
    else if d.pair.controlSeen.contains msg.seq then tetherAck 0x28 msg.seq d
    else
      match takeControl what arg d with
      | some d => tetherAck 0x28 msg.seq (setPair { d.pair with controlSeen := msg.seq :: d.pair.controlSeen.take 63 } d)
      | none => d) s

/-- Sends a kept message again, under its number. -/
def resend (u : Unacked) (d : Dev) : Dev :=
  if u.subtype = 0x27 then emit (.snapshot u.seq (tetherTicks d) (snapshotOf d)) d else emit (.tether u.subtype u.seq (tetherTicks d) u.body) d

/-- TETHER_RETRANSMIT (R299): messages not acknowledged for 10 µs are sent again. -/
def execTetherRetransmit (t : Nat) (s : State) : Host.Outcome State Fault Refusal :=
  act (fun d =>
    let d := advance t d
    if !d.pair.tetherUp then d
    else
      let due := fun (u : Unacked) => decide (d.clock - u.sentAt ≥ 160000)
      let us := d.pair.unacked.filter due
      let d := us.foldl (fun d u => resend u d) d
      setPair { d.pair with unacked := d.pair.unacked.map fun u => if due u then { u with sentAt := d.clock } else u } d) s

end Sys2Proof.Machine
end

