-- ==== Sys2Proof/Machine/Pair.lean ====
section
/-!
DEFINITION. The Pulse, the Witness, takeover, and the commands of a Pair (12_pairing.md).
-/

namespace Sys2Proof.Machine

-- The Pulse and the Witness (R302, R303, R318) --------------------------------------------------------------------------------------

/-- PULSE_PATTERN (R302): ALIVE, SAFE or LEAVING is recognised. The last two trigger the STANDBY's takeover, and leave the ACTIVE SOLO
(R313 causes 7 and 14). -/
def execPulsePattern (t pattern : Nat) (s : State) : Host.Outcome State Fault Refusal :=
  act (fun d =>
    let d := advance t d
    if pattern > 2 then d
    else
      let fresh := d.pair.pulse != some pattern
      let d := endCondition 0xD04 0x2D (setPair { d.pair with pulse := some pattern, pulseAt := d.clock, contact := true } d)
      if d.pair.mode != 1 || pattern = 0 || !fresh then d
      else if d.pair.role = 2 then
        if d.pair.trigger.isNone then setPair { d.pair with trigger := some (d.clock, 7, false) } d else d
      else if d.pair.role = 1 then resumePromise (changeRole 0 14 d)
      else if d.pair.role = 0 then resumePromise d
      else d) s

/-- PULSE_TIMEOUT (R302, R318): no pattern for 4 µs; while the Tether works PULSE_LOST is raised. -/
def execPulseTimeout (t : Nat) (s : State) : Host.Outcome State Fault Refusal :=
  act (fun d =>
    let d := advance t d
    if d.pair.pulse.isNone || d.clock - d.pair.pulseAt < 64000 then d
    else
      let d := report 0xD04 0x2D 0 (setPair { d.pair with pulse := none, noContactSince := d.clock } d)
      if d.pair.mode = 1 && hasHeartbeat d then raise 0x0C05 0xFFFF 0 [] d else d) s

/-- WITNESS_VERDICT (R303): GRANT or DENY on WITNESS_IN. -/
def execWitnessVerdict (t : Nat) (grant : Bool) (s : State) : Host.Outcome State Fault Refusal :=
  act (fun d => let d := advance t d; setPair { d.pair with witnessIn := some grant } d) s

/-- WITNESS_ABSENT (R303): no edge on WITNESS_IN for 1 µs, and a manager's verdict older than 4 µs is none. -/
def execWitnessAbsent (t : Nat) (s : State) : Host.Outcome State Fault Refusal :=
  act (fun d =>
    let d := advance t d
    let keep := match d.pair.managerVerdict with | some (g, a) => if d.clock - a < 64000 then some (g, a) else none | none => none
    setPair { d.pair with witnessIn := none, managerVerdict := keep } d) s

-- Becoming the sending unit (R313, R315, R316, R322) -----------------------------------------------------------------------------------

/-- START_WAIT_EXPIRY (R313 cause 3). -/
def execStartWaitExpiry (t : Nat) (s : State) : Host.Outcome State Fault Refusal :=
  act (fun d =>
    let d := advance t d
    if d.pair.mode = 1 && d.pair.role = 4 && d.guard.cause = 0 && contactLost d
        && decide (d.clock - d.pair.noContactSince ≥ d.pair.startWait * 16000000000) && maySend d then takeover 3 d else d) s

/-- TAKEOVER_DECISION (R315, R316): within 1 µs of its trigger; on SAFE or LEAVING it waits that long for a FINAL report. After a loss of
contact the Witness decides (R313 causes 7, 8, 9). MIRROR messages received before are applied, at once or as the Steward takes them (R305). -/
def execTakeoverDecision (t : Nat) (s : State) : Host.Outcome State Fault Refusal :=
  act (fun d =>
    let d := advance t d
    match d.pair.trigger with
    | none => d
    | some (at_, cause, final) =>
      let e := applyMirrors (setPair { d.pair with trigger := none } d)
      if d.pair.role != 2 then e
      else if cause = 7 then if final || d.clock - at_ ≥ 16000 then endPlanned stOk (takeover 7 e) else d
      else if !contactLost d then e
      else if maySend d then endPlanned stFault (takeover 8 e)
      else endPlanned stFault (changeRole 4 9 e)) s

/-- REVERTIVE_SWAP (R322): a preferred STANDBY hands back. -/
def execRevertiveSwap (t : Nat) (s : State) : Host.Outcome State Fault Refusal :=
  act (fun d =>
    let d := advance t d
    let p := d.pair
    if p.mode = 1 && p.revertive && p.rolePref && p.role = 2 && p.partnerRole = 1 && p.tetherUp && p.planned.isNone && p.resync.isNone && !p.sending
        && decide (d.clock - p.goodSince ≥ p.holdOff * 16000000000) && !(d.guard.streams.any fun (_, x) => x.diverged) then
      tetherKeep 0x28 (controlBody 1 0) none true (setPair { p with planned := some (0, none), plannedSent := false } d)
    else d) s

-- Commands (R321 to R324) ------------------------------------------------------------------------------------------------------------------

/-- The MODE, PAIR_ID or DOWNSTREAM may change: SOLO with no partner in contact, STALE or FENCED (R321). -/
def pairIdle (d : Dev) : Bool := d.pair.role ≥ 3 || (d.pair.role == 0 && !hasHeartbeat d && d.pair.pulse.isNone)

/-- A change of MODE: a solo unit has role SOLO (R295); a unit that enters pair mode keeps the role it has (log 46). -/
def changeMode (m : Nat) (d : Dev) : Dev :=
  if d.pair.mode = m then d
  else
    let d := setPair { d.pair with mode := m, noContactSince := d.clock, contact := false, partnerRole := 0xFF } d
    if m = 1 then sendHello d
    else
      let d := setPair { d.pair with role := 0, sync := 0, tetherUp := false, tetherSince := none, resync := none, unacked := [], planned := none } d
      if d.guard.cause = 0 && !d.guard.leaving then unfreeze d else d

/-- PAIR_CONFIGURE (R321). -/
def execPairConfigure (c : Cmd) (s : State) : Host.Outcome State Fault Refusal :=
  cmd 0x0C01 16 4 c (fun q fn d =>
    let p := d.pair
    let off := orDefault (u16 q 8) 60
    let wait := orDefault (u16 q 10) 10
    if u8 q 4 > 1 || u8 q 5 > 2 || u8 q 6 > 2 || u8 q 7 > 3 || !within off 1 3600 || !within wait 1 600 || !nameable d fn (u16 q 12) p.healthRing
        || u16 q 14 != 0 then rej stRange d
    else if (u8 q 4 != p.mode || u32 q 0 != p.pairId || u8 q 5 != p.downstream) && !pairIdle d then rej stConflict d
    else
      okay (changeMode (u8 q 4) (setPair { p with pairId := u32 q 0, downstream := u8 q 5, witness := u8 q 6, revertive := bitOf (u8 q 7) 0,
                                                  autoResync := bitOf (u8 q 7) 1, holdOff := off, startWait := wait, healthRing := ringName (u16 q 12) } d))) s

/-- PAIR_STATUS (R323). -/
def execPairStatus (c : Cmd) (s : State) : Host.Outcome State Fault Refusal :=
  cmd 0x0C02 4 36 c (fun q _ d =>
    let p := d.pair
    let links := b2n p.tetherUp + 2 * b2n p.pulse.isSome + 4 * b2n (witnessVerdict d).isSome + 8 * b2n ((witnessVerdict d).getD false)
    if !zerosAt q 0 4 then rej stRange d
    else
      { dev := d, status := stOk,
        body := le 1 p.role ++ le 1 p.partnerRole ++ le 1 (unitNo d) ++ le 1 links ++ le 1 (acceptCond d) ++ le 1 p.sync ++ le 2 p.latency
          ++ le 2 p.lastCause ++ le 4 ((d.guard.streams.filter fun (_, x) => x.diverged).length) ++ le 8 p.disputes ++ stampBytes p.roleSince }) s

/-- A planned swap may start: the units are ACTIVE and a synchronous STANDBY (R322). -/
def mayPlan (d : Dev) : Bool :=
  d.pair.tetherUp && ((d.pair.role == 1 && d.pair.partnerRole == 2) || (d.pair.role == 2 && d.pair.sync == 3 && d.pair.partnerRole == 1))

/-- PAIR_TAKEOVER (R322): PLANNED from either unit; FORCE on a FENCED or STALE unit without contact (R313 causes 4, 21). -/
def execPairTakeover (c : Cmd) (s : State) : Host.Outcome State Fault Refusal :=
  cmd 0x0C03 4 8 c (fun q fn d =>
    if u8 q 0 > 1 || !zerosAt q 1 3 then rej stRange d
    else if d.pair.mode != 1 then rej stDenied d
    else if u8 q 0 = 0 then
      if !mayPlan d then rej stStale d
      else if d.pair.planned.isSome then rej stConflict d
      else
        pend fn d (fun n d =>
          if d.pair.role = 1 then startPlanned (some n) d
          else tetherKeep 0x28 (controlBody 1 0) none true (setPair { d.pair with planned := some (0, some n), plannedSent := false } d))
    else if d.pair.role < 3 || hasHeartbeat d || d.pair.pulse.isSome || d.guard.cause != 0 then rej stConflict d
    else if d.pair.role = 4 then okay (takeover 4 d)
    else okay (unfreeze (changeRole 0 21 d))) s

/-- PAIR_DIGEST (R310, R324): mirrored from the sending unit (R304, R305). -/
def execPairDigest (c : Cmd) (s : State) : Host.Outcome State Fault Refusal :=
  cmd 0x0C04 36 4 c (fun q _ d =>
    if !sendingUnit d then rej stDenied d
    else if u8 q 0 > 1 || !zerosAt q 1 3 then rej stRange d
    else okay (mirror 0x0C04 0 (q.take 36) none (publish (u8 q 0) (slice q 4 32) d))) s

/-- PAIR_RESYNC (R319, R324): a FENCED unit becomes STALE (R313 cause 5). -/
def execPairResync (c : Cmd) (s : State) : Host.Outcome State Fault Refusal :=
  cmd 0x0C05 4 8 c (fun q fn d =>
    if u8 q 0 > 1 || !zerosAt q 1 3 then rej stRange d
    else if d.pair.mode != 1 || d.pair.role < 3 then rej stDenied d
    else if !d.pair.tetherUp then rej stStale d
    else if d.pair.resync.isSome then rej stBusy d
    else
      pend fn d (fun n d =>
        let d := if d.pair.role = 4 then changeRole 3 5 d else d
        beginResync (u8 q 0) (some n) d)) s

end Sys2Proof.Machine
end

