-- ==== Sys2Proof/Machine/Power.lean ====
section
/-!
DEFINITION. Power, resets and bring-up (20_power_bringup.md), the thermal sensors (R4, R498) and the patch image that a reset loads
(R377).
-/

namespace Sys2Proof.Machine

def setPower (x : Power) (d : Dev) : Dev := { d with power := x }

-- Cold resets (R465 to R467, R474, R477, R478) --------------------------------------------------------------------------------------

/-- Helm asks the Steward for PATCH_LOAD before any other operation, where its firmware carries an image (R377, R478): it goes ahead of those
that stand in the queue. -/
def askPatch (image : Option (List Byte)) (d : Dev) : Dev :=
  match image with
  | none => d
  | some b =>
    let w := d.steward
    { d with steward := { w with ops := { id := w.nextOp, code := 0x13, host := b } :: w.ops, nextOp := w.nextOp + 1 } }

/-- The device as a cold reset leaves it: everything at its reset value but the flash (boot banks, BOOT_COUNT, region layout and the
Cascade's configuration, R285, R333, R387, R422), the straps as last sampled, and the model's own clock and numbers (log 7). -/
def coldDev (d : Dev) : Dev :=
  let h : Helm := { bifurcated := d.helm.bifurcated, bank0 := d.helm.bank0, bank1 := d.helm.bank1, running := d.helm.marked, marked := d.helm.marked,
                    boots := d.helm.boots }
  let c := d.cascade
  let k : Core := { updated := d.clock }
  { clock := d.clock, freeIdx := d.freeIdx, nextFrame := d.nextFrame, nextCopy := d.nextCopy, out := d.out, helm := h,
    guard := { tokensAt := d.clock },
    time := { west := k, east := k, islands := beatIslands.map fun i => (i, ({ beatAt := d.clock } : Island)) },
    pair := { rolePref := d.pair.rolePref, noContactSince := d.clock, goodSince := d.clock },
    cistern := { layout := d.cistern.nextLayout, nextLayout := d.cistern.nextLayout },
    steward := bringupSteward,
    cascade := { cascadeId := c.cascadeId, role := c.role, push := c.push, open_ := c.open_, witness := c.witness, maxHops := c.maxHops,
                 rootHash := c.rootHash, own := if c.role = 1 then some 0 else none } }

/-- Reset released with all rails in regulation: the straps are sampled, the Time Cores start, and Helm's ROM boots (R478 step 5,
R488). -/
def releaseReset (rolePref bifurcated : Bool) (patch : Option (List Byte)) (d : Dev) : Dev :=
  let d := { d with helm := { d.helm with bifurcated }, pair := { d.pair with rolePref } }
  let perst := d.power.perst
  let d := coldDev d
  askPatch patch (setPower { d.power with perst } d)

/-- A reset that takes a sending unit of a Pair down freezes and sends its FINAL report first (R61, R313). -/
def freezeFinal (d : Dev) : Dev :=
  let d := freeze d
  if d.pair.mode = 1 && d.guard.finalDue && d.pair.tetherUp then
    newReport true false { d with guard := { d.guard with finalDue := false, finalSent := true } }
  else d

/-- A reset that `device.reset` asked for is due: 1 ms after its response (R482). -/
def resetDue (d : Dev) (kind : Nat) : Bool := d.power.asked.any fun (k, at_) => k == kind && decide (d.clock - at_ ≥ 16000000)

/-- COLD_RESET_START (R474, R482): from step 5 of the bring-up table with the rails up, or, after a thermal trip, from the restart of
regulator groups 2 to 4 (R467). -/
def execColdResetStart (t : Nat) (rolePref bifurcated : Bool) (patch : Option (List Byte)) (s : State) : Host.Outcome State Fault Refusal :=
  act (fun d =>
    let d := advance t d
    if !resetDue d 0 then d
    else
      let d := setHelmState 0 (freezeFinal d)
      if d.power.tripped then
        let perst := d.power.perst
        let d := coldDev d
        setPower { d.power with perst, held := true, groupsUp := 1 } d
      else releaseReset rolePref bifurcated patch d) s

/-- VIN_FAIL (R54, R465, R467): below 10.0 V the regulators stop and all that the device holds is lost. -/
def execVinFail (t : Nat) (s : State) : Host.Outcome State Fault Refusal :=
  act (fun d =>
    let d := advance t d
    let perst := d.power.perst
    let d := coldDev d
    setPower { d.power with perst, vin := false, groupsUp := 0, held := true } d) s

/-- VIN_RISE (R465): VIN has stayed at or above 11.4 V for 1 ms; the cold reset begins with regulator group 1. -/
def execVinRise (t : Nat) (s : State) : Host.Outcome State Fault Refusal :=
  act (fun d =>
    let d := advance t d
    if d.power.vin then d else setPower { d.power with vin := true } d) s

/-- REGULATOR_GROUP_UP (R467): the group that starts is in regulation, and the next starts. -/
def execRegulatorGroupUp (t : Nat) (s : State) : Host.Outcome State Fault Refusal :=
  act (fun d =>
    let d := advance t d
    if d.power.held && d.power.vin && d.power.groupsUp < 4 then setPower { d.power with groupsUp := d.power.groupsUp + 1 } d else d) s

/-- POWER_ON_RESET_RELEASE (R478 step 5, R488). -/
def execPowerOnResetRelease (t : Nat) (rolePref bifurcated : Bool) (patch : Option (List Byte)) (s : State) :
    Host.Outcome State Fault Refusal :=
  act (fun d =>
    let d := advance t d
    if d.power.held && d.power.vin && d.power.groupsUp = 4 then releaseReset rolePref bifurcated patch d else d) s

/-- SERDES_CALIBRATION_DONE (R478 step 8). -/
def execSerdesCalibrationDone (t : Nat) (s : State) : Host.Outcome State Fault Refusal :=
  act (fun d =>
    let d := advance t d
    if d.power.held then d else setPower { d.power with calibrated := true } d) s

-- Boot (R477, R478, R505) ------------------------------------------------------------------------------------------------------------

/-- Whether a bank boots: it reads well, and an image written to it carries its signature (R422, R477). -/
def bankBoots (d : Dev) (n : Nat) (reads : Bool) : Bool := reads && ((bankOf d n).image.map Config.imageSigned).getD true

/-- Tickets that a warm reset ended are recorded as completed with ST_FAULT, without an event (R505). -/
def recordEnded (d : Dev) : Dev :=
  let bytes := fun n => padTo 32 (le 2 stFault ++ le 2 0 ++ le 4 n)
  let one := fun (n : Nat) => ({ num := n, bytes := bytes n } : DoneTicket)
  setPower { d.power with ended := [] } { d with helm := { d.helm with done := ((d.power.ended.reverse.map one) ++ d.helm.done).take 4096 } }

/-- Helm is READY after a reset: BOOT_COUNT counts a cold boot (R478 step 11), the tickets that the reset ended are recorded, the drains
that it ended raise their LINK_DOWN, with the reaches and windows that follow it (R261, R265), and after a warm reset the Basins are checked against Basin 0 (R84, R475, R505). -/
def bootReady (bank release : Nat) (d : Dev) : Dev :=
  let cold := d.power.coldBoot
  let boots := if cold then d.helm.boots + 1 else d.helm.boots
  let d := { d with helm := { d.helm with running := bank, fwRelease := release % 65536, boots } }
  let ports := d.power.drained
  let d := recordEnded (setHelmState 1 (setPower { d.power with coldBoot := false, drained := [] } d))
  (if cold then id else reportApart) (ports.foldl (fun d p => judgeConfsOf p (keepReachesOf p (raise 0x0102 p 8 [] d))) d)

/-- HELM_BOOT_DONE (R477): Helm boots the marked bank, or the other where that one fails; with neither it halts. `markedReads` and
`otherReads` say whether each bank reads well; `release` is the firmware's that boots. -/
def execHelmBootDone (t : Nat) (markedReads otherReads : Bool) (release : Nat) (s : State) : Host.Outcome State Fault Refusal :=
  act (fun d =>
    let d := advance t d
    let m := d.helm.marked % 2
    if d.helm.state != 0 || d.power.held then d
    else if bankBoots d m markedReads then bootReady m release d
    else
      let d := report 0xB05 0x26 0 d
      if bankBoots d (1 - m) otherReads then bootReady (1 - m) release d
      else setHelmState 3 { d with helm := { d.helm with fwRelease := 0 } }) s

/-- The memory profile is fixed; the largest gives the history queue's and SRC_INFO's memory away, and what stood in them is gone (R363). -/
def setProfile (p : Nat) (x : Collector) : Collector :=
  if p = 0 then { x with profile := 0 } else { x with profile := p, hist := [], histCount := 0, info := [] }

/-- The default counter map is programmed: its counters, but for a window's, count from 0 under their programs of the map (R455, R458,
R479). -/
def mapDefaults (x : Counters) : Counters :=
  let keep := fun (c : Nat) => !inDefaultMap c || x.windows.any fun w => w.base ≤ c && c < w.base + 8
  { x with mapped := true, values := x.values.filter fun e => keep e.1, before := x.before.filter fun e => keep e.1,
           progs := x.progs.filter fun e => keep e.1 }

/-- DEVICE_BRINGUP (R128, R356, R361, R363, R458, R479, R483). -/
def execDeviceBringup (c : Cmd) (s : State) : Host.Outcome State Fault Refusal :=
  cmd 0x1303 4 4 c (fun q _ d =>
    if u8 q 0 > 1 || !zerosAt q 1 3 then rej stRange d
    else if d.power.bringup then rej stConflict d
    else
      let d := { d with power := { d.power with bringup := true }, coll := setProfile (u8 q 0) d.coll }
      let one := fun (t : Tbl Basin) (b : Nat) => tmod {} b (fun x => { x with malformed := 2, truncated := 2 }) t
      let n := puntBucket d
      let basins := (List.range 8).foldl one d.tables.basins
      let d := { d with tables := { d.tables with basins, puntTokens := n, puntAt := d.clock, puntRate := 10000, puntBurst := 1024 } }
      let d := [0x2, 0x4, 0x5, 0x6, 0x7, 0xA].foldl (fun d k => setGuards (256 * k) 1 256 d) d
      let d := setGuards 0xE00 1 32 (setGuards 0x910 1 1 d)
      let d := { d with counters := mapDefaults d.counters, guard := { d.guard with ingressOpen := true } }
      okay (setMode 0 d)) s

-- PERST_N (R474, R478) ------------------------------------------------------------------------------------------------------------------

/-- PERST_ASSERT (R474): the PCIe controller, both functions' rings and completion queues, and the mailboxes. -/
def execPerstAssert (t : Nat) (s : State) : Host.Outcome State Fault Refusal :=
  act (fun d =>
    let d := disableRings 1 (disableRings 0 (advance t d))
    let d := { d with dma := { d.dma with rings := [], cqs := [] }, power := { d.power with perst := true } }
    orphanJobs 1 (orphanJobs 0 { d with boxes := [] })) s

/-- PERST_DEASSERT (R478): configuration requests are served from here on, once the power-on reset is released. -/
def execPerstDeassert (t : Nat) (s : State) : Host.Outcome State Fault Refusal :=
  act (fun d => let d := advance t d; setPower { d.power with perst := false } d) s

-- Sensors (R4, R498) --------------------------------------------------------------------------------------------------------------------

/-- A valid reading above a limit in units of 0.125 °C: TEMP is signed (R498). -/
def hotter (r : Nat × Bool) (limit : Int) : Bool := r.2 && decide (limit < signed 12 r.1)

/-- The sensors of one die have all failed (R498). -/
def dieBlind (d : Dev) (die : Nat) : Bool := (List.range 8).all fun k => !(tget (0, false) d.power.sensors (8 * die + k)).2

/-- One sensor's reading: SENSOR_FAULT while it cannot be read, and OVER_TEMP from above 105 °C until at or below 103 °C (R498). -/
def takeReading (i : Nat) (r : Option Nat) (d : Dev) : Dev :=
  let src := 0xE20 + i
  let now := tget [] d.coll.present src
  match r with
  | none =>
    let (v, d) := takeFree d
    let d := setPower { d.power with sensors := tput (0, false) i (v % 4096, false) d.power.sensors } d
    if now.contains 0x32 then d else report src 0x32 0 d
  | some v =>
    let d := setPower { d.power with sensors := tput (0, false) i (v % 4096, true) d.power.sensors } (endCondition src 0x32 d)
    let x := (v % 4096, true)
    if hotter x 840 then (if now.contains 0x30 then d else report src 0x30 0 d)
    else if hotter x 824 then d
    else endCondition src 0x30 d

/-- The trip at 115 °C (R4): the safe state, with the event of the sensor, or the die's first, that showed it. -/
def thermalTrip (i : Nat) (d : Dev) : Dev :=
  if d.power.tripAt.isSome then d
  else enterSafe 3 (report (0xE20 + i) 0x31 0 (setPower { d.power with tripAt := some d.clock } d))

/-- SENSOR_READ (R498): the 16 readings as TEMP codes, none for a sensor that cannot be read. -/
def execSensorRead (t : Nat) (readings : List (Option Nat)) (s : State) : Host.Outcome State Fault Refusal :=
  act (fun d =>
    let d := (List.range 16).foldl (fun d i => takeReading i (readings.getD i none) d) (advance t d)
    match (List.range 16).find? fun i => hotter (tget (0, false) d.power.sensors i) 919 with
    | some i => thermalTrip i d
    | none => if dieBlind d 0 then thermalTrip 0 d else if dieBlind d 1 then thermalTrip 8 d else d) s

/-- THERMAL_POWER_OFF (R4, R467): 1 ms after the trip every regulator stops but 22, 23, 24 and 31; Helm's ROM loop shows HALTED. What
VAON feeds keeps its state: Helm, Steward, Collector, Time Cores, the pair's roles and the PCIe controller (R466). -/
def execThermalPowerOff (t : Nat) (s : State) : Host.Outcome State Fault Refusal :=
  act (fun d =>
    let d := advance t d
    match d.power.tripAt with
    | none => d
    | some a =>
      if d.power.tripped || d.clock - a < 16000000 then d
      else
        let off := coldDev d
        let d := { d with frames := [], copies := [], ports := [], tm := {}, spec := {}, release := {}, tables := {}, ledger := {}, ptp := {},
                          cistern := off.cistern, guard := { d.guard with streams := [], holds := [], holdUsed := 0, retains := [], stored := none },
                          pair := { d.pair with tetherUp := false, pcsUp := false }, steward := { d.steward with ops := [], tokens := [] },
                          power := { d.power with tripped := true, groupsUp := 1, calibrated := false, units := [], resets := [] } }
        setHelmState 3 d) s

-- DEVICE_RESET and its two unit resets (R476, R482) ---------------------------------------------------------------------------------------

/-- A Basin holds a guarded Port (R476). -/
def guardedBasin (d : Dev) (b : Nat) : Bool := (List.range 64).any fun k => guardedPort d (64 * b + k)

/-- A forced reset of a unit with a guarded Port: a unit of a Pair first yields (R61, R476). -/
def forcedYield (guarded : Bool) (d : Dev) : Dev := if guarded then yieldUnit d else d

/-- A Basin or Port reset starts (R482). -/
def startReset (kind index fn : Nat) (guarded : Bool) (d : Dev) : Reply :=
  pend fn d (fun n d => forcedYield guarded (setPower { d.power with resets := d.power.resets ++ [(kind, index, n)] } d))

/-- DEVICE_RESET (R467, R476, R477, R482). -/
def execDeviceReset (c : Cmd) (s : State) : Host.Outcome State Fault Refusal :=
  cmd 0x1302 4 8 c (fun q fn d =>
    let kind := u8 q 0
    let force := u8 q 1
    let i := u16 q 2
    let ask := fun (d : Dev) => okay (setPower { d.power with asked := d.power.asked ++ [(kind, d.clock)] } d)
    if kind > 3 || force > 1 then rej stRange d
    else if kind = 0 then
      if i != 0 then rej stRange d
      else if d.power.tripAt.isSome && d.power.sensors.any (fun (_, r) => hotter r 840) then rej stConflict d
      else ask d
    else if kind = 1 then
      if i != 0 then rej stRange d
      else if d.power.tripAt.isSome then rej stDenied d
      else if d.power.warm then rej stBusy d
      else ask d
    else if d.helm.state = 3 then rej stDenied d
    else if kind = 2 then
      if i > 7 then rej stRange d
      else if guardedBasin d i && force = 0 then rej stConflict d
      else startReset 2 i fn (guardedBasin d i) d
    else if portUnused d i then rej stRange d
    else if (portOf d i).drain.isSome then rej stBusy d
    else if guardedPort d i && force = 0 then rej stConflict d
    else startReset 3 i fn (guardedPort d i && (portOf d i).state != 0) d) s

/-- The tickets of the resets of a unit complete (R482). -/
def endResets (kind index : Nat) (d : Dev) : Dev :=
  let mine := d.power.resets.filter fun (k, i, _) => k == kind && i == index
  let d := setPower { d.power with resets := d.power.resets.filter fun (k, i, _) => !(k == kind && i == index) } d
  mine.foldl (fun d (_, _, n) => completeTicket n stOk [] d) d

/-- An island takes its next beat as it comes: its unit has been reset or has slept (R471, R476). -/
def islandBack (i : Nat) (d : Dev) : Dev :=
  { d with time := { d.time with islands := tput {} i { island d i with beatAt := d.clock, slept := true } d.time.islands } }

/-- An entry address (R504) lies in a learned table. -/
def inLearned (d : Dev) (addr : Nat) : Bool := addr / 2 ^ 38 == 0 && (tableDef d (addr / 2 ^ 24 % 16)).kind == 2

/-- The learned entries of a Basin and what its learning holds are lost; its settings stay (R472, R474). -/
def loseLearned (b : Nat) (d : Dev) : Dev :=
  let one := fun (x : Basin) => { x with em := [], queue := [], filter := [], tracker := [] }
  let d := keepFaults (fun e => !(e.1 == b && inLearned d e.2)) d
  { d with tables := { d.tables with basins := tmod {} b one d.tables.basins } }

/-- A warm reset takes the learned tables of every Basin (R474). -/
def loseAllLearned (d : Dev) : Dev := (List.range 8).foldl (fun d b => loseLearned b d) d

/-- A Basin at Drained has lost its tables; Helm writes the programmed ones anew as it leaves (R472). -/
def loseTables (b : Nat) (d : Dev) : Dev := keepFaults (fun e => e.1 != b) (loseLearned b d)

/-- BASIN_RESET (R476): undecided frames of the Basin are dropped, the copies it sends stomped, its pipeline and learned tables reset;
a solo device then sends what it holds for its Ports. -/
def execBasinReset (t basin : Nat) (s : State) : Host.Outcome State Fault Refusal :=
  act (fun d =>
    let d := advance t d
    if !d.power.resets.any (fun (k, i, _) => k == 2 && i == basin) then d
    else
      let mine := d.frames.filterMap fun (i, f) => if basinOf f.port == basin && f.state < 2 then some i else none
      let d := mine.foldl (fun d i => failAs i none d) d
      let hit := (transmitting d).filter fun i => basinOf (copyOf d i).port == basin
      let d := hit.foldl (fun d i => stompCopy i 0x201 d) d
      let d := loseLearned basin { d with ptp := { d.ptp with pending := d.ptp.pending.filter fun e => e.basin != basin } }
      let d := endResets 2 basin (islandBack (0x40 + basin) d)
      if d.pair.mode = 0 && !d.guard.frozen then resumeSlots (fun sl => basinOf sl.port == basin && (portOf d sl.port).state == 4) d
      else d) s

/-- PORT_RESET (R476): the link goes down with cause 8 and the Port starts again; one that is DISABLED stays so. -/
def execPortReset (t port : Nat) (s : State) : Host.Outcome State Fault Refusal :=
  act (fun d =>
    let d := advance t d
    if !d.power.resets.any (fun (k, i, _) => k == 3 && i == port) then d
    else
      let x := portOf d port
      let d := if x.state = 4 then linkDown port 8 d else d
      let d := if x.state = 0 then d else judgeConfsOf port (modPort port startPort d)
      endResets 3 port d) s

-- Warm resets (R53, R287, R344, R474, R475, R505) ------------------------------------------------------------------------------------------

/-- The queued ledger records that a warm reset still places (R287). -/
def placeQueued : Nat → Dev → Dev
  | 0, d => d
  | n + 1, d => placeQueued n (writeRecord d)

/-- Records that the reset cuts off, to be reported by a RESET gap record: those queued, those due for frames, and those that copies
not yet ended would get (R278, R279, R287). -/
def cutRecords (d : Dev) : List LedgerRec :=
  (d.ledger.queue ++ d.frames.filterMap fun (i, f) =>
    if f.recordDue && f.recorded == 0 then
      some { source := 1 + dieOf f.port, bytes := recordBytes d (frameOf d i) 0 none false true, guarded := f.stream.isSome && f.seq.isSome }
    else none)
    ++ d.copies.filterMap fun (i, c) =>
      if (c.state < 3 || ((frameOf d c.frame).seq.isSome && (frameOf d c.frame).outcome.isNone)) && owesRecord i d then some (copyBytes i d) else none

def warmLedger (d : Dev) : Ledger :=
  let l := d.ledger
  { l with queue := [], rehash := true, rehashed := false, lost := l.lost + (cutRecords d).length, lostReset := (cutRecords d).foldl Lost.add l.lostReset }

/-- Safe-state causes that only a cold reset leaves (R56). -/
def lastingCauses (d : Dev) : List Nat := (d.guard.cause :: d.guard.more).filter fun c => c == 2 || c == 3

def warmGuard (d : Dev) : Guard :=
  let stay := lastingCauses d
  let safe := !stay.isEmpty
  { streams := d.guard.streams, retains := d.guard.retains.map fun r => { r with done := true }, retainUsed := d.guard.retainUsed,
    tokensAt := d.clock, suspended := safe, frozen := safe, frozenAt := if safe then d.guard.frozenAt else none, closed := safe,
    stored := some (d.guard.streams.map fun (i, x) => (i, x.next, x.slots.map (·.lastSent))),
    cause := stay.headD 0, more := stay.drop 1, ingressOpen := d.pair.mode == 1 }

def warmCollector (x : Collector) : Collector :=
  let keep := fun (k : Class) => ({ n := k.n, w := k.w } : Class)
  { mode := 3, profile := x.profile, classes := x.classes.map fun (k, y) => (k, keep y), guard := x.guard,
    recoveryTime := x.recoveryTime }

/-- What a function keeps: its ring's name, and the numbers that count since the cold reset (R10, R416, R474). -/
def warmFn (x : Fn) : Fn := { evRing := x.evRing, evSeq := x.evSeq, snapSeq := x.snapSeq }

def warmHelm (h : Helm) : Helm :=
  { h with state := 0, fwRelease := 0, heartbeat := 0, running := h.marked, update := none, expiries := [], open_ := [] }

/-- A unit of a Pair comes back FENCED; what commands set stays, and the disputes since the cold reset (R313, R323, R475). -/
def warmPair (d : Dev) : Pair :=
  let p := d.pair
  let paired := p.mode == 1
  { mode := p.mode, pairId := p.pairId, downstream := p.downstream, witness := p.witness, revertive := p.revertive, autoResync := p.autoResync,
    holdOff := p.holdOff, startWait := p.startWait, healthRing := p.healthRing, rolePref := p.rolePref, role := if paired then 4 else 0,
    roleSince := if paired then helmStamp d else p.roleSince, fencedBySafe := paired && !(lastingCauses d).isEmpty, pcsUp := p.pcsUp,
    pulse := p.pulse, pulseAt := p.pulseAt, witnessIn := p.witnessIn, disputes := p.disputes, digestsA := p.digestsA, digestsB := p.digestsB,
    noContactSince := d.clock, goodSince := d.clock, bad := d.time.servo ≤ 1 }

def warmCounters (x : Counters) : Counters :=
  let empty := fun (w : Window) => { w with counts := [] }
  { progs := x.progs, mapped := x.mapped, windows := x.windows.map empty }

def Shaper.warm (x : Shaper) (clock : Nat) : Shaper := { x with credit := 0, at_ := clock }

/-- Traffic managers after a warm reset: configured as before, and empty. -/
def warmTm (clock : Nat) (x : Tm) : Tm :=
  let q := fun (y : Queue) => ({ group := y.group, band := y.band, gate := y.gate, weight := y.weight, minCells := y.minCells, alpha := y.alpha,
                                 shaper := y.shaper.warm clock } : Queue)
  let g := fun (y : Group) => ({ port := y.port, band := y.band, weight := y.weight, shaper := y.shaper.warm clock } : Group)
  let sc := fun (y : Sched) => { y with shaper := y.shaper.warm clock, v := [], sending := none }
  let po := fun (y : Policer) => { y with tc := y.cbs * creditByte, tp := y.pbs * creditByte, at_ := clock }
  let sa := { x.sampling with open_ := [], closed := 0, out := [], lost := 0 }
  { x with queues := x.queues.map fun (k, y) => (k, q y), groups := x.groups.map fun (k, y) => (k, g y),
           scheds := x.scheds.map fun (k, y) => (k, sc y), policers := x.policers.map fun (k, y) => (k, po y), sampling := sa }

def warmRelease (x : Release) : Release :=
  let c := fun (y : ConfGroup) => { y with held := [], earlier := [], late := 0 }
  let l := fun (y : LevelGroup) => { y with unequal := 0 }
  { conf := x.conf.map fun (k, y) => (k, c y), level := x.level.map fun (k, y) => (k, l y) }

/-- The Cistern after a warm reset: the regions that PASR keeps, and its channels being verified (R332, R334, R344). -/
def warmCistern (d : Dev) : Cistern :=
  let x := d.cistern
  let base := spillBase d
  let verify := fun (y : Channel) =>
    if y.inService || y.training then { y with inService := false, training := true, verifying := true, retried := false, mr4At := none } else y
  { x with channels := x.channels.map fun (k, y) => (k, verify y), mem := x.mem.filter fun (a, _) => decide (a < base), lostSpill := none,
           flips := x.flips.filter fun (w, _) => decide (8 * w < base), scrubBack := [], pasr := pasrMask d, selfRefresh := true }

/-- A write set that the reset ends part done leaves its generation INCOMPLETE (R371, R372, R505). -/
def warmTables (d : Dev) : Tables :=
  let cut := d.steward.ops.any fun o => o.state != 0 && [3, 4, 7].contains o.code
  let d := if cut then markIncomplete d else d
  let one := fun (x : Basin) => { x with digestAt := none }
  { d.tables with swap := none, puntTokens := 16000000000 * d.tables.puntBurst, puntAt := d.clock, basins := d.tables.basins.map fun (k, x) => (k, one x) }

/-- A Port keeps its link; a drain that was under way has ended in DISABLED (R84, R475). -/
def warmPort (safe : Bool) (x : Port) : Port :=
  let x := { x with receiving := none, ingressStop := false, txOff := safe && (combinedFlag x || stopInSafeFlag x) }
  if x.drain.isSome then { x with state := 0, drain := none, lastDown := 8, alignedAt := none, anFailedAt := none, resolved := none } else x

def warmCascade (c : Cascade) : Cascade :=
  { cascadeId := c.cascadeId, role := c.role, push := c.push, open_ := c.open_, witness := c.witness, maxHops := c.maxHops, noteRing := c.noteRing,
    linkRing := c.linkRing, rootHash := c.rootHash, allow := c.allow, own := if c.role = 1 then some 0 else none, nextLink := c.nextLink,
    lastLink := c.lastLink }

/-- The domains that a warm reset resets, and what they keep (R474, R475, R505). -/
def warmDev (patch : Option (List Byte)) (d : Dev) : Dev :=
  let safe := !(lastingCauses d).isEmpty
  let ended := d.power.ended ++ d.helm.open_.map (·.num)
  let cut := (cutRecords d).length
  let drained := d.ports.filterMap fun (p, x) => if x.drain.isSome then some p else none
  let w := { d.steward with ops := bringupSteward.ops, nextOp := d.steward.nextOp + 1, regs := [], pc := 0, words := 0, safe := false, waiting := (0, 0, 0), ranFrom := d.clock, live := (0, 0),
                            issued := [], crossing := 0, tokens := [], patch := [], matches_ := [], patchId := 0, patchState := 0 }
  let d := { d with
    frames := [], copies := [], boxes := [], fns := d.fns.map (fun (f, x) => (f, warmFn x)), helm := warmHelm d.helm, coll := warmCollector d.coll,
    guard := warmGuard d, time := { d.time with step := none }, ptp := { d.ptp with pending := [], toHelm := [] }, ledger := warmLedger d,
    pair := warmPair d, counters := warmCounters d.counters, tm := warmTm d.clock d.tm, ports := d.ports.map (fun (p, x) => (p, warmPort safe x)),
    masters := d.masters.map (fun (m, x) => (m, { x with jobs := [] })), release := warmRelease d.release, cistern := warmCistern d,
    tables := warmTables d, steward := w, cascade := warmCascade d.cascade,
    power := { d.power with asked := [], resetFreeze := none, resets := [], sensors := [], ended, drained := d.power.drained ++ drained, warm := d.pair.mode == 0 } }
  let d := disableRings 1 (disableRings 0 d)
  let d := applyRings { d with dma := { punt := d.dma.punt } }
  let d := repeatCount 0x80A 0 cut (addHwOp 0x0E [] 0 (setHeadroom d))
  askPatch patch (if d.pair.mode = 0 then addHwOp 0x0D [] 0 d else d)

/-- The vectors of a warm reset: Helm's STATE changes, and the safe state is left where no cause of it lasts (R418, R505). -/
def resetVectors (d : Dev) : Dev :=
  let d := if d.helm.state = 0 then d else toBoth 3 d
  if d.guard.cause != 0 && (lastingCauses d).isEmpty then toBoth 1 d else d

/-- A Retained copy that the retention writer has accepted is written, where its channels are in service (R344). -/
def finishRetain (d : Dev) (r : Retain) : Dev :=
  if (retainChannels d r).any fun c => (chanOf d c).failed then d else storeSpans (spansOf d r) (retainBytes r.frame) d

/-- What the retention writer has accepted is written before the Cistern enters self-refresh (R344). -/
def finishRetains (d : Dev) : Dev := (d.guard.retains.filter retainOpen).foldl finishRetain d

/-- WARM_RESET_START (R53, R287, R302, R344, R474, R475): first the freeze, with LEAVING on the Pulse and the FINAL report of a unit of a
Pair; and from 100 µs after it on, when the row comes again, the queued ledger records that the reset allows (`placed` of them), the
Retained copies not yet written, the Cistern in self-refresh, and the reset itself. -/
def execWarmResetStart (t placed : Nat) (patch : Option (List Byte)) (s : State) : Host.Outcome State Fault Refusal :=
  act (fun d =>
    let d := advance t d
    if !resetDue d 1 || d.power.tripAt.isSome then d
    else
      match d.power.resetFreeze with
      | none => let d := freezeFinal d; setPower { d.power with resetFreeze := some d.clock } d
      | some a => if d.clock - a < 1600000 then d else warmDev patch (loseAllLearned (resetVectors (finishRetains (placeQueued placed d))))) s

/-- INGRESS_OPEN (R356, R480): the replay of every stream is enqueued; ingress opens, and RECOVERY_TIME runs from here. -/
def execIngressOpen (t : Nat) (s : State) : Host.Outcome State Fault Refusal :=
  act (fun d =>
    let d := advance t d
    if !d.power.warm || d.steward.ops.any (fun o => o.code == 0x0D) then d
    else
      { d with guard := { d.guard with ingressOpen := true }, power := { d.power with warm := false },
               coll := { d.coll with replayDone := some d.clock } }) s

-- The power ladder (R468 to R473, R481) -----------------------------------------------------------------------------------------------------

/-- The unit of a `power.step` request, none where KIND and INDEX name none. -/
def unitNamed (kind index : Nat) : Option Nat :=
  if kind = 0 && index < 64 then some index
  else if kind = 1 && index < 8 then some (64 + index)
  else if kind = 2 && index = 0 then some 72
  else none

/-- Ports of a Nozzle or a Basin. -/
def unitPorts (u : Nat) : List Nat :=
  if u < 64 then (List.range 8).map (8 * u + ·) else if u < 72 then (List.range 64).map (64 * (u - 64) + ·) else []

/-- An enabled Port has lanes in a unit (R470). -/
def unitEnabled (d : Dev) (u : Nat) : Bool :=
  d.ports.any fun (p, x) => x.state != 0 && (unitPorts u).any fun q => p ≤ q && q < p + enabledLanes x

/-- A unit may not take a step now (R470, R473). -/
def stepConflict (d : Dev) (u step : Nat) : Bool :=
  if u = 72 then step == 4 && (List.range 8).any (fun b => decide ((unitOf d (64 + b)).step < 4))
  else decide (2 ≤ step) && (unitEnabled d u || (unitPorts u).any (guardedPort d))

/-- POWER_STEP (R468 to R473, R481). -/
def execPowerStep (c : Cmd) (s : State) : Host.Outcome State Fault Refusal :=
  cmd 0x1301 4 8 c (fun q fn d =>
    let step := u8 q 2
    match unitNamed (u8 q 0) (u8 q 1) with
    | none => rej stRange d
    | some u =>
      if step > 5 || (u = 72 && step != 0 && step != 4) || u8 q 3 > 1 then rej stRange d
      else if stepConflict d u step then rej stConflict d
      else
        pend fn d (fun n d =>
          let x := unitOf d u
          let d := setUnit u { x with commanded := step, autoRipple := u != 72 && u8 q 3 == 1, tickets := x.tickets ++ [n] } d
          if 64 ≤ u && u < 72 && step < 4 then setUnit 72 { unitOf d 72 with commanded := 0 } d else d)) s

/-- The island of a unit (R27). -/
def islandOf (u : Nat) : Nat := if u = 72 then 0x4E else u

/-- A channel's interval oscillators are read as it leaves the self-refresh of Dry: what they show is free (R344). -/
def readOscillators (c : Nat) (d : Dev) : Dev :=
  let (dqi, d) := takeFree d
  let (dqo, d) := takeFree d
  setChan c { chanOf d c with oscillators := (dqi, dqo) } d

/-- Writes that the retention or the ledger writer has accepted are open: they are finished before self-refresh begins (R344). -/
def writersBusy (d : Dev) : Bool := d.guard.retains.any retainOpen || !d.ledger.queue.isEmpty

/-- A unit goes to a step: a Basin that enters Drained loses its tables, the Cistern enters and leaves self-refresh, in which
only what PASR keeps survives and after which the interval oscillators are read, and an island that leaves Pool or deeper takes its next beat whole (R334, R344, R471 to R473). -/
def goStep (u step : Nat) (d : Dev) : Dev :=
  let x := unitOf d u
  let d := setUnit u { x with step, workAt := d.clock } d
  let d := if 2 ≤ x.step && step < 2 then islandBack (islandOf u) d else d
  let d := if step = 5 && 64 ≤ u && u < 72 then loseTables (u - 64) d else d
  if u != 72 || x.step = step then d
  else if step = 4 then { d with cistern := { d.cistern with selfRefresh := true, lostSpill := some [], pasr := pasrMask d } }
  else (List.range 16).foldl (fun d c => readOscillators c d) { d with cistern := { d.cistern with selfRefresh := false } }

/-- STEP_REACHED (R472, R473, R481): a unit reaches its commanded step, with the work that leaving Drained asks for, and its tickets
complete. The Cistern reaches Flow before a Basin that is commanded above Dry, and Dry once it has finished its writers' writes (R344). -/
def execStepReached (t unit : Nat) (s : State) : Host.Outcome State Fault Refusal :=
  act (fun d =>
    let d := advance t d
    let x := unitOf d unit
    let waits := within unit 64 71 && x.commanded < 4 && (unitOf d 72).step != 0
    let writes := unit = 72 && x.commanded = 4 && x.step != 4 && writersBusy d
    if unit > 72 || waits || writes then d
    else
      let d := if x.step = x.commanded then d else goStep unit x.commanded d
      let d := setUnit unit { unitOf d unit with tickets := [] } d
      x.tickets.foldl (fun d n => completeTicket n stOk [] d) d) s

/-- AUTO_RIPPLE is without effect on a unit with a DETERMINISTIC Port or a Port of a release group (R469). -/
def rippleBarred (d : Dev) (u : Nat) : Bool :=
  (unitPorts u).any fun p =>
    deterministicFlag (portOf d p)
      || d.release.conf.any (fun (_, g) => g.members.any fun m => m.1 == p) || d.release.level.any (fun (_, g) => g.members.any fun m => m.1 == p)

/-- A unit has work: frames that its Basin has not decided, copies that its Ports have yet to send, a frame that one of them receives, or
an operation of the Steward that reaches the Basins (R469, R471, log 116). -/
def unitBusy (d : Dev) (u : Nat) : Bool :=
  (d.ports.any fun (p, x) => (unitPorts u).contains p && x.receiving.isSome)
    || (d.copies.any fun (_, c) => decide (c.state < 3) && (unitPorts u).contains c.port)
    || (decide (64 ≤ u) && ((d.frames.any fun (_, f) => decide (f.state < 2) && (unitPorts u).contains f.port)
      || d.steward.ops.any fun o => o.state != 0 && (within o.code 1 4 || within o.code 7 10)))

/-- AUTO_RIPPLE_IDLE (R469): 200 ns without work. -/
def execAutoRippleIdle (t unit : Nat) (s : State) : Host.Outcome State Fault Refusal :=
  act (fun d =>
    let d := advance t d
    let x := unitOf d unit
    if unit < 72 && x.autoRipple && x.commanded = 0 && x.step = 0 && d.clock - x.workAt ≥ 3200 && !rippleBarred d unit && !unitBusy d unit then
      setUnit unit { x with step := 1 } d
    else d) s

/-- UNIT_WAKE (R29, R469, R471): an item that waits wakes a unit that entered Ripple by itself, or a Basin at Pool, Still or Dry. -/
def execUnitWake (t unit : Nat) (s : State) : Host.Outcome State Fault Refusal :=
  act (fun d =>
    let d := advance t d
    let x := unitOf d unit
    if (unit < 72 && x.step = 1 && x.commanded = 0) || (within unit 64 71 && within x.step 2 4) then goStep unit 0 d else d) s

/-- UNIT_RETURN (R471): a woken Basin returns to its commanded step after 1 µs without work. -/
def execUnitReturn (t unit : Nat) (s : State) : Host.Outcome State Fault Refusal :=
  act (fun d =>
    let d := advance t d
    let x := unitOf d unit
    if within unit 64 71 && x.step = 0 && within x.commanded 2 4 && x.tickets.isEmpty && d.clock - x.workAt ≥ 16000 && !unitBusy d unit then goStep unit x.commanded d
    else d) s

/-- CISTERN_WAKE (R473): a master's request takes the Cistern out of Dry. -/
def execCisternWake (t : Nat) (s : State) : Host.Outcome State Fault Refusal :=
  act (fun d =>
    let d := advance t d
    if (unitOf d 72).step = 4 then goStep 72 0 d else d) s

/-- CISTERN_IDLE (R473): it returns to Dry after 10 µs without requests. -/
def execCisternIdle (t : Nat) (s : State) : Host.Outcome State Fault Refusal :=
  act (fun d =>
    let d := advance t d
    let x := unitOf d 72
    if x.step = 0 && x.commanded = 4 && x.tickets.isEmpty && d.clock - x.workAt ≥ 160000 && d.clock - d.cistern.askedAt ≥ 160000 && !writersBusy d then
      goStep 72 4 d
    else d) s

end Sys2Proof.Machine
end

