-- ==== Sys2Proof/Machine/Ptp.lean ====
section
/-!
DEFINITION. PTP (04_time.md, R101 to R104, R116): the Ports' roles, the two-step pending store and Helm's own messages.
-/

namespace Sys2Proof.Machine

/-- PTP_PORT (R116): pending two-step entries of the Port are discarded. A clock Port is already used by another instance
where it has that role with other domains (log 24). -/
def execPtpPort (c : Cmd) (s : State) : Host.Outcome State Fault Refusal :=
  cmd 0x0405 12 4 c (fun q _ d =>
    let p := u16 q 0
    let x := ptpPort d p
    let domains := ((List.range 4).map fun k => u8 q (6 + k)).filter (· != 0xFF)
    if portUnused d p || u8 q 2 > 3 || u8 q 3 > 1 || u8 q 4 > 7 || u8 q 5 > 1 || u16 q 10 != 0 then rej stRange d
    else if u8 q 2 = 3 && x.role = 3 && x.domains != domains then rej stConflict d
    else
      let y : PtpPort := { linkDelay := x.linkDelay, role := u8 q 2, step := u8 q 3, transport := u8 q 4, delay := u8 q 5, domains }
      okay { d with ptp := { d.ptp with ports := tput {} p y d.ptp.ports, pending := d.ptp.pending.filter fun e => e.port != p } }) s

/-- PTP_PENDING_EXPIRE (R103): an entry expires after 1 s. -/
def execPtpPendingExpire (t : Nat) (s : State) : Host.Outcome State Fault Refusal :=
  act (fun d =>
    let d := advance t d
    { d with ptp := { d.ptp with pending := d.ptp.pending.filter fun e => decide (d.clock - e.at_ < 16000000000) } }) s

/-- The messages of Helm's own that a Port sends: on a peer-to-peer Port those of the peer-to-peer delay mechanism, and on a clock Port all
but those of the mechanism that its DELAY does not name, Delay_Req and Delay_Resp (1 and 9) or the peer-to-peer ones (R101, R103, R104). -/
def sendsType (role delay : Nat) (ty : Option Nat) : Bool :=
  let peer := (ty.map pdelayType).getD false
  if role = 2 then peer else role == 3 && (if delay = 1 then !(ty == some 1 || ty == some 9) else !peer)

/-- PTP_MESSAGE_SEND (R103, R104): Helm's own message takes its place in a queue of its clock Port, or as a delay message of its
peer-to-peer Port, and leaves through the egress stamping of R102. `since`: the TICKS from which a correction counts (log 25). -/
def execPtpMessageSend (t port queue since : Nat) (bytes : List Byte) (s : State) : Host.Outcome State Fault Refusal :=
  act (fun d =>
    let d := advance t d
    let q := (queueRange d port).1 + queue
    let role := (ptpPort d port).role
    if d.helm.state != 1 || !sendsType role (ptpPort d port).delay ((ptpAt bytes).map fun x => ptpType bytes x.1) || (portOf d port).state != 4 || queue ≥ (queueRange d port).2 then d
    else
      let fi := d.nextFrame
      let ci := d.nextCopy
      let f : Frame := { port, bytes, arrived := d.clock, state := 2, enqueued := true, recorded := 1, copies := [ci], outcomeAt := some d.clock, forClock := true,
                         stamp := { stampAt d (nozzleOf port) 0 with ticks := since } }
      let c : Copy := { frame := fi, port, queue := q, state := 1, verdict := true, enqAt := portTicks d port, enqClock := d.clock,
                        out := bytes, trailerMode := 0 }
      let d := { d with nextFrame := fi + 1, nextCopy := ci + 1 }
      let x := queueOf d q
      countIn 0x400 q (bytes.length + 4) (refreshPort port (setQueue q { x with copies := x.copies ++ [ci] } (setCopy ci c (setFrame fi f d))))) s

end Sys2Proof.Machine
end

