-- ==== Sys2Proof/Machine/Regs.lean ====
section
/-!
DEFINITION. The registers of BAR0 (R9 to R13, R409): what a write of a field without a row of its own does, and what each register
reads as.
-/

namespace Sys2Proof.Machine

/-- A device mailbox by the number that a function gives it, none where it has none (R408, R410). -/
def localBox (d : Dev) (fn m : Nat) : Option Nat :=
  if d.helm.bifurcated then (if m < 8 && fn < 2 then some (8 * fn + m) else none) else if m < 16 && fn = 0 then some m else none

/-- A mailbox reads BUSY: it holds a command, or Helm is BOOTING (R410, R478). -/
def boxBusy (d : Dev) (m : Nat) : Bool := (boxOf d m).state == 1 || d.helm.state == 0

/-- The doorbell as a register write (R410, R411): a BUSY mailbox sets DB_IGNORED; else Helm copies OPCODE, TAG and REQ_LEN and locks
the request. The command's own row follows. -/
def ringDoorbell (m : Nat) (d : Dev) : Dev :=
  let b := boxOf d m
  if boxBusy d m then setBox m { b with dbIgnored := true } d
  else setBox m { b with state := 1, tag := b.cmd / 65536, opcode := b.cmd % 65536, req := padTo (min b.len 4096) b.reqArea, taken := d.helm.state == 1, rang := d.clock } d

/-- A write to a mailbox's control registers (R410). -/
def writeBox (m reg v : Nat) (d : Dev) : Dev :=
  let b := boxOf d m
  if reg = 0x00 then setBox m { b with cmd := v } d
  else if reg = 0x04 then setBox m { b with len := v % 8192 } d
  else if reg = 0x08 then (if bitOf v 0 then ringDoorbell m d else d)
  else if reg = 0x0C then (if bitOf v 2 then setBox m { b with dbIgnored := false } d else d)
  else d

/-- A write to a request area; those of a BUSY mailbox are discarded (R411). -/
def writeArea (m o v : Nat) (d : Dev) : Dev :=
  let b := boxOf d m
  if b.state = 1 || o ≥ 4096 then d else setBox m { b with reqArea := overwrite b.reqArea o (le 4 v) } d

/-- A write to DMA.HEAD: DB_IGNORED and HOST_ERROR are W1C; a ring in use answers its own function only. -/
def writeHead (fn r v : Nat) (d : Dev) : Dev :=
  let x := ringOf d r
  if x.state != 0 && x.fn != fn then d
  else setRing r { x with dbIgnored := x.dbIgnored && !bitOf v 19, hostError := x.hostError && !bitOf v 20 } d

/-- A write to DMA.CQ_HEAD (R434): room may let rings that stop go on flushing (R445). -/
def writeCqHead (fn q v : Nat) (d : Dev) : Dev :=
  let x := cqOf d q
  if x.enabled && x.fn != fn then d
  else
    let d := setCq q { x with head := v % 65536 } d
    let stopping := d.dma.rings.filterMap fun (r, y) => if y.state == 5 && y.cq == q then some r else none
    stopping.foldl (fun d r => settleRing r none d) d

/-- REGISTER_WRITE (R11 to R13, R409): an aligned 32-bit write through a function to BAR0, of a field that no other row writes. RO fields,
reserved bits and offsets not listed ignore it. -/
def execRegisterWrite (t fn off : Nat) (value : BitVec 32) (s : State) : Host.Outcome State Fault Refusal :=
  act (fun d =>
    let d := advance t d
    let v := value.toNat
    if off % 4 != 0 || !(functions d).contains fn then d
    else if within off 0x1000 0x11FF then
      match localBox d fn ((off - 0x1000) / 32) with | some m => writeBox m (off % 32) v d | none => d
    else if within off 0x100000 0x11FFFF then
      match localBox d fn ((off - 0x100000) / 8192) with | some m => writeArea m (off % 8192) v d | none => d
    else if off = 0x30000 then setFn fn { fnOf d fn with snapSel := v / 2 % 2 } d
    else if within off 0x400000 0x47FFFF && off % 256 = 4 then writeHead fn ((off - 0x400000) / 256) v d
    else if within off 0x500000 0x503FFF && off % 256 = 0 then writeCqHead fn ((off - 0x500000) / 256) v d
    else d) s

-- What the registers read as (R9 to R13) -------------------------------------------------------------------------------------------

/-- 32 flags as a word, bit b for source 32w + b. -/
def flagWord (f : Nat → Bool) (w : Nat) : Nat := (List.range 32).foldl (fun a b => a + if f (32 * w + b) then 2 ^ b else 0) 0

/-- COLLECTOR.INT.SUMMARY: bit c while any STATUS bit of class c is set. -/
def summary (d : Dev) : Nat := (List.range 16).foldl (fun a c => a + if d.coll.status.any (fun (k, v) => v && k / 256 == c) then 2 ^ c else 0) 0

/-- The Collector's registers (14_collector.md, "Register map"; 02_guarded_delivery.md for SAFE_STATUS). CLASS_COUNT has a row of its
own, since its read clears it. -/
def readCollector (d : Dev) (o : Nat) : Nat :=
  let c := d.coll
  let word := fun (n : Nat) (k : Nat) => n / 2 ^ (32 * k) % 2 ^ 32
  if o = 0x00 then c.mode + 4 * c.profile + 8 * b2n c.selfOk
  else if o = 0x04 then b2n c.intPending + 65536 * summary d
  else if o = 0x08 then c.refused
  else if o = 0x10 then safeStatus d
  else if o = 0x18 || o = 0x1C then word c.firstMsg.toNat ((o - 0x18) / 4)
  else if o = 0x20 || o = 0x24 then word c.firstTick ((o - 0x20) / 4)
  else if o = 0x28 then b2n c.firstValid
  else if within o 0x40 0x7F then let x := classOf d ((o - 0x40) / 4); x.n + 256 * x.w
  else if within o 0x80 0xBF then (classOf d ((o - 0x80) / 4)).count
  else if o = 0xC0 then if c.profile = 0 then c.histCount else 0
  else if within o 0x100 0x2FF then
    let e := if c.profile = 0 then tget (0, 0) c.hist ((o - 0x100) / 16) else (0, 0)
    if o % 16 < 8 then word e.1.toNat (o % 16 / 4) else word e.2 (o % 8 / 4)
  else if within o 0x400 0x5FF then flagWord (fun s => tget false c.status s) ((o - 0x400) / 4)
  else if within o 0x600 0x7FF then flagWord (fun s => tget false c.guard s) ((o - 0x600) / 4)
  else if within o 0x800 0x9FF then flagWord (fun s => !(tget [] c.present s).isEmpty) ((o - 0x800) / 4)
  else if within o 0x4000 0x7FFF then
    let i := tget {} c.info ((o - 0x4000) / 4)
    if c.profile = 0 then i.count + 65536 * i.refused + 2 ^ 24 * i.lastKind else 0
  else 0

/-- The time registers of a function (R112). -/
def readTime (d : Dev) (fn o : Nat) : Nat :=
  let x := fnOf d fn
  match o with
  | 0x00 => 2 * x.snapSel + 4 * b2n x.snapValid
  | 0x08 => x.snap.ticks % 2 ^ 32
  | 0x0C => x.snap.ticks / 2 ^ 32
  | 0x10 => x.snap.bound + 65536 * x.snap.qual + 2 ^ 24 * x.snap.plane
  | 0x14 => x.snapSeq
  | 0x20 => d.time.servo + 4 * (d.time.src % 8) + 32 * b2n (d.time.mismatch.isSome || d.time.unresolved) + 64 * b2n d.time.westRepointed
      + 128 * b2n d.time.eastRepointed + 256 * b2n (d.time.west.hwHoldover || d.time.east.hwHoldover)
  | _ => 0

/-- A mailbox's control registers (R410); while Helm is BOOTING every mailbox reads BUSY with TAG 0 (R478). -/
def readBox (d : Dev) (m reg : Nat) : Nat :=
  let b := boxOf d m
  match reg with
  | 0x00 => b.cmd
  | 0x04 => b.len
  | 0x0C => if d.helm.state = 0 then 1 + 4 * b2n b.dbIgnored else b.state + 4 * b2n b.dbIgnored + 65536 * (if b.state = 0 then 0 else b.tag)
  | 0x10 => b.respLen + 65536 * b.status
  | _ => 0

/-- The DMA registers of a ring and of a completion queue (18_dma.md); what another function has set up reads 0 (R427). -/
def readRing (d : Dev) (fn r reg : Nat) : Nat :=
  let x := ringOf d r
  if x.state != 0 && x.fn != fn then 0
  else match reg with
  | 0x00 => x.tail
  | 0x04 => x.head + 65536 * ringState d x + 2 ^ 19 * b2n x.dbIgnored + 2 ^ 20 * b2n x.hostError
  | _ => 0

def readCq (d : Dev) (fn q reg : Nat) : Nat :=
  let x := cqOf d q
  if x.enabled && x.fn != fn then 0
  else match reg with
  | 0x00 => x.head
  | 0x04 => x.tail + 65536 * x.phase + 131072 * b2n (x.enabled && cqFull x)
  | 0x08 => b2n x.arm
  | _ => 0

/-- What an aligned 32-bit read of BAR0 through a function returns (R11, R409); offsets not listed read 0. -/
def readReg (d : Dev) (fn off : Nat) : Nat :=
  if off % 4 != 0 || !(functions d).contains fn then 0
  else if off = 0x10 then d.helm.state + 8 * b2n d.helm.bifurcated + 16 * fn + 256 * d.helm.restarts + 65536 * d.helm.fwRelease
  else if off = 0x14 then d.helm.heartbeat
  else if within off 0x100 0x13F then let x := tget (0, false) d.power.sensors ((off - 0x100) / 4); x.1 + 4096 * b2n x.2
  else if within off 0x1000 0x11FF then
    match localBox d fn ((off - 0x1000) / 32) with | some m => readBox d m (off % 32) | none => 0
  else if within off 0x20000 0x27FFF then readCollector d (off - 0x20000)
  else if within off 0x30000 0x300FF then readTime d fn (off - 0x30000)
  else if within off 0x100000 0x11FFFF then
    match localBox d fn ((off - 0x100000) / 8192) with
    | some m => if off % 8192 < 4096 then u32 (boxOf d m).reqArea (off % 8192) else u32 (boxOf d m).respArea (off % 8192 - 4096)
    | none => 0
  else if within off 0x400000 0x47FFFF then readRing d fn ((off - 0x400000) / 256) (off % 256)
  else if within off 0x500000 0x503FFF then readCq d fn ((off - 0x500000) / 256) (off % 256)
  else 0

end Sys2Proof.Machine
end

