-- ==== Sys2Proof/Machine/Verdict.lean ====
section
/-!
DEFINITION. What the egress Basin does with a copy: its verdict (R199 to R204), its launch in deterministic mode (R209), and its end
(R40, R48).
-/

namespace Sys2Proof.Machine

/-- A copy whose frame failed, or whose lookup is void: stomped where it has started, discarded where it has not (R129, R204). A Confluence
group that it leaves releases what it held back (R256). -/
def verdictBad (i : Nat) (d : Dev) : Dev :=
  let c := copyOf d i
  let d := stompCopy i 0x201 d
  match c.conf with | some (g, _) => releaseDue g d | none => d

/-- A committed verdict: a copy that was held for it becomes eligible, or its group may release it (R199, R256, R266). A copy of
deterministic mode that SPEC_OFF held launches at max(T, the verdict + 3 ns) (R213). -/
def verdictGood (i : Nat) (d : Dev) : Dev :=
  let c := copyOf d i
  let d := setCopy i { c with verdict := true } d
  match c.conf, c.level with
  | some (g, _), _ => releaseDue g d
  | none, some _ => if c.unequal then refreshPort c.port (modCopy i (fun c => { c with state := max c.state 1 }) d) else d
  | none, none =>
    if c.aside then refreshPort c.port (joinQueue i (setCopy i { c with verdict := true, aside := false } d))
    else
      let launch := if c.state = 0 then c.launch.map fun t => max t (portTicks d c.port + 48) else c.launch
      refreshPort c.port (modCopy i (fun c => { c with state := max c.state 1, launch }) d)

/-- VERDICT_ARRIVAL (R199, R204): the verdict of a copy's frame reaches its egress Basin. -/
def execVerdictArrival (t copy : Nat) (s : State) : Host.Outcome State Fault Refusal :=
  act (fun d =>
    let d := advance t d
    let c := copyOf d copy
    if !hasCopy d copy || c.state ≥ 3 || c.verdict then d
    else if c.void || (frameOf d c.frame).state = 3 then verdictBad copy d
    else if (frameOf d c.frame).state = 2 then verdictGood copy d
    else d) s

/-- DET_LAUNCH (R209 to R211): a cut-through copy of deterministic mode starts at the first start position at or after its launch
tick; one that was not ready at T, or whose Port could not take it at that position, starts as soon as it can and is counted as det-late.
A granted copy yields to no copy that has become eligible since (R227). `marker`: the position was held back by an alignment-marker slot. -/
def execDetLaunch (t copy : Nat) (marker : Bool) (s : State) : Host.Outcome State Fault Refusal :=
  act (fun d =>
    let d := advance t d
    let c := copyOf d copy
    match c.launch with
    | none => d
    | some due =>
      let now := portTicks d c.port
      let clear := c.cut || lrClear d c.port (c.out.length + 4 + (leavingTrailer d c).1.length)
      if !hasCopy d copy || c.state != 1 || now < due || !canStart d copy || !clear
          || (queueOf d c.queue).copies.head? != some copy then d
      else
        let first := launchT d (frameOf d c.frame) c.port
        let late := decide (first < due) || (!marker && decide (due + startGrain (portSpeed (portOf d c.port)) ≤ now))
        let d := if late then countEgress 0x206 c d else d
        startCopy copy now (noteSelected c.port c.queue (refreshPort c.port d))) s

-- The end of a copy (R40, R48) ---------------------------------------------------------------------------------------------------

/-- The Hold copy that can take the place of a stomped copy (R48). -/
def replacement (d : Dev) (c : Copy) : Option HoldSlot :=
  let f := frameOf d c.frame
  match f.stream, f.seq, c.slot with
  | some s, some n, some k =>
    match d.guard.holds.find? fun h => h.stream == s && h.seq == n with
    | some h => if h.lost then none else h.slots.find? fun x => x.slot == k
    | none => none
  | _, _, _ => none

/-- The Hold copy of a slot goes to the head of the stream queue, without REPLAY, with the trailer of the copy whose place it takes (R48,
R109). -/
def replaceCopy (c : Copy) (hs : HoldSlot) (d : Dev) : Dev :=
  let n := d.nextCopy
  let q := queueOf d c.queue
  let y : Copy := { frame := c.frame, port := c.port, queue := c.queue, slot := c.slot, kind := 4, state := 1, verdict := true,
                    enqAt := c.enqAt, enqClock := c.enqClock, out := hs.out, late := c.late, unequal := c.unequal, replay := c.replay,
                    part := 3, level := if c.unequal then c.level else none, rewrite := hs.rewrite, trailerMode := hs.trailerMode }
  let d := modFrame c.frame (fun f => { f with copies := f.copies ++ [n] }) (setCopy n y { d with nextCopy := n + 1 })
  countIn 0x400 c.queue (hs.out.length + 4) (setQueue c.queue { q with copies := n :: q.copies } d)

/-- A committed copy that is stomped is replaced from the Hold Pool where that holds its frame (R48). -/
def stompReplaced (i code : Nat) (d : Dev) : Dev :=
  let c := copyOf d i
  match (if (frameOf d c.frame).state = 2 then replacement d c else none) with
  | some hs => stompCopy i code (replaceCopy c hs d)
  | none => stompCopy i code d

/-- VERDICT_LATE (R200, R206): the last 4 bytes of a started copy are due and its verdict has not arrived. Where its frame has committed, a
guarded copy is replaced from the Hold Pool. -/
def execVerdictLate (t copy : Nat) (s : State) : Host.Outcome State Fault Refusal :=
  act (fun d =>
    let d := advance t d
    let c := copyOf d copy
    if hasCopy d copy && c.state = 2 && !c.verdict && c.out.length - 4 ≤ dueBytes d c then
      stompReplaced copy 0x205 (report (0x200 + basinOf c.port) 0x0D c.port d)
    else d) s

/-- COPY_END (R40, R48, R203): a copy's last byte leaves. With a good end-to-end CRC it is sent; otherwise it is stomped, and a
guarded one is replaced from the Hold Pool. -/
def execCopyEnd (t copy : Nat) (crcOk : Bool) (s : State) : Host.Outcome State Fault Refusal :=
  act (fun d =>
    let d := advance t d
    let c := copyOf d copy
    if !hasCopy d copy || c.state != 2 || !c.verdict then d
    else if crcOk then sendCopy copy d
    else stompReplaced copy 0x202 (report (0x200 + basinOf c.port) 0x0C c.port d)) s

-- Punts and injection (R440 to R442) ------------------------------------------------------------------------------------------------

/-- PUNT_DELIVERY (R441, R444): the oldest punt goes to its ring; `desc` is the descriptor read for it. -/
def execPuntDelivery (t : Nat) (desc reread : Option (List Byte)) (s : State) : Host.Outcome State Fault Refusal :=
  act (fun d =>
    let d := advance t d
    match d.dma.punts with
    | [] => d
    | (r, bytes) :: rest =>
      if outOfTurn d r then d
      else
        let d := { d with dma := { d.dma with punts := rest } }
        if (ringOf d r).state = 0 then count 0x801 0 d
        else if !ringReady d r || (ringOf d r).kind != 1 then count 0x802 0 d
        else
          let x := ringOf d r
          let (d, st) := startDesc r desc d
          match desc with
          | none => finishDesc r st.index 3 0 0 0 reread d
          | some b =>
            if !descOk x b || st.len < 32 then finishDesc r st.index 2 0 0 0 reread d
            else
              let n := min st.len bytes.length
              finishDesc r st.index 0 (b2n (decide (n < bytes.length))) n 0 reread (ringData r st.addr (bytes.take n) d)) s

/-- A frame injected into a Basin's pipeline (R442): padded, with its FCS, stamped in that Basin. -/
def injectPipeline (ring index port : Nat) (b : List Byte) (d : Dev) : Dev :=
  let b := padFrame b
  let st := stampAt d (0x40 + basinOf port) 0
  (newFrame { port, stamp := st, cap := st.ticks, bytes := b, fcs := crc32 b, arrived := d.clock, injected := some (ring, index),
              detHeader := d.spec.detHeader, specOff := d.spec.off } d).2

/-- A frame injected straight into a queue (R442): none where it is refused; one to a Port that is not UP is discarded there (R72). -/
def injectDirect (port queue : Nat) (b : List Byte) (d : Dev) : Option Dev × Nat :=
  let x := portOf d port
  let b := padFrame b
  let st := stampAt d (0x40 + basinOf port) 0
  let f : Frame := { port, stamp := st, cap := st.ticks, bytes := b, fcs := crc32 b, arrived := d.clock, state := 2, enqueued := true }
  let (q, beyond) := localQueue d port queue
  let part := if x.state = 0 || x.mtu < b.length + 4 then none else admitPart d f q false
  match part with
  | none => (none, st.ticks)
  | some part =>
    let (i, d) := newFrame f d
    let (k, d) := newCopy i { port, queue := q, state := 1, verdict := true, out := b, part, trailerMode := 0 } d
    let d := if beyond then count 0x20B port d else d
    if x.state != 4 then (some (discardCopy k 0x209 d), st.ticks)
    else (some (refreshPort port (countIn 0x400 q (b.length + 4) d)), st.ticks)

/-- A frame refused straight at its queue counts as a buffer drop there, unless its Port is DISABLED or its MTU too small (R218, R450). -/
def refuseDirect (port queue : Nat) (b : List Byte) (d : Dev) : Dev :=
  let x := portOf d port
  if x.state = 0 || x.mtu < (padFrame b).length + 4 then d else countNote (0x402, (localQueue d port queue).1) d

/-- The fields of an INJECT descriptor are within their limits (R430, R442). -/
def injectOk (d : Dev) (b : List Byte) (len : Nat) : Bool :=
  let port := u16 b 18
  decide (u8 b 16 ≤ 1) && u8 b 17 == 0 && zerosAt b 22 10 && !portUnused d port && decide (u16 b 20 ≤ 1023) && (u8 b 16 == 1 || u16 b 20 == 0)
    && decide (14 ≤ len) && (u8 b 16 == 1 || decide (len + 4 ≤ (portOf d port).mtu))

/-- INJECT_FRAME (R442): an INJECT ring's next descriptor and the frame it names. -/
def execInjectFrame (t ring : Nat) (desc data reread : Option (List Byte)) (s : State) : Host.Outcome State Fault Refusal :=
  act (fun d =>
    let d := advance t d
    let x := ringOf d ring
    if x.kind != 3 || !ringReady d ring then d
    else
      let (d, st) := startDesc ring desc d
      match desc with
      | none => finishDesc ring st.index 3 0 0 0 reread d
      | some b =>
        if !descOk x b || !injectOk d b st.len then finishDesc ring st.index 2 0 0 0 reread d
        else
          match data with
          | none => finishDesc ring st.index 3 0 0 0 reread d
          | some raw =>
            let bytes := swapBytes x.swap (padTo st.len raw)
            if u8 b 16 = 0 then injectPipeline ring st.index (u16 b 18) bytes d
            else
              match injectDirect (u16 b 18) (u16 b 20) bytes d with
              | (some d, ticks) => finishDesc ring st.index 0 0 st.len ticks reread d
              | (none, ticks) => finishDesc ring st.index 5 0 st.len ticks reread (refuseDirect (u16 b 18) (u16 b 20) bytes d)) s

end Sys2Proof.Machine
end

