-- ==== Sys2Proof/Machine/Dispatch.lean ====
section
/-!
DEFINITION. exec: one arm for each command, each a direct call of its meaning.
-/

namespace Sys2Proof.Machine

def exec (i : Instr) (s : State) : Host.Outcome State Fault Refusal :=
  match i with
  | .deviceIdentify c => Sys2Proof.Machine.execDeviceIdentify c s
  | .eventConfigure c => Sys2Proof.Machine.execEventConfigure c s
  | .firmwareUpdate c => Sys2Proof.Machine.execFirmwareUpdate c s
  | .ticketStatus c => Sys2Proof.Machine.execTicketStatus c s
  | .unknownOpcode c opcode => Sys2Proof.Machine.execUnknownOpcode c opcode s
  | .portConfigure c => Sys2Proof.Machine.execPortConfigure c s
  | .portDisable c => Sys2Proof.Machine.execPortDisable c s
  | .portStatus c => Sys2Proof.Machine.execPortStatus c s
  | .moduleMap c => Sys2Proof.Machine.execModuleMap c s
  | .moduleAccess c => Sys2Proof.Machine.execModuleAccess c s
  | .guardSafeExit c => Sys2Proof.Machine.execGuardSafeExit c s
  | .guardStream c => Sys2Proof.Machine.execGuardStream c s
  | .timeConfigure c => Sys2Proof.Machine.execTimeConfigure c s
  | .timeSource c => Sys2Proof.Machine.execTimeSource c s
  | .timeStatus c => Sys2Proof.Machine.execTimeStatus c s
  | .timeStep c => Sys2Proof.Machine.execTimeStep c s
  | .ptpPort c => Sys2Proof.Machine.execPtpPort c s
  | .parseLoad c host => Sys2Proof.Machine.execParseLoad c host s
  | .parseOutcome c => Sys2Proof.Machine.execParseOutcome c s
  | .parseInfo c => Sys2Proof.Machine.execParseInfo c s
  | .tableDefine c => Sys2Proof.Machine.execTableDefine c s
  | .tableWrite c => Sys2Proof.Machine.execTableWrite c s
  | .tableSwap c => Sys2Proof.Machine.execTableSwap c s
  | .tableSync c => Sys2Proof.Machine.execTableSync c s
  | .tableStatus c => Sys2Proof.Machine.execTableStatus c s
  | .actionWrite c => Sys2Proof.Machine.execActionWrite c s
  | .mcastWrite c host => Sys2Proof.Machine.execMcastWrite c host s
  | .mirrorConfigure c => Sys2Proof.Machine.execMirrorConfigure c s
  | .learnConfigure c => Sys2Proof.Machine.execLearnConfigure c s
  | .learnFlush c => Sys2Proof.Machine.execLearnFlush c s
  | .specConfigure c => Sys2Proof.Machine.execSpecConfigure c s
  | .queueAllocate c => Sys2Proof.Machine.execQueueAllocate c s
  | .queueFree c => Sys2Proof.Machine.execQueueFree c s
  | .queueConfigure c => Sys2Proof.Machine.execQueueConfigure c s
  | .groupConfigure c => Sys2Proof.Machine.execGroupConfigure c s
  | .shaperSet c => Sys2Proof.Machine.execShaperSet c s
  | .bufferConfigure c => Sys2Proof.Machine.execBufferConfigure c s
  | .policerConfigure c => Sys2Proof.Machine.execPolicerConfigure c s
  | .policerMap c => Sys2Proof.Machine.execPolicerMap c s
  | .gateList c => Sys2Proof.Machine.execGateList c s
  | .sampleConfigure c => Sys2Proof.Machine.execSampleConfigure c s
  | .queueHistogram c => Sys2Proof.Machine.execQueueHistogram c s
  | .confluenceConfigure c => Sys2Proof.Machine.execConfluenceConfigure c s
  | .confluenceMember c => Sys2Proof.Machine.execConfluenceMember c s
  | .levelConfigure c host => Sys2Proof.Machine.execLevelConfigure c host s
  | .releaseStatus c => Sys2Proof.Machine.execReleaseStatus c s
  | .ledgerConfigure c => Sys2Proof.Machine.execLedgerConfigure c s
  | .ledgerStatus c => Sys2Proof.Machine.execLedgerStatus c s
  | .ledgerCerts c => Sys2Proof.Machine.execLedgerCerts c s
  | .pairConfigure c => Sys2Proof.Machine.execPairConfigure c s
  | .pairStatus c => Sys2Proof.Machine.execPairStatus c s
  | .pairTakeover c => Sys2Proof.Machine.execPairTakeover c s
  | .pairDigest c => Sys2Proof.Machine.execPairDigest c s
  | .pairResync c => Sys2Proof.Machine.execPairResync c s
  | .cisternRegions c => Sys2Proof.Machine.execCisternRegions c s
  | .cisternStatus c => Sys2Proof.Machine.execCisternStatus c s
  | .cisternFence c => Sys2Proof.Machine.execCisternFence c s
  | .cisternRetrain c => Sys2Proof.Machine.execCisternRetrain c s
  | .collectorMode c => Sys2Proof.Machine.execCollectorMode c s
  | .collectorGuard c => Sys2Proof.Machine.execCollectorGuard c s
  | .collectorThreshold c => Sys2Proof.Machine.execCollectorThreshold c s
  | .stewardOps c => Sys2Proof.Machine.execStewardOps c s
  | .stewardAbort c => Sys2Proof.Machine.execStewardAbort c s
  | .cascadeConfigure c => Sys2Proof.Machine.execCascadeConfigure c s
  | .cascadeAllow c => Sys2Proof.Machine.execCascadeAllow c s
  | .cascadeStatus c => Sys2Proof.Machine.execCascadeStatus c s
  | .cascadeExpel c => Sys2Proof.Machine.execCascadeExpel c s
  | .cascadeResync c => Sys2Proof.Machine.execCascadeResync c s
  | .dmaRing c reread => Sys2Proof.Machine.execDmaRing c reread s
  | .dmaCq c => Sys2Proof.Machine.execDmaCq c s
  | .dmaPunt c => Sys2Proof.Machine.execDmaPunt c s
  | .counterProgram c => Sys2Proof.Machine.execCounterProgram c s
  | .counterSnapshot c => Sys2Proof.Machine.execCounterSnapshot c s
  | .counterWindow c => Sys2Proof.Machine.execCounterWindow c s
  | .powerStep c => Sys2Proof.Machine.execPowerStep c s
  | .deviceReset c => Sys2Proof.Machine.execDeviceReset c s
  | .deviceBringup c => Sys2Proof.Machine.execDeviceBringup c s
  | .registerWrite t fn off value => Sys2Proof.Machine.execRegisterWrite t fn off value s
  | .timeLatch t fn sel => Sys2Proof.Machine.execTimeLatch t fn sel s
  | .statusClear t fn word bits msgs => Sys2Proof.Machine.execStatusClear t fn word bits msgs s
  | .intPendingClear t fn msgs => Sys2Proof.Machine.execIntPendingClear t fn msgs s
  | .firstValidClear t fn msgs => Sys2Proof.Machine.execFirstValidClear t fn msgs s
  | .classCountRead t fn cls msgs => Sys2Proof.Machine.execClassCountRead t fn cls msgs s
  | .counterRead t fn off len => Sys2Proof.Machine.execCounterRead t fn off len s
  | .ringDoorbell t fn ring tail reread => Sys2Proof.Machine.execRingDoorbell t fn ring tail reread s
  | .cqArmWrite t fn cq value => Sys2Proof.Machine.execCqArmWrite t fn cq value s
  | .frameArrival t port bytes fcs => Sys2Proof.Machine.execFrameArrival t port bytes fcs s
  | .parseWalk t frame early parity => Sys2Proof.Machine.execParseWalk t frame early parity s
  | .enqueue t frame => Sys2Proof.Machine.execEnqueue t frame s
  | .recirculation t frame => Sys2Proof.Machine.execRecirculation t frame s
  | .confirmation t frame cellErr storeErr reread => Sys2Proof.Machine.execConfirmation t frame cellErr storeErr reread s
  | .verdictArrival t copy => Sys2Proof.Machine.execVerdictArrival t copy s
  | .verdictLate t copy => Sys2Proof.Machine.execVerdictLate t copy s
  | .receiptDeadline t frame => Sys2Proof.Machine.execReceiptDeadline t frame s
  | .retentionDeadline t frame => Sys2Proof.Machine.execRetentionDeadline t frame s
  | .retentionWriteDone t frame good => Sys2Proof.Machine.execRetentionWriteDone t frame good s
  | .detLaunch t copy marker => Sys2Proof.Machine.execDetLaunch t copy marker s
  | .portSelection t port => Sys2Proof.Machine.execPortSelection t port s
  | .memberEligible t port => Sys2Proof.Machine.execMemberEligible t port s
  | .copyEnd t copy crcOk => Sys2Proof.Machine.execCopyEnd t copy crcOk s
  | .learnRelease t basin => Sys2Proof.Machine.execLearnRelease t basin s
  | .learnAbandon t basin => Sys2Proof.Machine.execLearnAbandon t basin s
  | .confRelease t group => Sys2Proof.Machine.execConfRelease t group s
  | .lrEligible t copy => Sys2Proof.Machine.execLrEligible t copy s
  | .lrLaunch t copy marker => Sys2Proof.Machine.execLrLaunch t copy marker s
  | .gateChange t port => Sys2Proof.Machine.execGateChange t port s
  | .gateListStart t port => Sys2Proof.Machine.execGateListStart t port s
  | .sampleInstant t => Sys2Proof.Machine.execSampleInstant t s
  | .sampleClose t => Sys2Proof.Machine.execSampleClose t s
  | .windowClose t port dir => Sys2Proof.Machine.execWindowClose t port dir s
  | .counterEpochBoundary t => Sys2Proof.Machine.execCounterEpochBoundary t s
  | .puntDelivery t desc reread => Sys2Proof.Machine.execPuntDelivery t desc reread s
  | .injectFrame t ring desc data reread => Sys2Proof.Machine.execInjectFrame t ring desc data reread s
  | .gatherDescriptor t ring desc index reread => Sys2Proof.Machine.execGatherDescriptor t ring desc index reread s
  | .recordFill t ring desc reread => Sys2Proof.Machine.execRecordFill t ring desc reread s
  | .recordPartialTimeout t ring reread => Sys2Proof.Machine.execRecordPartialTimeout t ring reread s
  | .cqSignal t cq => Sys2Proof.Machine.execCqSignal t cq s
  | .functionLevelReset t fn reading => Sys2Proof.Machine.execFunctionLevelReset t fn reading s
  | .timeBeat t east corrections => Sys2Proof.Machine.execTimeBeat t east corrections s
  | .beatMissing t isl => Sys2Proof.Machine.execBeatMissing t isl s
  | .coreCrossCheck t measured => Sys2Proof.Machine.execCoreCrossCheck t measured s
  | .servoUpdate t frac slew offset ten => Sys2Proof.Machine.execServoUpdate t frac slew offset ten s
  | .coreNoUpdate t east => Sys2Proof.Machine.execCoreNoUpdate t east s
  | .ppsEdge t errWest errEast => Sys2Proof.Machine.execPpsEdge t errWest errEast s
  | .todMessage t msg => Sys2Proof.Machine.execTodMessage t msg s
  | .sourceQualified t index => Sys2Proof.Machine.execSourceQualified t index s
  | .sourceLost t seen => Sys2Proof.Machine.execSourceLost t seen s
  | .sourceRestore t index => Sys2Proof.Machine.execSourceRestore t index s
  | .mismatchTimeout t refs => Sys2Proof.Machine.execMismatchTimeout t refs s
  | .stepApply t => Sys2Proof.Machine.execStepApply t s
  | .ppsOut t => Sys2Proof.Machine.execPpsOut t s
  | .todTx t => Sys2Proof.Machine.execTodTx t s
  | .ptpPendingExpire t => Sys2Proof.Machine.execPtpPendingExpire t s
  | .anResolution t port base fec ability => Sys2Proof.Machine.execAnResolution t port base fec ability s
  | .anRestart t port => Sys2Proof.Machine.execAnRestart t port s
  | .trainingComplete t port => Sys2Proof.Machine.execTrainingComplete t port s
  | .trainingTimeout t port lanes => Sys2Proof.Machine.execTrainingTimeout t port lanes s
  | .alignmentAchieved t port inVar egVar => Sys2Proof.Machine.execAlignmentAchieved t port inVar egVar s
  | .upHoldElapsed t port => Sys2Proof.Machine.execUpHoldElapsed t port s
  | .linkLoss t port cause => Sys2Proof.Machine.execLinkLoss t port cause s
  | .portDrainEnd t port => Sys2Proof.Machine.execPortDrainEnd t port s
  | .modulePoll t lane reply => Sys2Proof.Machine.execModulePoll t lane reply s
  | .moduleInt t i2c replies => Sys2Proof.Machine.execModuleInt t i2c replies s
  | .moduleMonitor t lane flags cause => Sys2Proof.Machine.execModuleMonitor t lane flags cause s
  | .moduleStateReady t lane => Sys2Proof.Machine.execModuleStateReady t lane s
  | .i2cTransactionDone t i2c ok data => Sys2Proof.Machine.execI2cTransactionDone t i2c ok data s
  | .tetherLinkUp t => Sys2Proof.Machine.execTetherLinkUp t s
  | .tetherLinkDown t lane => Sys2Proof.Machine.execTetherLinkDown t lane s
  | .helloSend t => Sys2Proof.Machine.execHelloSend t s
  | .helloReceive t body latency => Sys2Proof.Machine.execHelloReceive t body latency s
  | .heartbeatSend t => Sys2Proof.Machine.execHeartbeatSend t s
  | .heartbeatReceive t msg => Sys2Proof.Machine.execHeartbeatReceive t msg s
  | .contactLost t => Sys2Proof.Machine.execContactLost t s
  | .sentReportSend t => Sys2Proof.Machine.execSentReportSend t s
  | .sentReceive t msg => Sys2Proof.Machine.execSentReceive t msg s
  | .sentReportTimeout t => Sys2Proof.Machine.execSentReportTimeout t s
  | .receiptReceive t msg => Sys2Proof.Machine.execReceiptReceive t msg s
  | .disputeWindowClose t => Sys2Proof.Machine.execDisputeWindowClose t s
  | .disputeReceive t msg => Sys2Proof.Machine.execDisputeReceive t msg s
  | .mirrorReceive t msg => Sys2Proof.Machine.execMirrorReceive t msg s
  | .mirrorTimeout t => Sys2Proof.Machine.execMirrorTimeout t s
  | .controlReceive t msg => Sys2Proof.Machine.execControlReceive t msg s
  | .healthSend t corrected uncorrectable => Sys2Proof.Machine.execHealthSend t corrected uncorrectable s
  | .healthReceive t msg => Sys2Proof.Machine.execHealthReceive t msg s
  | .snapshotReceive t seq data => Sys2Proof.Machine.execSnapshotReceive t seq data s
  | .tetherEcho t latency => Sys2Proof.Machine.execTetherEcho t latency s
  | .pulsePattern t pattern => Sys2Proof.Machine.execPulsePattern t pattern s
  | .pulseTimeout t => Sys2Proof.Machine.execPulseTimeout t s
  | .witnessVerdict t grant => Sys2Proof.Machine.execWitnessVerdict t grant s
  | .witnessAbsent t => Sys2Proof.Machine.execWitnessAbsent t s
  | .startWaitExpiry t => Sys2Proof.Machine.execStartWaitExpiry t s
  | .takeoverDecision t => Sys2Proof.Machine.execTakeoverDecision t s
  | .plannedSwapBeat t => Sys2Proof.Machine.execPlannedSwapBeat t s
  | .revertiveSwap t => Sys2Proof.Machine.execRevertiveSwap t s
  | .resyncStart t => Sys2Proof.Machine.execResyncStart t s
  | .streamAlignTimeout t => Sys2Proof.Machine.execStreamAlignTimeout t s
  | .synchronous t => Sys2Proof.Machine.execSynchronous t s
  | .vinLow t => Sys2Proof.Machine.execVinLow t s
  | .finalReportSend t => Sys2Proof.Machine.execFinalReportSend t s
  | .freezeStoreDone t => Sys2Proof.Machine.execFreezeStoreDone t s
  | .vinRecover t => Sys2Proof.Machine.execVinRecover t s
  | .vinFail t => Sys2Proof.Machine.execVinFail t s
  | .vinRise t => Sys2Proof.Machine.execVinRise t s
  | .regulatorGroupUp t => Sys2Proof.Machine.execRegulatorGroupUp t s
  | .powerOnResetRelease t rolePref bifurcated patch => Sys2Proof.Machine.execPowerOnResetRelease t rolePref bifurcated patch s
  | .perstAssert t => Sys2Proof.Machine.execPerstAssert t s
  | .perstDeassert t => Sys2Proof.Machine.execPerstDeassert t s
  | .sensorRead t readings => Sys2Proof.Machine.execSensorRead t readings s
  | .thermalPowerOff t => Sys2Proof.Machine.execThermalPowerOff t s
  | .coldResetStart t rolePref bifurcated patch => Sys2Proof.Machine.execColdResetStart t rolePref bifurcated patch s
  | .warmResetStart t placed patch => Sys2Proof.Machine.execWarmResetStart t placed patch s
  | .basinReset t basin => Sys2Proof.Machine.execBasinReset t basin s
  | .portReset t port => Sys2Proof.Machine.execPortReset t port s
  | .ingressOpen t => Sys2Proof.Machine.execIngressOpen t s
  | .autoRippleIdle t unit => Sys2Proof.Machine.execAutoRippleIdle t unit s
  | .unitWake t unit => Sys2Proof.Machine.execUnitWake t unit s
  | .unitReturn t unit => Sys2Proof.Machine.execUnitReturn t unit s
  | .stepReached t unit => Sys2Proof.Machine.execStepReached t unit s
  | .cisternWake t => Sys2Proof.Machine.execCisternWake t s
  | .cisternIdle t => Sys2Proof.Machine.execCisternIdle t s
  | .refreshInterval t channel slots => Sys2Proof.Machine.execRefreshInterval t channel slots s
  | .mr4Read t channel rates => Sys2Proof.Machine.execMr4Read t channel rates s
  | .oscillatorRead t channel dqi dqo => Sys2Proof.Machine.execOscillatorRead t channel dqi dqo s
  | .trainingDone t channel ok => Sys2Proof.Machine.execTrainingDone t channel ok s
  | .fenceHolds t op => Sys2Proof.Machine.execFenceHolds t op s
  | .faultMessage t msgs => Sys2Proof.Machine.execFaultMessage t msgs s
  | .coalesced t source => Sys2Proof.Machine.execCoalesced t source s
  | .duplicateMismatch t => Sys2Proof.Machine.execDuplicateMismatch t s
  | .recoveryTimeExpiry t => Sys2Proof.Machine.execRecoveryTimeExpiry t s
  | .ledgerRecordWrite t => Sys2Proof.Machine.execLedgerRecordWrite t s
  | .recordPendingTimeout t frame => Sys2Proof.Machine.execRecordPendingTimeout t frame s
  | .blockTimeClose t => Sys2Proof.Machine.execBlockTimeClose t s
  | .sealWrite t signed => Sys2Proof.Machine.execSealWrite t signed s
  | .sealDeadline t => Sys2Proof.Machine.execSealDeadline t s
  | .ledgerExport t ring bad desc reread => Sys2Proof.Machine.execLedgerExport t ring bad desc reread s
  | .cascadeBeatSend t => Sys2Proof.Machine.execCascadeBeatSend t s
  | .cascadeBeatReceive t port msg => Sys2Proof.Machine.execCascadeBeatReceive t port msg s
  | .beatEcho t roundTrip => Sys2Proof.Machine.execBeatEcho t roundTrip s
  | .discoverSend t => Sys2Proof.Machine.execDiscoverSend t s
  | .discoverReceive t port msg => Sys2Proof.Machine.execDiscoverReceive t port msg s
  | .joinReceive t port msg certOk signOk => Sys2Proof.Machine.execJoinReceive t port msg certOk signOk s
  | .acceptReceive t port msg certOk signOk => Sys2Proof.Machine.execAcceptReceive t port msg certOk signOk s
  | .refuseReceive t port msg => Sys2Proof.Machine.execRefuseReceive t port msg s
  | .pushReceive t port msg data => Sys2Proof.Machine.execPushReceive t port msg data s
  | .ackReceive t port msg => Sys2Proof.Machine.execAckReceive t port msg s
  | .pushRetransmit t => Sys2Proof.Machine.execPushRetransmit t s
  | .pushAckTimeout t => Sys2Proof.Machine.execPushAckTimeout t s
  | .verdictSend v => Sys2Proof.Machine.execVerdictSend v s
  | .verdictReceive t port msg => Sys2Proof.Machine.execVerdictReceive t port msg s
  | .cascadeStatusSend t => Sys2Proof.Machine.execCascadeStatusSend t s
  | .cascadeStatusReceive t port msg => Sys2Proof.Machine.execCascadeStatusReceive t port msg s
  | .memberTimeout t => Sys2Proof.Machine.execMemberTimeout t s
  | .managerTimeout t => Sys2Proof.Machine.execManagerTimeout t s
  | .sealNoteReceive t port msg => Sys2Proof.Machine.execSealNoteReceive t port msg s
  | .cascadeLinkClose t => Sys2Proof.Machine.execCascadeLinkClose t s
  | .leaveReceive t port msg => Sys2Proof.Machine.execLeaveReceive t port msg s
  | .stewardOpStart t op toEnd => Sys2Proof.Machine.execStewardOpStart t op toEnd s
  | .stewardResume t op => Sys2Proof.Machine.execStewardResume t op s
  | .stewardWaitEnd t => Sys2Proof.Machine.execStewardWaitEnd t s
  | .pollOverdue t => Sys2Proof.Machine.execPollOverdue t s
  | .tableScrubTimer t found => Sys2Proof.Machine.execTableScrubTimer t found s
  | .parityReread t basin addr again => Sys2Proof.Machine.execParityReread t basin addr again s
  | .ageSweep t table => Sys2Proof.Machine.execAgeSweep t table s
  | .pinCheck t => Sys2Proof.Machine.execPinCheck t s
  | .patrolScrubTimer t groups data check toEnd => Sys2Proof.Machine.execPatrolScrubTimer t groups data check toEnd s
  | .swapFlip t => Sys2Proof.Machine.execSwapFlip t s
  | .swapDrainDone t => Sys2Proof.Machine.execSwapDrainDone t s
  | .helmWatchdog t cpu => Sys2Proof.Machine.execHelmWatchdog t cpu s
  | .helmReady t => Sys2Proof.Machine.execHelmReady t s
  | .helmHeartbeat t => Sys2Proof.Machine.execHelmHeartbeat t s
  | .eventVector t fn => Sys2Proof.Machine.execEventVector t fn s
  | .nop t ok => Sys2Proof.Machine.execNop t ok s
  | .mov t a b ok => Sys2Proof.Machine.execMov t a b ok s
  | .add t a b c ok => Sys2Proof.Machine.execAdd t a b c ok s
  | .sub t a b c ok => Sys2Proof.Machine.execSub t a b c ok s
  | .and t a b c ok => Sys2Proof.Machine.execAnd t a b c ok s
  | .or t a b c ok => Sys2Proof.Machine.execOr t a b c ok s
  | .xor t a b c ok => Sys2Proof.Machine.execXor t a b c ok s
  | .shl t a b c ok => Sys2Proof.Machine.execShl t a b c ok s
  | .shr t a b c ok => Sys2Proof.Machine.execShr t a b c ok s
  | .cmp t b c ok => Sys2Proof.Machine.execCmp t b c ok s
  | .ldi t a imm ok => Sys2Proof.Machine.execLdi t a imm ok s
  | .addi t a imm ok => Sys2Proof.Machine.execAddi t a imm ok s
  | .shli t a imm ok => Sys2Proof.Machine.execShli t a imm ok s
  | .cmpi t a imm ok => Sys2Proof.Machine.execCmpi t a imm ok s
  | .br t a imm ok => Sys2Proof.Machine.execBr t a imm ok s
  | .jmp t b ok => Sys2Proof.Machine.execJmp t b ok s
  | .call t b ok => Sys2Proof.Machine.execCall t b ok s
  | .ret t ok => Sys2Proof.Machine.execRet t ok s
  | .crc t a b c ok => Sys2Proof.Machine.execCrc t a b c ok s
  | .trd t a b c ok => Sys2Proof.Machine.execTrd t a b c ok s
  | .twr t a b c ok => Sys2Proof.Machine.execTwr t a b c ok s
  | .twait t ok => Sys2Proof.Machine.execTwait t ok s
  | .crd t a b ok => Sys2Proof.Machine.execCrd t a b ok s
  | .cwr t a b ok => Sys2Proof.Machine.execCwr t a b ok s
  | .cwait t ok => Sys2Proof.Machine.execCwait t ok s
  | .rrd t a b ok => Sys2Proof.Machine.execRrd t a b ok s
  | .rwr t a b ok => Sys2Proof.Machine.execRwr t a b ok s
  | .relook t a b c ok => Sys2Proof.Machine.execRelook t a b c ok s
  | .sha t a b ok => Sys2Proof.Machine.execSha t a b ok s
  | .evwait t a imm ok => Sys2Proof.Machine.execEvwait t a imm ok s
  | .poll t ok => Sys2Proof.Machine.execPoll t ok s
  | .token t imm ok => Sys2Proof.Machine.execToken t imm ok s
  | .undo t imm ok => Sys2Proof.Machine.execUndo t imm ok s
  | .done t a imm ok => Sys2Proof.Machine.execDone t a imm ok s
  | .fault t a imm ok => Sys2Proof.Machine.execFault t a imm ok s
  | .holdPoolScrub t stream seq => Sys2Proof.Machine.execHoldPoolScrub t stream seq s
  | .ptpMessageSend t port queue since bytes => Sys2Proof.Machine.execPtpMessageSend t port queue since bytes s
  | .heartbeatTimeout t => Sys2Proof.Machine.execHeartbeatTimeout t s
  | .tetherRetransmit t => Sys2Proof.Machine.execTetherRetransmit t s
  | .sealNoteRetransmit t => Sys2Proof.Machine.execSealNoteRetransmit t s
  | .conditionEnd t source kind => Sys2Proof.Machine.execConditionEnd t source kind s
  | .helmBootDone t markedReads otherReads release => Sys2Proof.Machine.execHelmBootDone t markedReads otherReads release s
  | .serdesCalibrationDone t => Sys2Proof.Machine.execSerdesCalibrationDone t s
  | .flashWriteDone t image good left => Sys2Proof.Machine.execFlashWriteDone t image good left s
  | .testHeader t basin good => Sys2Proof.Machine.execTestHeader t basin good s

end Sys2Proof.Machine
end

