-- ==== Sys2Proof/Machine/Step.lean ====
section
/-!
DEFINITION. The step: the command that has waited longest runs on the device with the rest of the queue.
-/

namespace Sys2Proof.Machine

/-- One step: the command at the front of the queue, or, on an empty queue, nothing (assumption log 2). -/
def step (s : State) : Host.Outcome State Fault Refusal :=
  match s.pending with
  | [] => .next s
  | c :: rest => exec c { s with pending := rest }

/-- A state with the command that a word spells put in front of its queue. -/
def State.withFetchWord (s : State) (nbits w : Nat) : State :=
  match decodeTableWord nbits w with
  | some i => { s with pending := i :: s.pending }
  | none => s

end Sys2Proof.Machine
end

