-- ==== Sys2Proof/Laws/Table.lean ====
section
/-!
SUPPORT. Tables: what a read gives after a write, and that every table operation keeps the canonical form.
-/

namespace Sys2Proof.Machine

variable {α : Type}

theorem tget_tins_same (d : α) (k : Nat) (v : α) (t : Tbl α) : tget d (tins k v t) k = v := by
  induction t with
  | nil => simp [tins, tget]
  | cons e t ih =>
    obtain ⟨k', v'⟩ := e
    unfold tins
    split
    · simp [tget]
    · split
      · simp [tget]
      · simp [tget, ih]; omega

theorem tget_tins_other (d : α) {k j : Nat} (v : α) (t : Tbl α) (h : j ≠ k) : tget d (tins k v t) j = tget d t j := by
  induction t with
  | nil => simp [tins, tget, Ne.symm h]
  | cons e t ih =>
    obtain ⟨k', v'⟩ := e
    unfold tins
    split
    · simp [tget, Ne.symm h]
    · split
      · rename_i hk; subst hk; simp [tget, Ne.symm h]
      · simp [tget, ih]

theorem tget_filter_same (d : α) (k : Nat) (t : Tbl α) : tget d (t.filter (fun e => e.1 != k)) k = d := by
  induction t with
  | nil => rfl
  | cons e t ih =>
    obtain ⟨k', v'⟩ := e
    by_cases hk : k' = k
    · simpa [hk] using ih
    · simp [hk, tget]; simpa using ih

theorem tget_filter_other (d : α) {k j : Nat} (t : Tbl α) (h : j ≠ k) : tget d (t.filter (fun e => e.1 != k)) j = tget d t j := by
  induction t with
  | nil => rfl
  | cons e t ih =>
    obtain ⟨k', v'⟩ := e
    by_cases hk : k' = k
    · subst hk; simp [tget, Ne.symm h]; simpa using ih
    · simp [hk, tget]; split
      · rfl
      · simpa using ih

/-- A read of the key just written gives the value written. -/
@[simp] theorem tget_tput_same [DecidableEq α] (d : α) (k : Nat) (v : α) (t : Tbl α) : tget d (tput d k v t) k = v := by
  unfold tput
  split
  · rename_i h; rw [tget_filter_same, h]
  · exact tget_tins_same d k v t

/-- A write leaves what every other key reads as. -/
theorem tget_tput_other [DecidableEq α] (d : α) {k j : Nat} (v : α) (t : Tbl α) (h : j ≠ k) : tget d (tput d k v t) j = tget d t j := by
  unfold tput
  split
  · exact tget_filter_other d t h
  · exact tget_tins_other d v t h

/-- Both at once: what a table reads as after a write. -/
theorem tget_tput [DecidableEq α] (d : α) (k j : Nat) (v : α) (t : Tbl α) :
    tget d (tput d k v t) j = if j = k then v else tget d t j := by
  split
  · rename_i h; subst h; simp
  · rename_i h; exact tget_tput_other d v t h

@[simp] theorem tget_tmod_same [DecidableEq α] (d : α) (k : Nat) (f : α → α) (t : Tbl α) : tget d (tmod d k f t) k = f (tget d t k) := by
  simp [tmod]

theorem tget_tmod_other [DecidableEq α] (d : α) {k j : Nat} (f : α → α) (t : Tbl α) (h : j ≠ k) : tget d (tmod d k f t) j = tget d t j := by
  simp [tmod, tget_tput_other, h]

@[simp] theorem tget_nil (d : α) (k : Nat) : tget d ([] : Tbl α) k = d := rfl

/-- The canonical form, as a property of the list. -/
theorem twf_iff [DecidableEq α] (d : α) (t : Tbl α) : twf d t = true ↔ (∀ e ∈ t, e.2 ≠ d) ∧ t.Pairwise (fun a b => a.1 < b.1) := by
  induction t with
  | nil => simp [twf]
  | cons e t ih =>
    obtain ⟨k, v⟩ := e
    simp only [twf, Bool.and_eq_true, ih, List.pairwise_cons, List.mem_cons, forall_eq_or_imp, List.all_eq_true, decide_eq_true_eq]
    exact ⟨fun ⟨⟨a, b⟩, c, e⟩ => ⟨⟨a, c⟩, b, e⟩, fun ⟨⟨a, c⟩, b, e⟩ => ⟨⟨a, b⟩, c, e⟩⟩

theorem mem_tins {k : Nat} {v : α} {t : Tbl α} {e : Nat × α} (h : e ∈ tins k v t) : e = (k, v) ∨ e ∈ t := by
  induction t with
  | nil => simpa [tins] using h
  | cons a t ih =>
    obtain ⟨k', v'⟩ := a
    unfold tins at h
    split at h
    · simpa using h
    · split at h
      · rcases List.mem_cons.mp h with h | h
        · exact .inl h
        · exact .inr (List.mem_cons_of_mem _ h)
      · simp at h ⊢
        rcases h with h | h
        · exact .inr (.inl h)
        · rcases ih h with h | h
          · exact .inl h
          · exact .inr (.inr h)

theorem tins_sorted {k : Nat} {v : α} {t : Tbl α} (h : t.Pairwise (fun a b => a.1 < b.1)) : (tins k v t).Pairwise (fun a b => a.1 < b.1) := by
  induction t with
  | nil => simp [tins]
  | cons a t ih =>
    obtain ⟨k', v'⟩ := a
    obtain ⟨h1, h2⟩ := List.pairwise_cons.mp h
    unfold tins
    split
    · rename_i hk
      refine List.pairwise_cons.mpr ⟨?_, h⟩
      intro b hb
      rcases List.mem_cons.mp hb with hb | hb
      · subst hb; exact hk
      · exact Nat.lt_trans hk (h1 b hb)
    · split
      · rename_i hk
        refine List.pairwise_cons.mpr ⟨?_, h2⟩
        intro b hb
        simpa [hk] using h1 b hb
      · rename_i hk hk'
        refine List.pairwise_cons.mpr ⟨?_, ih h2⟩
        intro b hb
        rcases mem_tins hb with hb | hb
        · subst hb; simp; omega
        · exact h1 b hb

/-- A write keeps the canonical form. -/
theorem tput_wf [DecidableEq α] (d : α) (k : Nat) (v : α) {t : Tbl α} (h : twf d t = true) : twf d (tput d k v t) = true := by
  rw [twf_iff] at h ⊢
  unfold tput
  split
  · exact ⟨fun e he => h.1 e (List.mem_filter.mp he).1, h.2.filter _⟩
  · rename_i hv
    refine ⟨fun e he => ?_, tins_sorted h.2⟩
    rcases mem_tins he with he | he
    · subst he; exact hv
    · exact h.1 e he

theorem filter_wf [DecidableEq α] (d : α) (p : Nat × α → Bool) {t : Tbl α} (h : twf d t = true) : twf d (t.filter p) = true := by
  rw [twf_iff] at h ⊢
  exact ⟨fun e he => h.1 e (List.mem_filter.mp he).1, h.2.filter _⟩

end Sys2Proof.Machine
end

