-- ==== Sys2Proof/WellFormed.lean ====
section
/-!
DEFINITION. Well-formed commands: every operand that names a thing of the device names one that it has, and a number that a register
or a message carries fits its field. exec is total on all commands; a run of a real device only meets well-formed ones.
-/

namespace Sys2Proof

/-- A mailbox 0 to 15, a 16-bit TAG and at most 4,096 request bytes (R410). -/
def Cmd.wf (c : Cmd) : Bool := c.box < 16 && c.tag < 65536 && c.req.length ≤ 4096

/-- A Tether message: the fields of its header fit (R299). -/
def TMsg.wf (m : TMsg) : Bool := m.subtype < 256 && m.seq < 2 ^ 32 && m.sent < 2 ^ 64

/-- A Cascade message: the fields of its header fit (R389). -/
def CMsg.wf (m : CMsg) : Bool :=
  m.etherType == 0x88B5 && m.version == 1 && m.body.length ≤ 1480 && m.subtype < 256 && m.cascadeId < 2 ^ 32 && m.src < 256 && m.srcUnit < 256 && m.dst < 256 && m.dstUnit < 256 && m.seq < 2 ^ 32

/-- A well-formed command. -/
def Instr.wf (i : Instr) : Bool :=
  match i with
  | .deviceIdentify c | .eventConfigure c | .firmwareUpdate c | .ticketStatus c | .portConfigure c | .portDisable c | .portStatus c
  | .moduleMap c | .moduleAccess c | .guardSafeExit c | .guardStream c | .timeConfigure c | .timeSource c | .timeStatus c | .timeStep c
  | .ptpPort c | .parseLoad c _ | .parseOutcome c | .parseInfo c | .tableDefine c | .tableWrite c | .tableSwap c | .tableSync c
  | .tableStatus c | .actionWrite c | .mcastWrite c _ | .mirrorConfigure c | .learnConfigure c | .learnFlush c | .specConfigure c
  | .queueAllocate c | .queueFree c | .queueConfigure c | .groupConfigure c | .shaperSet c | .bufferConfigure c | .policerConfigure c
  | .policerMap c | .gateList c | .sampleConfigure c | .queueHistogram c | .confluenceConfigure c | .confluenceMember c
  | .levelConfigure c _ | .releaseStatus c | .ledgerConfigure c | .ledgerStatus c | .ledgerCerts c | .pairConfigure c | .pairStatus c
  | .pairTakeover c | .pairDigest c | .pairResync c | .cisternRegions c | .cisternStatus c | .cisternFence c | .cisternRetrain c
  | .collectorMode c | .collectorGuard c | .collectorThreshold c | .stewardOps c | .stewardAbort c | .cascadeConfigure c | .cascadeAllow c
  | .cascadeStatus c | .cascadeExpel c | .cascadeResync c | .dmaRing c _ | .dmaCq c | .dmaPunt c | .counterProgram c | .counterSnapshot c
  | .counterWindow c | .powerStep c | .deviceReset c | .deviceBringup c => c.wf
  | .unknownOpcode c opcode => c.wf && opcode < 65536
  | .registerWrite _ fn off _ => fn < 2 && off < 2 ^ 23
  | .timeLatch _ fn sel => fn < 2 && sel < 2
  | .statusClear _ fn word _ _ => fn < 2 && word < 128
  | .intPendingClear _ fn _ | .firstValidClear _ fn _ | .functionLevelReset _ fn _ | .eventVector _ fn => fn < 2
  | .classCountRead _ fn cls _ => fn < 2 && cls < 16
  | .counterRead _ fn off _ => fn < 2 && off < 2 ^ 22
  | .ringDoorbell _ fn ring tail _ => fn < 2 && ring < 2048 && tail < 65536
  | .cqArmWrite _ fn cq _ => fn < 2 && cq < 64
  | .frameArrival _ port bytes fcs => port < 512 && bytes.length ≤ 10240 && fcs < 2 ^ 32
  | .parseWalk _ _ _ _ | .enqueue _ _ | .recirculation _ _ | .confirmation _ _ _ _ _ | .verdictArrival _ _ | .verdictLate _ _
  | .receiptDeadline _ _ | .retentionDeadline _ _ | .retentionWriteDone _ _ _ | .detLaunch _ _ _ | .copyEnd _ _ _ | .lrEligible _ _
  | .lrLaunch _ _ _ | .sampleInstant _ | .sampleClose _ | .counterEpochBoundary _ | .puntDelivery _ _ _ | .timeBeat _ _ _
  | .coreCrossCheck _ _ | .servoUpdate _ _ _ _ _ | .coreNoUpdate _ _ | .ppsEdge _ _ _ | .todMessage _ _ | .sourceQualified _ _
  | .sourceLost _ _ | .sourceRestore _ _ | .mismatchTimeout _ _ | .stepApply _ | .ppsOut _ | .todTx _ | .ptpPendingExpire _
  | .tetherLinkUp _ | .helloSend _ | .helloReceive _ _ _ | .heartbeatSend _ | .contactLost _ | .sentReportSend _ | .sentReportTimeout _
  | .disputeWindowClose _ | .mirrorTimeout _ | .healthSend _ _ _ | .tetherEcho _ _ | .pulseTimeout _ | .witnessVerdict _ _
  | .witnessAbsent _ | .startWaitExpiry _ | .takeoverDecision _ | .plannedSwapBeat _ | .revertiveSwap _ | .resyncStart _
  | .streamAlignTimeout _ | .synchronous _ | .vinLow _ | .finalReportSend _ | .freezeStoreDone _ | .vinRecover _ | .vinFail _ | .vinRise _
  | .regulatorGroupUp _ | .powerOnResetRelease _ _ _ _ | .perstAssert _ | .perstDeassert _ | .thermalPowerOff _ | .coldResetStart _ _ _ _
  | .warmResetStart _ _ _ | .ingressOpen _ | .cisternWake _ | .cisternIdle _ | .fenceHolds _ _ | .faultMessage _ _ | .duplicateMismatch _
  | .recoveryTimeExpiry _ | .ledgerRecordWrite _ | .recordPendingTimeout _ _ | .blockTimeClose _ | .sealWrite _ _ | .sealDeadline _
  | .cascadeBeatSend _ | .beatEcho _ _ | .discoverSend _ | .pushRetransmit _ | .pushAckTimeout _ | .verdictSend _ | .cascadeStatusSend _
  | .memberTimeout _ | .managerTimeout _ | .cascadeLinkClose _ | .stewardOpStart _ _ _ | .stewardResume _ _ | .stewardWaitEnd _
  | .pollOverdue _ | .tableScrubTimer _ _ | .pinCheck _ | .patrolScrubTimer _ _ _ _ _ | .swapFlip _ | .swapDrainDone _ | .helmReady _
  | .helmHeartbeat _ | .nop _ _ | .mov _ _ _ _ | .add _ _ _ _ _ | .sub _ _ _ _ _ | .and _ _ _ _ _ | .or _ _ _ _ _ | .xor _ _ _ _ _
  | .shl _ _ _ _ _ | .shr _ _ _ _ _ | .cmp _ _ _ _ | .ldi _ _ _ _ | .addi _ _ _ _ | .shli _ _ _ _ | .cmpi _ _ _ _ | .br _ _ _ _ | .jmp _ _ _
  | .call _ _ _ | .ret _ _ | .crc _ _ _ _ _ | .trd _ _ _ _ _ | .twr _ _ _ _ _ | .twait _ _ | .crd _ _ _ _ | .cwr _ _ _ _ | .cwait _ _
  | .rrd _ _ _ _ | .rwr _ _ _ _ | .relook _ _ _ _ _ | .sha _ _ _ _ | .evwait _ _ _ _ | .poll _ _ | .token _ _ _ | .undo _ _ _
  | .done _ _ _ _ | .fault _ _ _ _ | .heartbeatTimeout _ | .tetherRetransmit _ | .sealNoteRetransmit _ | .serdesCalibrationDone _
  | .flashWriteDone _ _ _ _ => true
  | .portSelection _ port | .memberEligible _ port | .gateChange _ port | .gateListStart _ port | .anResolution _ port _ _ _
  | .anRestart _ port | .trainingComplete _ port | .trainingTimeout _ port _ | .alignmentAchieved _ port _ _ | .upHoldElapsed _ port
  | .linkLoss _ port _ | .portDrainEnd _ port | .portReset _ port => port < 512
  | .learnRelease _ basin | .learnAbandon _ basin | .basinReset _ basin | .parityReread _ basin _ _ | .testHeader _ basin _ => basin < 8
  | .confRelease _ group => group < 64
  | .windowClose _ port dir => port < 512 && dir < 2
  | .injectFrame _ ring _ _ _ | .gatherDescriptor _ ring _ _ _ | .recordFill _ ring _ _ | .recordPartialTimeout _ ring _
  | .ledgerExport _ ring _ _ _ => ring < 2048
  | .cqSignal _ cq => cq < 64
  | .beatMissing _ isl => isl < 79
  | .modulePoll _ lane _ | .moduleMonitor _ lane _ _ | .moduleStateReady _ lane => lane < 512
  | .moduleInt _ i2c _ | .i2cTransactionDone _ i2c _ _ => i2c < 16
  | .tetherLinkDown _ lane => lane < 4
  | .heartbeatReceive _ msg | .sentReceive _ msg | .receiptReceive _ msg | .disputeReceive _ msg | .mirrorReceive _ msg
  | .controlReceive _ msg | .healthReceive _ msg => msg.wf
  | .snapshotReceive _ seq _ => seq < 2 ^ 32
  | .pulsePattern _ pattern => pattern < 4
  | .sensorRead _ readings => readings.length == 16
  | .autoRippleIdle _ unit | .unitWake _ unit | .unitReturn _ unit | .stepReached _ unit => unit < 73
  | .refreshInterval _ channel _ | .oscillatorRead _ channel _ _ | .trainingDone _ channel _ => channel < 16
  | .mr4Read _ channel rates => channel < 16 && rates.1 < 4 && rates.2 < 4
  | .coalesced _ source => source < 4096
  | .cascadeBeatReceive _ port msg | .discoverReceive _ port msg | .joinReceive _ port msg _ _ | .acceptReceive _ port msg _ _
  | .refuseReceive _ port msg | .pushReceive _ port msg _ | .ackReceive _ port msg | .verdictReceive _ port msg
  | .cascadeStatusReceive _ port msg | .sealNoteReceive _ port msg | .leaveReceive _ port msg => port < 512 && msg.wf
  | .ageSweep _ table => table < 16
  | .helmWatchdog _ cpu => cpu < 4
  | .holdPoolScrub _ stream seq => stream < 65536 && seq < 2 ^ 32
  | .ptpMessageSend _ port queue _ bytes => port < 512 && queue < 65536 && bytes.length ≤ 10240
  | .conditionEnd _ source kind => source < 4096 && kind < 64
  | .helmBootDone _ _ _ release => release < 65536

end Sys2Proof
end

