-- ==== Sys2Proof/Safety.lean ====
section
/-!
DEFINITION. The terms in which claims are stated: a mailbox that takes a command, what a command's answer is, and the invariants of the
device.
-/

namespace Sys2Proof.Machine

/-- Helm is READY on firmware release 3.1 or later, the mailbox exists and is not BUSY, and the request has at least the `len` bytes of
its fixed part (R1, R411); no other mailbox holds a command that changes state and waits its turn (R412). -/
abbrev Takes (s : State) (c : Cmd) (len : Nat) : Prop :=
  c.box < 16 ∧ s.dev.helm.state = 1 ∧ 0x0301 ≤ s.dev.helm.fwRelease ∧ (boxOf s.dev c.box).state ≠ 1 ∧ len ≤ c.req.length ∧ c.req.length ≤ 4096
    ∧ ∀ k < 16, k ≠ c.box → (boxOf s.dev k).state = 1 → changesState (boxOf s.dev k).opcode = false

/-- The mailbox of a command reads DONE with a status, a response length, and the response bytes from offset 2 on (R411). -/
abbrev Answers (d : Dev) (c : Cmd) (st len : Nat) (body : List Byte) : Prop :=
  (boxOf d c.box).state = 2 ∧ (boxOf d c.box).status = st ∧ (boxOf d c.box).respLen = len
    ∧ (boxOf d c.box).respArea = padTo len (le 2 st ++ body)

/-- The device at the instant a command executes: time has come to the command's, and the mailbox has taken it (R411). -/
def begun (opcode : Nat) (c : Cmd) (d : Dev) : Dev := accept opcode c (advance c.t d)

/-- The device at the instant `t` of a command, before the command's effect (log 1). -/
def now (t : Nat) (s : State) : Dev := advance t s.dev

/-- A mailbox command of each form, for one mailbox and request (R419). -/
def mailboxForms (c : Cmd) (host reread : Option (List Byte)) : List Instr :=
  [.deviceIdentify c, .eventConfigure c, .firmwareUpdate c, .ticketStatus c, .portConfigure c, .portDisable c, .portStatus c, .moduleMap c,
   .guardSafeExit c, .guardStream c, .timeConfigure c, .timeSource c, .timeStatus c, .timeStep c, .ptpPort c, .parseLoad c host,
   .parseOutcome c, .parseInfo c, .tableDefine c, .tableWrite c, .tableSwap c, .tableSync c, .tableStatus c, .actionWrite c,
   .mcastWrite c host, .mirrorConfigure c, .learnConfigure c, .learnFlush c, .specConfigure c, .queueAllocate c, .queueFree c,
   .queueConfigure c, .groupConfigure c, .shaperSet c, .bufferConfigure c, .policerConfigure c, .policerMap c, .gateList c]
  ++ [.sampleConfigure c, .queueHistogram c, .confluenceConfigure c, .confluenceMember c, .levelConfigure c host, .releaseStatus c,
   .ledgerConfigure c, .ledgerStatus c, .ledgerCerts c, .pairConfigure c, .pairStatus c, .pairTakeover c, .pairDigest c, .pairResync c,
   .cisternRegions c, .cisternStatus c, .cisternFence c, .cisternRetrain c, .collectorMode c, .collectorGuard c, .collectorThreshold c,
   .stewardOps c, .stewardAbort c, .cascadeConfigure c, .cascadeAllow c, .cascadeStatus c, .cascadeExpel c, .cascadeResync c,
   .dmaRing c reread, .dmaCq c, .dmaPunt c, .counterProgram c, .counterSnapshot c, .counterWindow c, .powerStep c, .deviceReset c,
   .deviceBringup c]

/-- The opcodes of these forms, in the same order (R419): those of the opcode index but `module.access`. -/
def mailboxOpcodes : List Nat := (fixedRequest.map fun e => e.1).filter (· != 0x0111)

/-- The Steward stands at this word: a routine runs, waits for nothing and has not to yield, its PC fetches the word with good parity, and
fewer than 48 words have run since the last safe point (R375, R378, R379, R381). -/
abbrev AtWord (d : Dev) (i : Micro) : Prop :=
  (∃ o, runningOp d = some o ∧ mustYield d o = false) ∧ d.steward.waiting.1 = 0 ∧ microAt d = some i ∧ d.steward.words < 48

/-- A word other than a safe point has executed, and the PC has moved: nothing but the microregisters is otherwise changed (R374, R379). -/
abbrev MovedOn (t : Nat) (s : State) (d : Dev) (pc : Nat) : Prop :=
  d.steward = { s.dev.steward with regs := d.steward.regs, pc := pc % 2 ^ 15, words := s.dev.steward.words + 1, safe := false }
    ∧ ({ d with steward := {}, freeIdx := 0 } : Dev) = { now t s with steward := {}, freeIdx := 0 }

/-- A word has executed that writes a value to mA, unless that is m0, and the PC is at the next word (R374). -/
abbrev WroteA (t : Nat) (s : State) (d : Dev) (a : BitVec 6) (v : Word64) : Prop :=
  (∀ r, mreg d r = if r = a ∧ r ≠ 0 then v else mreg s.dev r) ∧ MovedOn t s d (fetchAt s.dev + 1)

/-- A wait, or a poll, has executed: the routine stands at a safe point and waits for `w`, one more unit of its operation's work has been
done (R380, log 9), and a pending abort has taken the routine to its undo entry (R374, R379, R382). -/
abbrev Waits (t : Nat) (s : State) (d : Dev) (o : Op) (w : Nat × Nat × Nat) : Prop :=
  let e := stepWork (now t s)
  d.steward.words = 0 ∧ d.steward.safe = true ∧ mreg d = mreg s.dev ∧ ({ d with steward := {} } : Dev) = { e with steward := {} }
    ∧ (o.aborting = false → d.steward.waiting = w ∧ d.steward.pc = fetchAt s.dev + 1 ∧ d.steward.ops = e.steward.ops)
    ∧ (o.aborting = true → o.state = 1 → d.steward.waiting = (0, 0, 0) ∧ d.steward.pc = (mreg s.dev 60).toNat % 2 ^ 15
        ∧ opOf d o.id = (opOf e o.id).map fun x => { x with state := 3 })

/-- Any microword, with operands, that passed parity or did not. -/
abbrev IsWord (t : Nat) (a b c : BitVec 6) (imm : BitVec 12) (ok : Bool) (i : Instr) : Prop :=
  i ∈ ([.nop t ok, .mov t a b ok, .add t a b c ok, .sub t a b c ok, .and t a b c ok, .or t a b c ok, .xor t a b c ok, .shl t a b c ok, .shr t a b c ok,
   .cmp t b c ok, .ldi t a imm ok, .addi t a imm ok, .shli t a imm ok, .br t a imm ok, .jmp t b ok, .call t b ok, .ret t ok, .crc t a b c ok,
   .sha t a b ok, .trd t a b c ok, .twr t a b c ok, .twait t ok, .crd t a b ok, .cwr t a b ok, .cwait t ok, .rrd t a b ok, .rwr t a b ok,
   .relook t a b c ok, .evwait t a imm ok, .poll t ok, .token t imm ok, .undo t imm ok, .done t a imm ok, .fault t a imm ok, .cmpi t a imm ok] : List Instr)

/-- A Cascade message arrives on a FABRIC Port that is UP, of this device's Cascade, and is addressed to it (R389). -/
abbrev Hears (d : Dev) (port : Nat) (m : CMsg) : Prop :=
  d.cascade.role ≠ 0 ∧ port ∈ fabricPorts d ∧ m.etherType = 0x88B5 ∧ m.version = 1 ∧ m.cascadeId = d.cascade.cascadeId ∧ addressed d m = true

/-- Function 0 is told of an event, where it has an event ring with room and has lost no record (R416, R417). -/
abbrev Tells (s : State) (d : Dev) (t code subject detail : Nat) (ext : List Byte) : Prop :=
  let x := fnOf s.dev 0
  x.evRing.isSome = true → x.evLost = 0 → x.evq.length < 4096 → s.dev.helm.state ≤ 1 → detail < 2 ^ 32 →
  (fnOf d 0).evq = x.evq ++ [{ code, subject, stamp := helmStamp (now t s), detail, ext, deferred := false }]

/-- The canonical form of the Cistern's bytes: addresses strictly rising, and none listed that reads as an unlisted one does, 0 (R343). -/
def Memory.wf (m : Tbl Byte) : Bool := twf 0 m

/-- The Port that a port.configure request makes of Port `p`, before its state is set (R50, R57, R83). -/
def configured (d : Dev) (q : List Byte) : Port :=
  let y := { portIn (portOf d (u16 q 0)) q with txOff := false }
  { y with txOff := heldOff d y }

/-- A copy that starts is no guarded copy for a Port outside its stream's egress set (R55). -/
abbrev permitted (d : Dev) (i : Nat) : Prop := ¬((copyOf d i).kind = 0 ∧ (copyOf d i).slot = none ∧ (frameOf d (copyOf d i).frame).stream.isSome = true)

end Sys2Proof.Machine
end

