-- ==== Sys2Proof/Certificates/Slice0/Obligations.lean ====
section
/-!
DEFINITION. The statements of this row, family by family.
-/

open Sys2Proof Sys2Proof.Machine

-- The step, and the mailbox round --------------------------------------------------------------------------------------------------

/-- One step takes the command at the front of the queue and runs it with the rest of the queue; on an empty queue the block idles (assumption
log 2). -/
def Obligations.StepRunsFrontCommand : Prop :=  (∀ (s : State) (i : Instr) (rest : List Instr), s.pending = i :: rest → step s = exec i { s with pending := rest })
  ∧ ∀ s : State, s.pending = [] → step s = .next s

/-- Every command completes: it neither faults nor is refused, and it leaves the queue of waiting commands alone; so a step always answers a
next state, and takes exactly the front command off the queue. -/
def Obligations.EveryCommandCompletes : Prop :=  (∀ (s : State) (i : Instr), ∃ d, exec i s = .next { s with dev := d })
  ∧ ∀ s : State, ∃ d, step s = .next { pending := s.pending.tail, dev := d }

/-- The queue invariant: a step from a state whose waiting commands are all well-formed leaves one whose waiting commands are all well-formed. -/
def Obligations.QueueStaysWellFormed : Prop :=  ∀ s s' : State, s.pending.all Instr.wf = true → step s = .next s' → s'.pending.all Instr.wf = true

/-- R14: a mailbox command of any form (but module.access) that ends with a status other than ST_OK, ST_PENDING and ST_ADVANCED changes nothing
but its mailbox: of the device's state before it, only time has moved on, what was sent out apart, and no other mailbox has changed. -/
def Obligations.RefusedCommandChangesNothing : Prop :=  ∀ (s : State) (c : Cmd) (host reread : Option (List Byte)) (i : Instr) (d : Dev), i ∈ mailboxForms c host reread →
    s.dev.helm.state = 1 → c.box < 16 → (boxOf s.dev c.box).state ≠ 1 → exec i s = .next { s with dev := d } →
    effective (boxOf d c.box).status = false →
    { d with boxes := [], out := [] } = ({ now c.t s with boxes := [], out := [] } : Dev)
    ∧ ∀ m, m ≠ c.box → boxOf d m = boxOf s.dev m

/-- A doorbell rung while the mailbox is BUSY with another command, or while Helm is BOOTING, only sets DB_IGNORED (R410, R478); and one that
comes while Helm is RESTARTING makes the mailbox BUSY with the request locked, and changes nothing else (R425). For every mailbox command
but module.access. -/
def Obligations.IgnoredDoorbell : Prop :=  ∀ (s : State) (c : Cmd) (host reread : Option (List Byte)) (i : Instr) (op : Nat),
    (i, op) ∈ (mailboxForms c host reread).zip mailboxOpcodes → c.box < 16 →
    (s.dev.helm.state ≠ 0 → (boxOf s.dev c.box).state = 1 → (boxOf s.dev c.box).opcode ≠ op →
      exec i s = .next { s with dev := setBox c.box { boxOf s.dev c.box with dbIgnored := true } (now c.t s) })
    ∧ (s.dev.helm.state = 0 → exec i s = .next { s with dev := setBox c.box { boxOf s.dev c.box with dbIgnored := true } (now c.t s) })
    ∧ (s.dev.helm.state = 2 → (boxOf s.dev c.box).state ≠ 1 → ∃ d, exec i s = .next { s with dev := d } ∧ (boxOf d c.box).state = 1
        ∧ (boxOf d c.box).req = c.req.take 4096 ∧ ({ d with boxes := [] } : Dev) = { now c.t s with boxes := [] })

-- Helm ---------------------------------------------------------------------------------------------------------------------------------

/-- device.identify answers the firmware release, serial number, die revision, packing, BOOT_COUNT and ROM_ID and changes nothing; a
firmware.update takes the next ticket and the image's address and length; and an opcode of no command ends ST_RANGE and changes nothing
(fields of R420 and R422).

FLASH_WRITE_DONE: the bank that does not run takes a signed image and is marked, and an image without a signature leaves it as it was.
HELM_WATCHDOG restarts Helm, and halts it at the third expiry within 600 s. HELM_HEARTBEAT counts while Helm is READY. HELM_READY ends a
restart where no mirrored command waits, and function 0 is told. EVENT_VECTOR sends a function with written events its message, where its
last went out 10 µs ago or never. The frames name every part of the device that these events can change. -/
def Obligations.HelmComplete : Prop :=
  ((∀ (s : State) (c : Cmd), Takes s c 4 → u32 c.req 0 = 0 → ∃ d, exec (.deviceIdentify c) s = .next { s with dev := d }
      ∧ Answers d c stOk 32 (le 2 s.dev.helm.fwRelease ++ (List.range 16).map Config.serial ++ [0x42, 0x30, 0x45]
          ++ [if Config.packingTray then 0x54 else 0x53] ++ le 4 (Config.bootCount.toNat + s.dev.helm.boots) ++ le 4 Config.romId.toNat)
      ∧ ({ d with boxes := [], out := [] } : Dev) = { now c.t s with boxes := [], out := [] })
    ∧ (∀ (s : State) (c : Cmd), Takes s c 16 → u64 c.req 0 % 64 = 0 → u32 c.req 8 ≤ 31457280 → u32 c.req 12 = 0 →
        s.dev.helm.update = none → s.dev.helm.open_.length < 1024 →
        ∃ d, exec (.firmwareUpdate c) s = .next { s with dev := d } ∧ Answers d c stPending 8 (le 2 0 ++ le 4 s.dev.helm.nextTicket)
          ∧ d.helm.update = some (s.dev.helm.nextTicket, u64 c.req 0, u32 c.req 8)
          ∧ d.helm = { s.dev.helm with update := d.helm.update, nextTicket := d.helm.nextTicket,
                                       open_ := s.dev.helm.open_ ++ [{ num := s.dev.helm.nextTicket, fn := boxFn s.dev c.box }] }
          ∧ ({ d with boxes := [], helm := {}, out := [] } : Dev) = { now c.t s with boxes := [], helm := {}, out := [] })
    ∧ (∀ (s : State) (c : Cmd) (opcode : Nat), Takes s c 0 → (fixedRequest.find? fun e => e.1 == opcode % 65536) = none →
        ∃ d, exec (.unknownOpcode c opcode) s = .next { s with dev := d } ∧ Answers d c stRange 4 []
          ∧ ({ d with boxes := [], out := [] } : Dev) = { now c.t s with boxes := [], out := [] }))
  ∧ ((∀ (s : State) (t n a len : Nat) (b left : List Byte), s.dev.helm.update = some (n, a, len) →
      ∃ d, exec (.flashWriteDone t (some b) true left) s = .next { s with dev := d } ∧ d.helm.update = none
        ∧ (bankOf d (1 - s.dev.helm.running)).image
          = (if Config.imageSigned (padTo len b) then some (padTo len b) else (bankOf s.dev (1 - s.dev.helm.running)).image)
        ∧ (Config.imageSigned (padTo len b) = true → d.helm.marked = 1 - s.dev.helm.running)
        ∧ bankOf d s.dev.helm.running = bankOf s.dev s.dev.helm.running ∧ ({ d with fns := [], helm := {}, coll := {}, counters := {} } : Dev) = { now t s with fns := [], helm := {}, coll := {}, counters := {} })
    ∧ (∀ (s : State) (t cpu : Nat), s.dev.helm.state ≠ 3 → ∃ d, exec (.helmWatchdog t cpu) s = .next { s with dev := d }
        ∧ d.helm.state = (if 2 ≤ (s.dev.helm.expiries.filter fun a => decide ((now t s).clock - a < 9600000000000)).length then 3 else 2)
        ∧ d.helm.restarts = (if d.helm.state = 3 then s.dev.helm.restarts else min 255 (s.dev.helm.restarts + 1)) ∧ ({ d with fns := [], helm := {}, coll := {}, counters := {}, masters := [], tables := {}, out := [] } : Dev) = { now t s with fns := [], helm := {}, coll := {}, counters := {}, masters := [], tables := {}, out := [] })
    ∧ (∀ (s : State) (t : Nat), s.dev.helm.state = 1 → ∃ d, exec (.helmHeartbeat t) s = .next { s with dev := d }
        ∧ d = { now t s with helm := { s.dev.helm with heartbeat := (s.dev.helm.heartbeat + 1) % 2 ^ 32 } })
    ∧ (∀ (s : State) (t : Nat), s.dev.helm.state = 2 → ∃ d, exec (.helmReady t) s = .next { s with dev := d }
        ∧ (s.dev.pair.mirrorIn = [] → d.helm.state = 1 ∧ Tells { s with dev := { s.dev with helm := { s.dev.helm with state := 1 } } } d t 0x0003 0xFFFF s.dev.helm.restarts [])
        ∧ ({ d with boxes := [], fns := [], helm := {}, guard := {}, pair := {}, counters := {}, tm := {}, copies := [], release := {}, steward := {}, cascade := {}, tables := {}, out := [] } : Dev) = { now t s with boxes := [], fns := [], helm := {}, guard := {}, pair := {}, counters := {}, tm := {}, copies := [], release := {}, steward := {}, cascade := {}, tables := {}, out := [] })
    ∧ (∀ (s : State) (t fn : Nat), 0 < (fnOf s.dev fn).evWritten → (∀ a, (fnOf s.dev fn).evTold = some a → a + 160000 ≤ (now t s).clock) →
        ∃ d, exec (.eventVector t fn) s = .next { s with dev := d } ∧ d.out = .msix fn 2 :: s.dev.out ∧ (fnOf d fn).evWritten = 0
          ∧ (fnOf d fn).evTold = some (now t s).clock ∧ (∀ k, k ≠ fn → fnOf d k = fnOf s.dev k) ∧ ({ d with fns := [], out := [] } : Dev) = { now t s with fns := [], out := [] }))

-- The Fault Collector --------------------------------------------------------------------------------------------------------------------

/-- collector.mode sets SERVICE, TEST or RECOVERY and the RECOVERY_TIME, 10 s where it is sent as 0, and a change of mode restarts every class
window, whose N, W and count stay; collector.guard sets the GUARD bits of a run of sources. Nothing else of the Collector, and nothing but
it and the mailbox, changes.

The Collector's clears and reads in a cycle without a message: a write of 1 to one set STATUS bit clears it where its source's PRESENT line
is low, and where the line is high leaves it and counts in REFUSED; a write clears INT_PENDING or FIRST.VALID; and a read of CLASS_COUNT
answers the count and clears it. Nothing else changes, but the source's own REFUSED count and the list of sources that hold the device in
the safe state. -/
def Obligations.CollectorCommandsComplete : Prop :=
  ((∀ (s : State) (c : Cmd), Takes s c 4 → u8 c.req 0 ≠ 1 → u8 c.req 0 ≤ 3 → u8 c.req 1 = 0 → u16 c.req 2 ≤ 3600 →
      ∃ d, exec (.collectorMode c) s = .next { s with dev := d } ∧ Answers d c stOk 4 [] ∧ d.coll.mode = u8 c.req 0
        ∧ d.coll.recoveryTime = (if u16 c.req 2 = 0 then 10 else u16 c.req 2) ∧ (u8 c.req 0 = s.dev.coll.mode → d.coll.classes = s.dev.coll.classes)
          ∧ (u8 c.req 0 ≠ s.dev.coll.mode → ∀ k ∈ d.coll.classes, k.2.openAt = none ∧ k.2.seen = 0)
        ∧ (∀ k, (classOf d k).n = (classOf s.dev k).n ∧ (classOf d k).w = (classOf s.dev k).w ∧ (classOf d k).count = (classOf s.dev k).count)
        ∧ d.coll = { s.dev.coll with mode := d.coll.mode, recoveryTime := d.coll.recoveryTime, classes := d.coll.classes } ∧ ({ d with boxes := [], coll := {}, out := [] } : Dev) = { now c.t s with boxes := [], coll := {}, out := [] })
    ∧ (∀ (s : State) (c : Cmd), Takes s c 8 → u16 c.req 2 ≠ 0 → u16 c.req 0 + u16 c.req 2 ≤ 4096 → u8 c.req 4 ≤ 1 → leAt c.req 5 3 = 0 →
        ∃ d, exec (.collectorGuard c) s = .next { s with dev := d } ∧ Answers d c stOk 4 []
          ∧ (∀ k, tget false d.coll.guard k = if u16 c.req 0 ≤ k ∧ k < u16 c.req 0 + u16 c.req 2 then u8 c.req 4 == 1 else tget false s.dev.coll.guard k)
          ∧ d.coll = { s.dev.coll with guard := d.coll.guard } ∧ ({ d with boxes := [], coll := {}, out := [] } : Dev) = { now c.t s with boxes := [], coll := {}, out := [] }))
  ∧ ((∀ (s : State) (t fn word : Nat) (k : Nat), word < 128 → k < 32 → tget false s.dev.coll.status (32 * word + k) = true →
      ∃ d, exec (.statusClear t fn word (BitVec.ofNat 32 (2 ^ k)) []) s = .next { s with dev := d }
        ∧ (tget [] s.dev.coll.present (32 * word + k) = [] → tget false d.coll.status (32 * word + k) = false ∧ d.coll.refused = s.dev.coll.refused)
        ∧ (tget [] s.dev.coll.present (32 * word + k) ≠ [] → tget false d.coll.status (32 * word + k) = true
            ∧ d.coll.refused = (s.dev.coll.refused + 1) % 2 ^ 32)
        ∧ (∀ j, j ≠ 32 * word + k → tget false d.coll.status j = tget false s.dev.coll.status j)
        ∧ d.coll = { s.dev.coll with status := d.coll.status, refused := d.coll.refused, info := d.coll.info }
        ∧ d.guard = { s.dev.guard with starters := d.guard.starters } ∧ ({ d with coll := {}, guard := {} } : Dev) = { now t s with coll := {}, guard := {} })
    ∧ (∀ (s : State) (t fn : Nat), ∃ d, exec (.intPendingClear t fn []) s = .next { s with dev := d }
        ∧ d = { now t s with coll := { s.dev.coll with intPending := false } })
    ∧ (∀ (s : State) (t fn : Nat), ∃ d, exec (.firstValidClear t fn []) s = .next { s with dev := d }
        ∧ d = { now t s with coll := { s.dev.coll with firstValid := false } })
    ∧ (∀ (s : State) (t fn cls : Nat), cls < 16 → ∃ d, exec (.classCountRead t fn cls []) s = .next { s with dev := d }
        ∧ classOf d cls = { classOf s.dev cls with count := 0 } ∧ d.out = .readData fn (0x20080 + 4 * cls) (le 4 (classOf s.dev cls).count) :: s.dev.out
        ∧ (∀ k, k ≠ cls → classOf d k = classOf s.dev k) ∧ d.coll = { s.dev.coll with classes := d.coll.classes } ∧ ({ d with coll := {}, out := [] } : Dev) = { now t s with coll := {}, out := [] }))

/-- A message alone in its cycle, of a source that has no older one waiting, that does not trigger the guard reaction counts in its class. In
SERVICE it is severe: it sets its source's STATUS bit and INT_PENDING, and where FIRST holds nothing and the device is not in the safe state
it is captured there. In any other mode, a message that comes with its class window's count still below N is not severe and sets none of
them. Nothing but the Collector changes, and no other source's STATUS bit and no other class of it, in the open health period that a source
with its GUARD bit set has reported (R311), and, for a message of the Steward's own source, the Steward, whose routine a crossing's timeout
can abort (R382).

A message, alone in its cycle, of a source whose GUARD bit is set and that has no older one waiting, of a kind with G = Yes puts a solo
device in SERVICE that is not in the safe state into it, with cause 1 and the source among those that hold it there. -/
def Obligations.FaultMessageComplete : Prop :=
  (∀ (s : State) (t : Nat) (w : Word64), triggers s.dev (msgSource w) (msgKind w) = false →
        (tget {} s.dev.coll.reporters (msgSource w)).queue.headD w = w →
      ∃ d, exec (.faultMessage t [w]) s = .next { s with dev := d }
        ∧ (classOf d (msgSource w / 256)).count = min ((classOf s.dev (msgSource w / 256)).count + 1) 0xFFFFFFFF
        ∧ (s.dev.coll.mode = 0 → tget false d.coll.status (msgSource w) = true ∧ d.coll.intPending = true
            ∧ (s.dev.coll.firstValid = false → s.dev.guard.cause = 0 → d.coll.firstValid = true ∧ msgSource d.coll.firstMsg = msgSource w
                ∧ msgKind d.coll.firstMsg = msgKind w ∧ msgAddr d.coll.firstMsg = msgAddr w))
        ∧ (s.dev.coll.mode ≠ 0 → (countWindow (classOf s.dev (msgSource w / 256)) (now t s).clock).seen < (classOf s.dev (msgSource w / 256)).n →
            d.coll.status = s.dev.coll.status ∧ d.coll.intPending = s.dev.coll.intPending ∧ d.coll.firstValid = s.dev.coll.firstValid)
        ∧ (∀ k, k ≠ msgSource w / 256 → classOf d k = classOf s.dev k)
        ∧ (∀ k, k ≠ msgSource w → tget false d.coll.status k = tget false s.dev.coll.status k)
        ∧ (msgSource w ≠ 0xA00 → d.steward = s.dev.steward)
        ∧ d.pair = (if tget false s.dev.coll.guard (msgSource w) then { s.dev.pair with bad := true } else s.dev.pair) ∧ ({ d with coll := {}, pair := {}, steward := {}, out := [] } : Dev) = { now t s with coll := {}, pair := {}, steward := {}, out := [] })
  ∧ (∀ (s : State) (t : Nat) (w : Word64), s.dev.pair.mode = 0 → s.dev.coll.mode = 0 → s.dev.guard.cause = 0 →
      isGuardKind (msgKind w) = true → tget false s.dev.coll.guard (msgSource w) = true →
        (tget {} s.dev.coll.reporters (msgSource w)).queue.headD w = w →
      ∃ d, exec (.faultMessage t [w]) s = .next { s with dev := d } ∧ d.guard.cause = 1 ∧ d.guard.frozen = true ∧ d.guard.suspended = true
        ∧ msgSource w ∈ d.guard.starters ∧ ({ d with fns := [], helm := {}, coll := {}, guard := {}, ledger := {}, pair := {}, counters := {}, tm := {}, frames := [], copies := [], ports := [], release := {}, steward := {}, out := [] } : Dev) = { now t s with fns := [], helm := {}, coll := {}, guard := {}, ledger := {}, pair := {}, counters := {}, tm := {}, frames := [], copies := [], ports := [], release := {}, steward := {}, out := [] })

/-- COALESCED: a reporter with room sends the count of what it did not queue. CONDITION_END: a source's PRESENT condition ends.
DUPLICATE_MISMATCH clears SELF_OK and ends in the safe state, with cause 2 where there was none. RECOVERY_TIME_EXPIRY: RECOVERY_TIME after
the replay, RECOVERY gives way to SERVICE. The frames name every part of the device that these events can change. -/
def Obligations.CollectorEventsComplete : Prop :=  (∀ (s : State) (t source : Nat), (tget {} s.dev.coll.reporters source).dropped ≠ 0 → (tget {} s.dev.coll.reporters source).queue.length < 16 →
    ∃ d, exec (.coalesced t source) s = .next { s with dev := d } ∧ (tget {} d.coll.reporters source).dropped = 0
      ∧ (tget {} d.coll.reporters source).queue
        = (tget {} s.dev.coll.reporters source).queue ++ [faultWord source 0x35 (tget {} s.dev.coll.reporters source).dropped]
      ∧ (∀ j, j ≠ source → tget {} d.coll.reporters j = tget {} s.dev.coll.reporters j)
      ∧ d.coll = { s.dev.coll with reporters := d.coll.reporters } ∧ ({ d with coll := {} } : Dev) = { now t s with coll := {} })
  ∧ (∀ (s : State) (t source kind : Nat), ∃ d, exec (.conditionEnd t source kind) s = .next { s with dev := d }
      ∧ tget [] d.coll.present source = (tget [] s.dev.coll.present source).filter (· != kind)
      ∧ (∀ j, j ≠ source → tget [] d.coll.present j = tget [] s.dev.coll.present j)
      ∧ d.coll = { s.dev.coll with present := d.coll.present } ∧ ({ d with coll := {} } : Dev) = { now t s with coll := {} })
  ∧ (∀ (s : State) (t : Nat), ∃ d, exec (.duplicateMismatch t) s = .next { s with dev := d } ∧ d.coll.selfOk = false ∧ d.guard.cause ≠ 0
      ∧ (s.dev.guard.cause = 0 → d.guard.cause = 2) ∧ ({ d with fns := [], helm := {}, coll := {}, guard := {}, ledger := {}, pair := {}, counters := {}, tm := {}, frames := [], copies := [], ports := [], release := {}, steward := {}, out := [] } : Dev) = { now t s with fns := [], helm := {}, coll := {}, guard := {}, ledger := {}, pair := {}, counters := {}, tm := {}, frames := [], copies := [], ports := [], release := {}, steward := {}, out := [] })
  ∧ (∀ (s : State) (t a : Nat), s.dev.coll.replayDone = some a → s.dev.coll.mode = 3 → a + s.dev.coll.recoveryTime * 16000000000 ≤ (now t s).clock →
      ∃ d, exec (.recoveryTimeExpiry t) s = .next { s with dev := d } ∧ d.coll.mode = 0 ∧ d.coll.replayDone = none
        ∧ d.coll = { s.dev.coll with mode := 0, replayDone := none, classes := d.coll.classes } ∧ ({ d with coll := {} } : Dev) = { now t s with coll := {} })

-- Guarded delivery -------------------------------------------------------------------------------------------------------------------------

/-- guard.stream on a solo device: a set of a stream that is not configured writes its slots, each with last-sent one below the base, and its
next sequence; a remove of one without a frame in flight or a Hold copy empties it; no other stream changes. A read, on any unit, answers
the stream's record and changes nothing. guard.safe_exit outside the safe state answers SAFE_STATUS and changes nothing; in it, with every
cause gone, a solo device leaves it, and guarded egress and acceptance resume. What the record gives of slots not in force is the model's
choice (log 99).

guard.safe_exit while a cause still holds ends ST_DENIED, and nothing changes. -/
def Obligations.GuardCommandsComplete : Prop :=
  ((∀ (s : State) (c : Cmd), Takes s c 28 → u8 c.req 2 = 0 → s.dev.pair.mode = 0 → u16 c.req 6 = 0 → 1 ≤ u8 c.req 3 → u8 c.req 3 ≤ 4 →
      portUnused s.dev (u16 c.req 4) = false → ((slotsIn c.req (u8 c.req 3) (u32 c.req 8)).map (·.port)).any (portUnused s.dev) = false →
      ((slotsIn c.req (u8 c.req 3) (u32 c.req 8)).map (·.port)).Nodup →
      (slotsIn c.req (u8 c.req 3) (u32 c.req 8)).any (fun sl => (queueRange s.dev sl.port).2 ≤ sl.queue) = false →
      (u16 c.req 4 :: (slotsIn c.req (u8 c.req 3) (u32 c.req 8)).map (·.port)).any (portPooled s.dev) = false →
      (streamOf s.dev (u16 c.req 0)).slots = [] →
      ∃ d, exec (.guardStream c) s = .next { s with dev := d } ∧ (boxOf d c.box).status = stOk
        ∧ streamOf d (u16 c.req 0) = { slots := slotsIn c.req (u8 c.req 3) (u32 c.req 8), ingress := u16 c.req 4, next := u32 c.req 8 }
        ∧ (∀ k, k ≠ u16 c.req 0 → streamOf d k = streamOf s.dev k)
        ∧ d.guard = { s.dev.guard with streams := d.guard.streams, retains := d.guard.retains } ∧ ({ d with boxes := [], guard := {}, out := [] } : Dev) = { now c.t s with boxes := [], guard := {}, out := [] })
    ∧ (∀ (s : State) (c : Cmd), Takes s c 28 → u8 c.req 2 = 1 → u8 c.req 3 = 0 → s.dev.pair.mode = 0 → u16 c.req 6 = 0 →
        streamBusy s.dev (u16 c.req 0) = false →
        ∃ d, exec (.guardStream c) s = .next { s with dev := d } ∧ (boxOf d c.box).status = stOk ∧ streamOf d (u16 c.req 0) = {}
          ∧ (∀ k, k ≠ u16 c.req 0 → streamOf d k = streamOf s.dev k)
          ∧ d.guard = { s.dev.guard with streams := d.guard.streams, retains := d.guard.retains } ∧ ({ d with boxes := [], guard := {}, out := [] } : Dev) = { now c.t s with boxes := [], guard := {}, out := [] })
    ∧ (∀ (s : State) (c : Cmd), Takes s c 28 → u8 c.req 2 = 2 → u8 c.req 3 = 0 → u16 c.req 6 = 0 →
        ∃ d, exec (.guardStream c) s = .next { s with dev := d } ∧ Answers d c stOk 44 (streamBody s.dev (u16 c.req 0))
          ∧ ({ d with boxes := [], out := [] } : Dev) = { now c.t s with boxes := [], out := [] })
    ∧ (∀ (s : State) (c : Cmd), Takes s c 4 → u32 c.req 0 = 0 → s.dev.guard.cause = 0 →
        ∃ d, exec (.guardSafeExit c) s = .next { s with dev := d } ∧ Answers d c stOk 8 (le 2 0 ++ le 4 (safeStatus s.dev))
          ∧ ({ d with boxes := [], out := [] } : Dev) = { now c.t s with boxes := [], out := [] })
    ∧ (∀ (s : State) (c : Cmd), Takes s c 4 → u32 c.req 0 = 0 → s.dev.pair.mode = 0 → s.dev.guard.cause ≠ 0 →
        (s.dev.guard.cause :: s.dev.guard.more).any (causeAsserted s.dev) = false →
        ∃ d, exec (.guardSafeExit c) s = .next { s with dev := d } ∧ (boxOf d c.box).status = stOk ∧ d.guard.cause = 0 ∧ d.guard.frozen = false
          ∧ d.guard.suspended = false ∧ ({ d with boxes := [], fns := [], helm := {}, guard := {}, ledger := {}, pair := {}, counters := {}, tm := {}, frames := [], copies := [], nextFrame := 0, nextCopy := 0, ports := [], release := {}, out := [] } : Dev) = { now c.t s with boxes := [], fns := [], helm := {}, guard := {}, ledger := {}, pair := {}, counters := {}, tm := {}, frames := [], copies := [], nextFrame := 0, nextCopy := 0, ports := [], release := {}, out := [] }))
  ∧ (∀ (s : State) (c : Cmd), Takes s c 4 → u32 c.req 0 = 0 → s.dev.guard.cause ≠ 0 →
      (s.dev.guard.cause :: s.dev.guard.more).any (causeAsserted s.dev) = true →
      ∃ d, exec (.guardSafeExit c) s = .next { s with dev := d } ∧ (boxOf d c.box).status = stDenied ∧ ({ d with boxes := [], out := [] } : Dev) = { now c.t s with boxes := [], out := [] })

/-- RECEIPT_DEADLINE ends a frame that waits for a receipt NO_RECEIPT 1 µs after its confirmation. RETENTION_DEADLINE ends one that waits on the
solo condition RETAIN_LATE 20 µs after it, or SUSPENDED where its retention write is done (log 49). The outcome is the one that the frame,
while it is kept, and its Hold copy carry. RETENTION_WRITE_DONE, with no channel of the copy in training or taken out of service, the
Cistern awake and no other retention write open ahead of it (R337): the frame and its Retained copy count as written. HOLD_POOL_SCRUB: a
Hold copy without a Retained copy is lost and counted. The frames name every part of the device that these events can change.

VIN_LOW freezes guarded egress that is not frozen, closes the last-sent table and drives LEAVING. VIN_RECOVER after such a freeze enters the
safe state with cause 4. FREEZE_STORE_DONE: the closed table is stored with each stream's next sequence. The frames name every part of the
device that these events can change. -/
def Obligations.GuardEventsComplete : Prop :=
  ((∀ (s : State) (t i a : Nat), (frameOf s.dev i).cond = 2 → (frameOf s.dev i).confirmed = some a → (frameOf s.dev i).seq.isSome = true →
      (frameOf s.dev i).outcome = none → a + 16000 ≤ (now t s).clock →
      ∃ d, exec (.receiptDeadline t i) s = .next { s with dev := d } ∧ (hasFrame d i = true → (frameOf d i).outcome = some 3)
        ∧ (∀ h ∈ d.guard.holds, (frameOf s.dev i).stream = some h.stream → (frameOf s.dev i).seq = some h.seq → h.frame.outcome = some 3)
        ∧ ({ d with guard := {}, ledger := {}, counters := {}, frames := [], copies := [] } : Dev) = { now t s with guard := {}, ledger := {}, counters := {}, frames := [], copies := [] })
    ∧ (∀ (s : State) (t i a : Nat), (frameOf s.dev i).cond ≠ 2 → (frameOf s.dev i).confirmed = some a → (frameOf s.dev i).seq.isSome = true →
        (frameOf s.dev i).outcome = none → a + 320000 ≤ (now t s).clock →
        ∃ d, exec (.retentionDeadline t i) s = .next { s with dev := d }
          ∧ (hasFrame d i = true → (frameOf d i).outcome = some (if (frameOf s.dev i).retained then 8 else 5))
          ∧ (∀ h ∈ d.guard.holds, (frameOf s.dev i).stream = some h.stream → (frameOf s.dev i).seq = some h.seq →
              h.frame.outcome = some (if (frameOf s.dev i).retained then 8 else 5))
          ∧ ({ d with guard := {}, ledger := {}, counters := {}, frames := [], copies := [] } : Dev) = { now t s with guard := {}, ledger := {}, counters := {}, frames := [], copies := [] })
    ∧ (∀ (s : State) (t i st n : Nat), (frameOf s.dev i).stream = some st → (frameOf s.dev i).seq = some n → islandAwake s.dev 0x4E = true →
        (∀ r ∈ s.dev.guard.retains, r.stream = st → r.seq = n → ∀ k ∈ retainChannels s.dev r,
          (chanOf s.dev k).failed = false ∧ (chanOf s.dev k).training = false) →
        (∀ r, s.dev.guard.retains.find? retainOpen = some r → r.stream = st ∧ r.seq = n) →
        ∃ d, exec (.retentionWriteDone t i true) s = .next { s with dev := d } ∧ (hasFrame d i = true → (frameOf d i).retained = true)
          ∧ (∀ r ∈ d.guard.retains, r.stream = st → r.seq = n → r.done = true) ∧ ({ d with coll := {}, guard := {}, ledger := {}, counters := {}, frames := [], copies := [], cistern := {} } : Dev) = { now t s with coll := {}, guard := {}, ledger := {}, counters := {}, frames := [], copies := [], cistern := {} })
    ∧ (∀ (s : State) (t st n : Nat), s.dev.guard.holds.any (fun h => h.stream == st && h.seq == n) = true →
        s.dev.guard.retains.any (fun r => r.stream == st && r.seq == n && r.done && !r.lost) = false →
        ∃ d, exec (.holdPoolScrub t st n) s = .next { s with dev := d }
          ∧ (∀ h ∈ d.guard.holds, h.stream = st → h.seq = n → h.lost = true) ∧ d.pair.scrubUncorr = s.dev.pair.scrubUncorr + 1
          ∧ d.guard = { s.dev.guard with holds := d.guard.holds } ∧ ({ d with coll := {}, guard := {}, pair := {}, counters := {}, cistern := {} } : Dev) = { now t s with coll := {}, guard := {}, pair := {}, counters := {}, cistern := {} }))
  ∧ ((∀ (s : State) (t : Nat), ∃ d, exec (.vinLow t) s = .next { s with dev := d } ∧ d.guard.frozen = true ∧ d.guard.leaving = true
        ∧ (s.dev.guard.frozen = false → d.guard.suspended = true ∧ d.guard.closed = true ∧ d.guard.storing = true
            ∧ d.guard.frozenAt = some (now t s).clock) ∧ ({ d with coll := {}, guard := {}, ledger := {}, counters := {}, tm := {}, frames := [], copies := [], ports := [], release := {}, out := [] } : Dev) = { now t s with coll := {}, guard := {}, ledger := {}, counters := {}, tm := {}, frames := [], copies := [], ports := [], release := {}, out := [] })
    ∧ (∀ (s : State) (t : Nat), s.dev.guard.leaving = true → s.dev.guard.frozen = true → s.dev.guard.cause = 0 →
        ∃ d, exec (.vinRecover t) s = .next { s with dev := d } ∧ d.guard.cause = 4 ∧ d.guard.leaving = false ∧ d.guard.frozen = true ∧ ({ d with fns := [], helm := {}, coll := {}, guard := {}, ledger := {}, pair := {}, counters := {}, tm := {}, frames := [], copies := [], ports := [], release := {}, out := [] } : Dev) = { now t s with fns := [], helm := {}, coll := {}, guard := {}, ledger := {}, pair := {}, counters := {}, tm := {}, frames := [], copies := [], ports := [], release := {}, out := [] })
    ∧ (∀ (s : State) (t : Nat), s.dev.guard.storing = true → ∃ d, exec (.freezeStoreDone t) s = .next { s with dev := d }
        ∧ d.guard = { s.dev.guard with storing := false, stored := some (s.dev.guard.streams.map fun e => (e.1, e.2.next, e.2.slots.map (·.lastSent))) }
        ∧ ({ d with guard := {} } : Dev) = { now t s with guard := {} }))

-- Ports and modules -------------------------------------------------------------------------------------------------------------------------

/-- port.configure of a Port that no rule turns away takes every field of the request; an UP Port whose mode, FEC, negotiation and training stay
as they were stays UP, and any other begins bring-up, in negotiation, training or alignment. The frame names every part of the device that
the command can change.

port.disable of a Port that is on, and unguarded or forced: it turns the Port off at once, or starts its drain where OPTION is 0, the Port
is UP and it has copies to send; one that is off already answers ST_OK, and a guarded one without FORCE ST_CONFLICT, and nothing changes.
port.status answers the Port's record. module.map sets a master's speed and cages. module.access puts its transaction at the end of its
master's line and stays BUSY, and the transaction goes out at once where the line is empty. -/
def Obligations.PortCommandsComplete : Prop :=
  (∀ (s : State) (c : Cmd), let p := u16 c.req 0; let x := portOf s.dev p; let y := configured s.dev c.req
      Takes s c 24 → s.dev.power.bringup = true → portUnused s.dev p = false → portFieldsOk p c.req = true → x.drain = none →
      lanesClash s.dev p y.mode = false → (guardedPort s.dev p = true → x.mode ≠ 0 → modeOf x = y.mode) →
      (List.range (modeLanes y.mode - 1)).any (fun k => guardedPort s.dev (p + 1 + k)) = false → portPooled s.dev p = false →
      (y.mode = 0x0C → portPooled s.dev (p + 8) = false) → portQueues s.dev p ≠ [] →
      floorKept (setHeadroom (setPort p { y with state := if x.state = 0 then firstState y else x.state } (begun 0x0101 c s.dev))) 0 0 = true →
      floorKept (setHeadroom (setPort p { y with state := if x.state = 0 then firstState y else x.state } (begun 0x0101 c s.dev))) 1 0 = true →
      ∃ d, exec (.portConfigure c) s = .next { s with dev := d } ∧ Answers d c stOk 4 []
        ∧ (portOf d p).mode = u8 c.req 2 ∧ (portOf d p).fec = u8 c.req 3 ∧ (portOf d p).an = (u8 c.req 4 == 1) ∧ (portOf d p).training = (u8 c.req 5 == 1)
        ∧ (portOf d p).flags = u16 c.req 6 ∧ (portOf d p).mtu = u16 c.req 8 ∧ (portOf d p).overhead = signed 8 (u8 c.req 10)
        ∧ (portOf d p).planeOffset = signed 32 (u32 c.req 12) ∧ (portOf d p).planeUncert = u16 c.req 16 ∧ (portOf d p).upHold = u16 c.req 18
        ∧ (portOf d p).anAbility = u16 c.req 20
        ∧ (portOf d p).state = (if x.state = 4 ∧ x.mode = y.mode ∧ x.fec = y.fec ∧ x.an = y.an ∧ x.training = y.training then 4 else firstState y)
        ∧ ({ d with boxes := [], fns := [], helm := {}, guard := {}, ledger := {}, pair := {}, counters := {}, tm := {}, frames := [], copies := [], ports := [], masters := [], release := {}, tables := {}, out := [] } : Dev) = { now c.t s with boxes := [], fns := [], helm := {}, guard := {}, ledger := {}, pair := {}, counters := {}, tm := {}, frames := [], copies := [], ports := [], masters := [], release := {}, tables := {}, out := [] })
  ∧ ((∀ (s : State) (c : Cmd), let p := u16 c.req 0
      Takes s c 4 → portUnused s.dev p = false → u8 c.req 2 ≤ 1 → u8 c.req 3 ≤ 1 → (portOf s.dev p).state ≠ 0 →
      (guardedPort s.dev p = false ∨ u8 c.req 3 = 1) → (portOf s.dev p).drain = none →
      (u8 c.req 2 = 0 → (portOf s.dev p).state = 4 → portBusy s.dev p = false) →
      ∃ d, exec (.portDisable c) s = .next { s with dev := d } ∧ Answers d c stOk 8 [] ∧ (portOf d p).state = 0 ∧ (portOf d p).lastDown = 8
        ∧ ({ d with boxes := [], fns := [], helm := {}, coll := {}, guard := {}, ledger := {}, pair := {}, counters := {}, tm := {}, frames := [], copies := [], ports := [], masters := [], release := {}, out := [] } : Dev) = { now c.t s with boxes := [], fns := [], helm := {}, coll := {}, guard := {}, ledger := {}, pair := {}, counters := {}, tm := {}, frames := [], copies := [], ports := [], masters := [], release := {}, out := [] })
    ∧ (∀ (s : State) (c : Cmd), let p := u16 c.req 0
        Takes s c 4 → portUnused s.dev p = false → u8 c.req 2 = 0 → u8 c.req 3 ≤ 1 → (portOf s.dev p).state = 4 →
        (guardedPort s.dev p = false ∨ u8 c.req 3 = 1) → (portOf s.dev p).drain = none → portBusy s.dev p = true → s.dev.helm.open_.length < 1024 →
        ∃ d, exec (.portDisable c) s = .next { s with dev := d } ∧ Answers d c stPending 8 (le 2 0 ++ le 4 s.dev.helm.nextTicket)
          ∧ (portOf d p).drain = some (s.dev.helm.nextTicket, (now c.t s).clock) ∧ (portOf d p).ingressStop = true ∧ (portOf d p).state = 4
          ∧ ({ d with boxes := [], fns := [], helm := {}, coll := {}, guard := {}, ledger := {}, pair := {}, counters := {}, tm := {}, frames := [], copies := [], ports := [], masters := [], release := {}, out := [] } : Dev) = { now c.t s with boxes := [], fns := [], helm := {}, coll := {}, guard := {}, ledger := {}, pair := {}, counters := {}, tm := {}, frames := [], copies := [], ports := [], masters := [], release := {}, out := [] })
    ∧ (∀ (s : State) (c : Cmd), let p := u16 c.req 0
        Takes s c 4 → portUnused s.dev p = false → u8 c.req 2 ≤ 1 → u8 c.req 3 ≤ 1 →
        ((portOf s.dev p).state = 0 ∨ guardedPort s.dev p = true ∧ u8 c.req 3 = 0) →
        ∃ d, exec (.portDisable c) s = .next { s with dev := d } ∧ Answers d c (if (portOf s.dev p).state = 0 then stOk else stConflict) 8 []
          ∧ ({ d with boxes := [], out := [] } : Dev) = { now c.t s with boxes := [], out := [] })
    ∧ (∀ (s : State) (c : Cmd), let p := u16 c.req 0; let x := portOf s.dev p
        Takes s c 4 → portUnused s.dev p = false → u16 c.req 2 = 0 →
        ∃ d m, exec (.portStatus c) s = .next { s with dev := d }
          ∧ Answers d c stOk 32 (le 1 x.state ++ le 1 (modeOf x) ++ le 1 (fecOf x) ++ le 1 x.lastDown ++ le 2 m
              ++ le 4 (if x.state = 4 then inDelay x else 0) ++ le 4 (if x.state = 4 then egDelay x else 0) ++ le 2 (captureTerm x) ++ le 2 0
              ++ stampBytes x.upStamp)
          ∧ (cageOf s.dev p = none → m = 0)
          ∧ (∀ g, cageOf s.dev p = some g → m = b2n g.present + 2 * b2n g.ready + 4 * b2n g.unsupported + 8 * b2n g.fault)
          ∧ ({ d with boxes := [], out := [] } : Dev) = { now c.t s with boxes := [], out := [] })
    ∧ (∀ (s : State) (c : Cmd),
        let gs : List Cage := (List.range (u8 c.req 2)).map fun k => { lane := u16 c.req (4 + 4 * k), path := u8 c.req (6 + 4 * k), addr := u8 c.req (7 + 4 * k) }
        Takes s c 4 → u8 c.req 0 ≤ 15 → u8 c.req 1 ≤ 2 → u8 c.req 2 ≤ 64 → u8 c.req 3 = 0 → 4 + 4 * u8 c.req 2 ≤ c.req.length →
        (∀ g ∈ gs, masterFor g.lane = u8 c.req 0 ∧ g.addr < 64 ∧ (bitOf g.path 7 = true → bitOf g.path 6 = true)) → (gs.map (·.lane)).Nodup →
        ∃ d, exec (.moduleMap c) s = .next { s with dev := d } ∧ Answers d c stOk 4 []
          ∧ masterOf d (u8 c.req 0) = { masterOf s.dev (u8 c.req 0) with speed := u8 c.req 1, cages := gs }
          ∧ (∀ m, m ≠ u8 c.req 0 → masterOf d m = masterOf s.dev m) ∧ ({ d with boxes := [], masters := [], out := [] } : Dev) = { now c.t s with boxes := [], masters := [], out := [] })
    ∧ (∀ (s : State) (c : Cmd) (j : I2cJob), Takes s c 136 → accessJob s.dev c.box c.req = .inr j →
        ∃ d, exec (.moduleAccess c) s = .next { s with dev := d } ∧ (boxOf d c.box).state = 1
          ∧ (masterOf d (masterFor j.lane)).jobs = (masterOf s.dev (masterFor j.lane)).jobs ++ [j]
          ∧ ((masterOf s.dev (masterFor j.lane)).jobs = [] → d.out.head? = some
              (.i2c (masterFor j.lane) j.lane j.bank j.page j.offset (if j.op = 1 then j.data else []) (if j.op = 0 then j.length else 0)))
          ∧ (∀ m, m ≠ masterFor j.lane → masterOf d m = masterOf s.dev m) ∧ ({ d with boxes := [], fns := [], counters := {}, masters := [], out := [] } : Dev) = { now c.t s with boxes := [], fns := [], counters := {}, masters := [], out := [] }))

/-- MODULE_POLL: a poll takes its turn on the cage's master; where the line is empty it finds a module, or misses it for the third time and
takes it away; where it is not, the poll joins the line and nothing else changes. MODULE_INT polls every cage of its master. MODULE_MONITOR
keeps the fault flag. MODULE_STATE_READY: a module out of low power is ready, and its data path follows whether its Port is on.
I2C_TRANSACTION_DONE answers the mailbox of the transaction at the head of the line, ST_OK where the module acknowledged and else ST_FAULT.
The replies come from outside (log 19). The frames name every part of the device that these events can change.

A Port's way up and down. AN_RESOLUTION resolves the common technology of highest priority and its FEC, and where none is common (log 103)
or it does not fit the Port, negotiation has failed; AN_RESTART forgets that 500 ms later. TRAINING_COMPLETE goes on to alignment, and
TRAINING_TIMEOUT begins bring-up again. ALIGNMENT_ACHIEVED keeps the measured variable parts, up to 160 ticks each, and larger ones not.
UP_HOLD_ELAPSED: the Port is UP. LINK_LOSS takes an UP Port down with its cause, and one in bring-up back to where its signal is due again.
PORT_DRAIN_END turns the Port off and completes the ticket. No other Port changes in negotiation, training, alignment and a loss in
bring-up; the frames name every part of the device that these events can change. -/
def Obligations.PortEventsComplete : Prop :=
  ((∀ (s : State) (t lane ident rev : Nat) (apps : List Nat) (g : Cage), s.dev.helm.state = 1 → cageOf s.dev lane = some g →
      (masterOf s.dev (masterFor lane)).jobs = [] → g.present = false →
      ∃ d g', exec (.modulePoll t lane (some (ident, rev, apps))) s = .next { s with dev := d } ∧ cageOf d lane = some g' ∧ g'.present = true
        ∧ g'.revision = rev ∧ g'.apps = apps ∧ g'.missed = 0 ∧ (∀ l, l ≠ lane → cageOf d l = cageOf s.dev l) ∧ ({ d with fns := [], counters := {}, masters := [], out := [] } : Dev) = { now t s with fns := [], counters := {}, masters := [], out := [] })
    ∧ (∀ (s : State) (t lane : Nat) (g : Cage), s.dev.helm.state = 1 → cageOf s.dev lane = some g → (masterOf s.dev (masterFor lane)).jobs = [] →
        g.present = true → 2 ≤ g.missed →
        ∃ d, exec (.modulePoll t lane none) s = .next { s with dev := d } ∧ cageOf d lane = some { lane := g.lane, path := g.path, addr := g.addr }
          ∧ (∀ l, l ≠ lane → cageOf d l = cageOf s.dev l) ∧ ({ d with fns := [], counters := {}, masters := [], out := [] } : Dev) = { now t s with fns := [], counters := {}, masters := [], out := [] })
    ∧ (∀ (s : State) (t lane : Nat) (reply : Option (Nat × Nat × List Nat)) (g : Cage), s.dev.helm.state = 1 → cageOf s.dev lane = some g →
        (masterOf s.dev (masterFor lane)).jobs ≠ [] →
        ∃ d j, exec (.modulePoll t lane reply) s = .next { s with dev := d } ∧ j.lane = lane ∧ j.own = some (.poll reply)
          ∧ masterOf d (masterFor lane) = { masterOf s.dev (masterFor lane) with jobs := (masterOf s.dev (masterFor lane)).jobs ++ [j] }
          ∧ (∀ m, m ≠ masterFor lane → masterOf d m = masterOf s.dev m) ∧ ({ d with masters := [] } : Dev) = { now t s with masters := [] })
    ∧ (∀ (s : State) (t i2c ident rev : Nat) (apps : List Nat) (replies : List (Nat × (Nat × Nat × List Nat))) (g : Cage),
        s.dev.helm.state = 1 → (∀ h ∈ (masterOf s.dev i2c).cages, masterFor h.lane = i2c) → (masterOf s.dev i2c).jobs = [] →
        g ∈ (masterOf s.dev i2c).cages → cageOf s.dev g.lane = some g → g.present = false →
        (replies.find? fun e => e.1 == g.lane) = some (g.lane, (ident, rev, apps)) →
        ∃ d g', exec (.moduleInt t i2c replies) s = .next { s with dev := d } ∧ cageOf d g.lane = some g' ∧ g'.present = true ∧ g'.revision = rev
          ∧ ({ d with fns := [], counters := {}, masters := [], out := [] } : Dev) = { now t s with fns := [], counters := {}, masters := [], out := [] })
    ∧ (∀ (s : State) (t lane : Nat) (flags : List (Nat × Nat)) (cause : Option Nat) (g : Cage), s.dev.helm.state = 1 →
        cageOf s.dev lane = some g → (masterOf s.dev (masterFor lane)).jobs = [] → g.present = true →
        ∃ d, exec (.moduleMonitor t lane flags cause) s = .next { s with dev := d } ∧ cageOf d lane = some { g with fault := cause.isSome }
          ∧ (∀ l, l ≠ lane → cageOf d l = cageOf s.dev l) ∧ ({ d with fns := [], counters := {}, masters := [], out := [] } : Dev) = { now t s with fns := [], counters := {}, masters := [], out := [] })
    ∧ (∀ (s : State) (t lane : Nat) (g : Cage), s.dev.helm.state = 1 → cageOf s.dev lane = some g → g.present = true → g.lowPower = false →
        g.ready = false → ∃ d, exec (.moduleStateReady t lane) s = .next { s with dev := d }
          ∧ cageOf d lane = some { g with ready := true, active := (portOf s.dev lane).state != 0 }
          ∧ (∀ l, l ≠ lane → cageOf d l = cageOf s.dev l) ∧ ({ d with fns := [], counters := {}, masters := [], out := [] } : Dev) = { now t s with fns := [], counters := {}, masters := [], out := [] })
    ∧ (∀ (s : State) (t i2c : Nat) (ok : Bool) (data : List Byte) (j : I2cJob) (rest : List I2cJob), (masterOf s.dev i2c).jobs = j :: rest →
        j.box < 16 → ∃ d, exec (.i2cTransactionDone t i2c ok data) s = .next { s with dev := d }
          ∧ ((∀ k ∈ rest.head?, k.own = none) → (masterOf d i2c).jobs = rest)
          ∧ (boxOf d j.box).state = 2 ∧ (boxOf d j.box).status = (if ok then stOk else stFault)
          ∧ (ok = true → (boxOf d j.box).respArea = padTo 132 (le 2 stOk ++ (le 1 j.length ++ le 1 0 ++ (if j.op = 0 then padTo j.length data else []))))
          ∧ (∀ m, m ≠ j.box → boxOf d m = boxOf s.dev m) ∧ ({ d with boxes := [], fns := [], counters := {}, masters := [], out := [] } : Dev) = { now t s with boxes := [], fns := [], counters := {}, masters := [], out := [] }))
  ∧ ((∀ (s : State) (t port base fec ability : Nat), (portOf s.dev port).state = 1 → (portOf s.dev port).anFailedAt = none →
      (∀ b m, resolveTech (portOf s.dev port).anAbility (base ||| ability) = some b → techMode b = some m → techFits s.dev port m = false) →
      ∃ d, exec (.anResolution t port base fec ability) s = .next { s with dev := d }
        ∧ portOf d port = { portOf s.dev port with anFailedAt := some (now t s).clock }
        ∧ (∀ q, q ≠ port → portOf d q = portOf s.dev q) ∧ ({ d with fns := [], counters := {}, ports := [], release := {} } : Dev) = { now t s with fns := [], counters := {}, ports := [], release := {} })
    ∧ (∀ (s : State) (t port base fec ability b m : Nat), (portOf s.dev port).state = 1 → (portOf s.dev port).anFailedAt = none →
        resolveTech (portOf s.dev port).anAbility (base ||| ability) = some b → techMode b = some m → techFits s.dev port m = true →
        ∃ d, exec (.anResolution t port base fec ability) s = .next { s with dev := d }
          ∧ portOf d port = { portOf s.dev port with resolved := some (m, resolveFec b (portOf s.dev port).fec fec),
                                                     state := if (portOf s.dev port).training then 2 else 3 }
          ∧ (∀ q, q ≠ port → portOf d q = portOf s.dev q) ∧ ({ d with fns := [], counters := {}, ports := [], release := {} } : Dev) = { now t s with fns := [], counters := {}, ports := [], release := {} })
    ∧ (∀ (s : State) (t port a : Nat), (portOf s.dev port).anFailedAt = some a → a + 8000000000 ≤ (now t s).clock →
        ∃ d, exec (.anRestart t port) s = .next { s with dev := d } ∧ portOf d port = { portOf s.dev port with anFailedAt := none }
          ∧ (∀ q, q ≠ port → portOf d q = portOf s.dev q) ∧ ({ d with ports := [] } : Dev) = { now t s with ports := [] })
    ∧ (∀ (s : State) (t port : Nat), (portOf s.dev port).state = 2 → ∃ d, exec (.trainingComplete t port) s = .next { s with dev := d }
        ∧ portOf d port = { portOf s.dev port with state := 3, alignedAt := none }
        ∧ (∀ q, q ≠ port → portOf d q = portOf s.dev q) ∧ ({ d with ports := [] } : Dev) = { now t s with ports := [] })
    ∧ (∀ (s : State) (t port lanes : Nat), (portOf s.dev port).state = 2 → ∃ d, exec (.trainingTimeout t port lanes) s = .next { s with dev := d }
        ∧ portOf d port = startPort (portOf s.dev port)
        ∧ (∀ q, q ≠ port → portOf d q = portOf s.dev q) ∧ ({ d with fns := [], coll := {}, counters := {}, ports := [], release := {} } : Dev) = { now t s with fns := [], coll := {}, counters := {}, ports := [], release := {} })
    ∧ (∀ (s : State) (t port inVar egVar : Nat), (portOf s.dev port).state = 3 →
        ∃ d, exec (.alignmentAchieved t port inVar egVar) s = .next { s with dev := d }
          ∧ portOf d port = (if inVar ≤ 160 ∧ egVar ≤ 160 then { portOf s.dev port with inVar, egVar, alignedAt := some (now t s).clock }
              else { portOf s.dev port with alignedAt := none })
          ∧ (∀ q, q ≠ port → portOf d q = portOf s.dev q) ∧ ({ d with ports := [] } : Dev) = { now t s with ports := [] })
    ∧ (∀ (s : State) (t port a : Nat), (portOf s.dev port).state = 3 → (portOf s.dev port).alignedAt = some a →
        a + 16000000 * (portOf s.dev port).upHold ≤ (now t s).clock →
        ∃ d, exec (.upHoldElapsed t port) s = .next { s with dev := d } ∧ (portOf d port).state = 4 ∧ (portOf d port).upStamp = helmStamp (now t s)
          ∧ ({ d with fns := [], coll := {}, counters := {}, tm := {}, frames := [], copies := [], nextFrame := 0, nextCopy := 0, ports := [], release := {} } : Dev) = { now t s with fns := [], coll := {}, counters := {}, tm := {}, frames := [], copies := [], nextFrame := 0, nextCopy := 0, ports := [], release := {} })
    ∧ (∀ (s : State) (t port cause : Nat), (portOf s.dev port).state = 4 → 1 ≤ cause → cause ≤ 7 →
        ∃ d, exec (.linkLoss t port cause) s = .next { s with dev := d } ∧ (portOf d port).state = (if (portOf s.dev port).an then 1 else 3)
          ∧ (portOf d port).lastDown = cause ∧ (portOf d port).receiving = none ∧ ({ d with fns := [], helm := {}, coll := {}, guard := {}, ledger := {}, pair := {}, counters := {}, tm := {}, frames := [], copies := [], ports := [], release := {}, tables := {}, out := [] } : Dev) = { now t s with fns := [], helm := {}, coll := {}, guard := {}, ledger := {}, pair := {}, counters := {}, tm := {}, frames := [], copies := [], ports := [], release := {}, tables := {}, out := [] })
    ∧ (∀ (s : State) (t port cause : Nat), (portOf s.dev port).state ≠ 4 → (portOf s.dev port).state ≠ 0 → 1 ≤ cause → cause ≤ 7 →
        ∃ d, exec (.linkLoss t port cause) s = .next { s with dev := d } ∧ portOf d port = losesSignal (portOf s.dev port)
          ∧ (∀ q, q ≠ port → portOf d q = portOf s.dev q) ∧ ({ d with ports := [] } : Dev) = { now t s with ports := [] })
    ∧ (∀ (s : State) (t port n since : Nat), (portOf s.dev port).drain = some (n, since) →
        portBusy s.dev port = false ∨ since + 160000000 ≤ (now t s).clock →
        ∃ d, exec (.portDrainEnd t port) s = .next { s with dev := d } ∧ (portOf d port).state = 0 ∧ (portOf d port).drain = none
          ∧ (∀ x ∈ d.helm.open_, x.num ≠ n) ∧ ({ d with fns := [], helm := {}, coll := {}, ledger := {}, counters := {}, tm := {}, frames := [], copies := [], ports := [], masters := [], release := {}, out := [] } : Dev) = { now t s with fns := [], helm := {}, coll := {}, ledger := {}, counters := {}, tm := {}, frames := [], copies := [], ports := [], masters := [], release := {}, out := [] }))

-- Time ---------------------------------------------------------------------------------------------------------------------------------------

/-- time.configure sets its fields, each at its default where it is sent as 0, and the UTC offset in force where no ToD has come. time.source
keeps the new list and wait for the next servo update. time.status reads the servo; its GROWTH while the growth is saturated is the model's
choice (log 109). time.step is scheduled two beats ahead and takes a ticket. ptp.port sets the Port's record and drops its pending entries.
Nothing else of the time and PTP state changes, and the frames name every part of the device that these commands can change.

A time.step that finds a group enabled and does not force it, or finds a step already waiting (the model's choice, log 109), ends
ST_CONFLICT, and nothing changes. -/
def Obligations.TimeCommandsComplete : Prop :=
  ((∀ (s : State) (c : Cmd), let q := c.req
      Takes s c 36 → 1 ≤ u32 q 0 → u32 q 0 ≤ 10000000 → u32 q 4 ≤ 10000000 → (u16 q 8 = 0 ∨ 16 ≤ u16 q 8 ∧ u16 q 8 ≤ 1024) → u16 q 10 = 0 →
      (u32 q 12 = 0 ∨ 1600 ≤ u32 q 12 ∧ u32 q 12 ≤ 1600000000) → u16 q 16 ≤ 500 → (u32 q 20 = 0 ∨ 16 ≤ u32 q 20 ∧ u32 q 20 ≤ 65534) →
      -500000000 ≤ signed 32 (u32 q 24) → signed 32 (u32 q 24) ≤ 500000000 → (u32 q 28 = 0 ∨ 100 ≤ u32 q 28 ∧ u32 q 28 ≤ 500000000) →
      u8 q 32 ≤ 1 → leAt q 33 3 = 0 →
      ∃ d, exec (.timeConfigure c) s = .next { s with dev := d } ∧ Answers d c stOk 4 []
        ∧ d.time = { (now c.t s).time with
            oscFreq := some (u32 q 0), oscAging := some (u32 q 4), lockThreshold := if u16 q 8 = 0 then 64 else u16 q 8,
            stepThreshold := if u32 q 12 = 0 then 16000 else u32 q 12, slewMax := if u16 q 16 = 0 then 100 else u16 q 16,
            utcOffset := signed 16 (u16 q 18), utcNow := if s.dev.time.tod = none then signed 16 (u16 q 18) else s.dev.time.utcNow,
            holdoverLimit := if u32 q 20 = 0 then 16000 else u32 q 20, ppsOffset := signed 32 (u32 q 24),
            ppsWidth := if u32 q 28 = 0 then 100000 else u32 q 28, todFormat := u8 q 32 }
        ∧ ({ d with boxes := [], time := {}, out := [] } : Dev) = { now c.t s with boxes := [], time := {}, out := [] })
    ∧ (∀ (s : State) (c : Cmd), let q := c.req; let n := u8 q 0
        Takes s c 4 → n ≤ 4 → u8 q 1 = 0 → u16 q 2 ≤ 3600 → 4 + 16 * n ≤ q.length → (∀ i < n, leAt q (15 + 16 * i) 5 = 0) →
        (∀ i < n, sourceOk s.dev (sourceIn q i) = true) →
        ∃ d, exec (.timeSource c) s = .next { s with dev := d } ∧ Answers d c stOk 4 []
          ∧ d.time = { (now c.t s).time with newSources := some ((List.range n).map (sourceIn q)), newWait := u16 q 2 } ∧ ({ d with boxes := [], time := {}, out := [] } : Dev) = { now c.t s with boxes := [], time := {}, out := [] })
    ∧ (∀ (s : State) (c : Cmd), Takes s c 4 → u32 c.req 0 = 0 →
        let t := s.dev.time
        ∃ d, exec (.timeStatus c) s = .next { s with dev := d }
          ∧ Answers d c stOk 48 (le 1 t.servo ++ le 1 t.src ++ le 1 (t.entry.getD 0xFF)
              ++ le 1 (b2n t.westRepointed + 2 * b2n t.eastRepointed + 4 * b2n (t.mismatch.isSome || t.unresolved)) ++ le 2 (unsigned 16 t.utcNow)
              ++ le 8 (unsigned 64 (t.offsets.headD 0)) ++ le 4 t.west.servoTerm ++ le 4 ((growthNow (now c.t s)).getD 0xFFFFFFFF)
              ++ stampBytes ((t.holdover.map (·.2)).getD {}) ++ stampBytes (coreStamp (now c.t s) false))
          ∧ ({ d with boxes := [], out := [] } : Dev) = { now c.t s with boxes := [], out := [] })
    ∧ (∀ (s : State) (c : Cmd), Takes s c 12 → signed 64 (u64 c.req 0) ≠ 0 → u8 c.req 8 ≤ 1 → leAt c.req 9 3 = 0 → s.dev.time.step = none →
        (u8 c.req 8 = 1 ∨ groupsEnabled s.dev = false) → s.dev.helm.open_.length < 1024 →
        ∃ d, exec (.timeStep c) s = .next { s with dev := d } ∧ Answers d c stPending 8 (le 2 0 ++ le 4 s.dev.helm.nextTicket)
          ∧ d.time = { (now c.t s).time with step := some { beat := coreTicks (now c.t s).time.west / 4096 + 2, amount := signed 64 (u64 c.req 0),
                                                            ticket := some s.dev.helm.nextTicket } }
          ∧ ({ d with boxes := [], helm := {}, time := {}, tm := {}, copies := [], release := {}, out := [] } : Dev) = { now c.t s with boxes := [], helm := {}, time := {}, tm := {}, copies := [], release := {}, out := [] })
    ∧ (∀ (s : State) (c : Cmd), let q := c.req; let p := u16 q 0
        Takes s c 12 → portUnused s.dev p = false → u8 q 2 ≤ 3 → u8 q 3 ≤ 1 → u8 q 4 ≤ 7 → u8 q 5 ≤ 1 → u16 q 10 = 0 →
        (u8 q 2 = 3 → (ptpPort s.dev p).role = 3 → (ptpPort s.dev p).domains = ((List.range 4).map fun k => u8 q (6 + k)).filter (· != 0xFF)) →
        ∃ d, exec (.ptpPort c) s = .next { s with dev := d } ∧ Answers d c stOk 4 []
          ∧ ptpPort d p = { linkDelay := (ptpPort s.dev p).linkDelay, role := u8 q 2, step := u8 q 3, transport := u8 q 4, delay := u8 q 5,
                            domains := ((List.range 4).map fun k => u8 q (6 + k)).filter (· != 0xFF) }
          ∧ (∀ k, k ≠ p → ptpPort d k = ptpPort s.dev k)
          ∧ d.ptp = { s.dev.ptp with ports := d.ptp.ports, pending := s.dev.ptp.pending.filter fun e => e.port != p } ∧ ({ d with boxes := [], ptp := {}, out := [] } : Dev) = { now c.t s with boxes := [], ptp := {}, out := [] }))
  ∧ (∀ (s : State) (c : Cmd), Takes s c 12 → signed 64 (u64 c.req 0) ≠ 0 → u8 c.req 8 ≤ 1 → leAt c.req 9 3 = 0 →
      (groupsEnabled s.dev = true ∧ u8 c.req 8 = 0 ∨ s.dev.time.step.isSome = true) →
      ∃ d, exec (.timeStep c) s = .next { s with dev := d } ∧ (boxOf d c.box).status = stConflict ∧ ({ d with boxes := [], out := [] } : Dev) = { now c.t s with boxes := [], out := [] })

/-- TIME_BEAT: the islands that take their beats from the core, and are awake, begin to slew to the correction from where they stand, or, where
it exceeds 64 ticks or the island has slept, stand at it at once; one beyond 64 ticks that has not slept is SUSPECT; no other island
changes. BEAT_MISSING: an island without a beat for 1 µs is SUSPECT. STEP_APPLY moves both Time Cores by the step's amount, in 64 bits of
ticks (the wrap is the model's choice, log 109). TIME_LATCH captures the Time Core that SEL names. The frames name every part of the device
that these events can change.

SERVO_UPDATE writes both Time Cores' fraction, held to ±500 ppm, and slew, held to ±SLEW_MAX, and one servo term. CORE_NO_UPDATE: a core
without an update for 250 ms, whose condition is not reported yet, enters holdover by itself where the servo is LOCKED or ACQUIRING, and a
servo that runs free goes on so. CORE_CROSS_CHECK: cores more than 16 ticks apart are a mismatch. MISMATCH_TIMEOUT: what the source Port and
its RESOLVE_PORT measured may name the wrong core, and a mismatch without that stays unresolved after 2 s, which puts a solo device that is
not in the safe state into it with cause 5. The frames name every part of the device that these events can change. -/
def Obligations.TimeEventsComplete : Prop :=
  ((∀ (s : State) (t : Nat) (east : Bool) (cs : List (Nat × Int)),
      ∃ d, exec (.timeBeat t east cs) s = .next { s with dev := d }
        ∧ (∀ i ∈ beatIslands, fromEast s.dev i = east → islandAwake s.dev i = true →
            let x := island s.dev i; let steps := x.slept || decide (64 < (tget 0 cs i).natAbs)
            (island d i).offset = x.settled (now t s).clock + (if steps then tget 0 cs i else 0)
            ∧ (island d i).slewBy = (if steps then 0 else tget 0 cs i) ∧ (island d i).slewFrom = (now t s).clock ∧ (island d i).beatAt = (now t s).clock
            ∧ (island d i).suspect = (!x.slept && decide (64 < (tget 0 cs i).natAbs)) ∧ (island d i).slept = false
            ∧ (island d i).servoTerm = (if east then s.dev.time.east else s.dev.time.west).servoTerm)
        ∧ (∀ i, fromEast s.dev i ≠ east → island d i = island s.dev i) ∧ ({ d with fns := [], coll := {}, time := {}, ledger := {}, pair := {}, counters := {} } : Dev) = { now t s with fns := [], coll := {}, time := {}, ledger := {}, pair := {}, counters := {} })
    ∧ (∀ (s : State) (t i : Nat), i ∈ beatIslands → islandAwake s.dev i = true → (island s.dev i).beatAt + 16000 ≤ (now t s).clock →
        ∃ d, exec (.beatMissing t i) s = .next { s with dev := d } ∧ island d i = { island s.dev i with suspect := true }
          ∧ (∀ k, k ≠ i → island d k = island s.dev k) ∧ ({ d with coll := {}, time := {}, pair := {} } : Dev) = { now t s with coll := {}, time := {}, pair := {} })
    ∧ (∀ (s : State) (t : Nat) (x : Step), s.dev.time.step = some x → x.beat * 4096 ≤ coreTicks (now t s).time.west →
        ∃ d, exec (.stepApply t) s = .next { s with dev := d } ∧ d.time.step = none ∧ d.time.steppedFlag = true
          ∧ d.time.stepped.head? = some (x.amount, (now t s).clock)
          ∧ d.time.west.acc = ((((now t s).time.west.acc : Int) + x.amount * (20 * fracOne : Nat)) % (20 * fracOne * 2 ^ 64 : Nat)).toNat
          ∧ d.time.east.acc = ((((now t s).time.east.acc : Int) + x.amount * (20 * fracOne : Nat)) % (20 * fracOne * 2 ^ 64 : Nat)).toNat ∧ ({ d with fns := [], helm := {}, time := {}, ledger := {}, counters := {} } : Dev) = { now t s with fns := [], helm := {}, time := {}, ledger := {}, counters := {} })
    ∧ (∀ (s : State) (t fn sel : Nat), sel < 2 → ∃ d, exec (.timeLatch t fn sel) s = .next { s with dev := d }
        ∧ fnOf d fn = { fnOf s.dev fn with snapSel := sel, snapValid := true, snap := coreStamp (now t s) (sel == 1),
                                           snapSeq := ((fnOf s.dev fn).snapSeq + 1) % 2 ^ 32 }
        ∧ (∀ k, k ≠ fn → fnOf d k = fnOf s.dev k) ∧ ({ d with fns := [] } : Dev) = { now t s with fns := [] }))
  ∧ ((∀ (s : State) (t : Nat) (frac slew offset : Int) (ten : Option Int × Option Int), s.dev.helm.state = 1 →
      ∃ d, exec (.servoUpdate t frac slew offset ten) s = .next { s with dev := d }
        ∧ d.time.west.frac = ppmLimit 500 frac ∧ d.time.west.slew = ppmLimit s.dev.time.slewMax slew
        ∧ d.time.east.frac = ppmLimit 500 frac ∧ d.time.east.slew = ppmLimit s.dev.time.slewMax slew
        ∧ d.time.west.servoTerm = d.time.east.servoTerm
        ∧ d.time.west.updated = (now t s).clock ∧ d.time.east.updated = (now t s).clock ∧ ({ d with fns := [], coll := {}, time := {}, ledger := {}, pair := {}, counters := {} } : Dev) = { now t s with fns := [], coll := {}, time := {}, ledger := {}, pair := {}, counters := {} })
    ∧ (∀ (s : State) (t : Nat) (east : Bool), (if east then s.dev.time.east else s.dev.time.west).updated + 4000000000 ≤ (now t s).clock →
        isPresent s.dev (0x700 + b2n east) 0x1B = false →
        ∃ d, exec (.coreNoUpdate t east) s = .next { s with dev := d }
          ∧ (s.dev.time.servo = 1 ∨ s.dev.time.servo = 2 → (if east then d.time.east else d.time.west).hwHoldover = true ∧ d.time.servo = 3)
          ∧ (s.dev.time.servo = 0 → d.time = (now t s).time) ∧ ({ d with fns := [], coll := {}, time := {}, ledger := {}, pair := {}, counters := {} } : Dev) = { now t s with fns := [], coll := {}, time := {}, ledger := {}, pair := {}, counters := {} })
    ∧ (∀ (s : State) (t : Nat) (m : Int), 16 < ((coreTicks (now t s).time.west : Int) - coreTicks (now t s).time.east + m).natAbs →
        s.dev.time.mismatch = none → s.dev.time.unresolved = false → s.dev.time.westRepointed = false → s.dev.time.eastRepointed = false →
        ∃ d, exec (.coreCrossCheck t m) s = .next { s with dev := d } ∧ d.time = { (now t s).time with apart := m, mismatch := some (now t s).clock }
          ∧ ({ d with fns := [], coll := {}, time := {}, ledger := {}, pair := {}, counters := {} } : Dev) = { now t s with fns := [], coll := {}, time := {}, ledger := {}, pair := {}, counters := {} })
    ∧ (∀ (s : State) (t a i : Nat) (x : Source) (r : Int × Int) (east : Bool), s.dev.time.mismatch = some a → s.dev.time.entry = some i →
        s.dev.time.sources[i]? = some x → (x.kind = 1 ∨ x.kind = 4 ∨ x.kind = 5) → resolves s.dev x = true →
        wrongCore s.dev.time.west.servoTerm r.1 r.2 = some east →
        ∃ d, exec (.mismatchTimeout t (some r)) s = .next { s with dev := d } ∧ d.time.mismatch = none
          ∧ d.time.westRepointed = (s.dev.time.westRepointed || !east) ∧ d.time.eastRepointed = (s.dev.time.eastRepointed || east)
          ∧ ({ d with fns := [], helm := {}, coll := {}, guard := {}, time := {}, ledger := {}, pair := {}, counters := {}, tm := {}, frames := [], copies := [], ports := [], release := {}, out := [] } : Dev) = { now t s with fns := [], helm := {}, coll := {}, guard := {}, time := {}, ledger := {}, pair := {}, counters := {}, tm := {}, frames := [], copies := [], ports := [], release := {}, out := [] })
    ∧ (∀ (s : State) (t a : Nat), s.dev.time.mismatch = some a → a + 32000000000 ≤ (now t s).clock →
        ∃ d, exec (.mismatchTimeout t none) s = .next { s with dev := d } ∧ d.time.mismatch = none ∧ d.time.unresolved = true
          ∧ (s.dev.pair.mode = 0 → s.dev.guard.cause = 0 → d.guard.cause = 5) ∧ ({ d with fns := [], helm := {}, coll := {}, guard := {}, time := {}, ledger := {}, pair := {}, counters := {}, tm := {}, frames := [], copies := [], ports := [], release := {}, out := [] } : Dev) = { now t s with fns := [], helm := {}, coll := {}, guard := {}, time := {}, ledger := {}, pair := {}, counters := {}, tm := {}, frames := [], copies := [], ports := [], release := {}, out := [] }))

/-- SOURCE_QUALIFIED: a source whose condition holds is qualified, and taken where none is in use. SOURCE_LOST: one whose condition has failed
is not, and where it was in use it no longer is. SOURCE_RESTORE takes the best source back once WAIT_TO_RESTORE has passed. PPS_EDGE
captures the edge in both cores, each within 4 ticks where the exchange has not found them apart, and else either may be the one that is off
(the model's choice, log 109). TOD_MESSAGE takes a valid message that ends 100 ms to 900 ms after the edge, and counts one outside that.
PPS_OUT drives the rise and the fall of the latest whole second plus PPS_OFFSET, once. TOD_TX sends the 16-byte message, once for each edge
and no earlier than 200 ms after it. The frames name every part of the device that these events can change.

PTP_PENDING_EXPIRE: a pending two-step entry is dropped after 1 s. PTP_MESSAGE_SEND: Helm's own message, of a type that the Port's role and
DELAY have it send, becomes a copy in the queue of that Port that it names, and nothing that was there changes but the queue. -/
def Obligations.ReferenceAndPtpEventsComplete : Prop :=
  ((∀ (s : State) (t i : Nat) (x : Source), s.dev.time.sources[i]? = some x → x.qualified = false → sourceReady (now t s) x = true →
      ∃ d, exec (.sourceQualified t i) s = .next { s with dev := d }
        ∧ d.time.sources[i]? = some { x with qualified := true, since := (now t s).clock }
        ∧ (∀ k, k ≠ i → d.time.sources[k]? = s.dev.time.sources[k]?) ∧ (s.dev.time.entry = none → d.time.entry.isSome = true) ∧ ({ d with fns := [], time := {}, ledger := {}, pair := {}, counters := {} } : Dev) = { now t s with fns := [], time := {}, ledger := {}, pair := {}, counters := {} })
    ∧ (∀ (s : State) (t i : Nat) (x : Source) (ten : Option Int × Option Int), s.dev.time.sources[i]? = some x → x.qualified = true →
        sourceGone (measureTen ten (now t s)) x = true →
        ∃ d, exec (.sourceLost t (i, ten)) s = .next { s with dev := d } ∧ d.time.sources[i]? = some { x with qualified := false, again := true }
          ∧ (∀ k, k ≠ i → d.time.sources[k]? = s.dev.time.sources[k]?)
          ∧ (if s.dev.time.entry = some i then d.time.entry ≠ some i else d.time.entry = s.dev.time.entry) ∧ ({ d with fns := [], time := {}, ledger := {}, pair := {}, counters := {} } : Dev) = { now t s with fns := [], time := {}, ledger := {}, pair := {}, counters := {} })
    ∧ (∀ (s : State) (t i e : Nat) (x : Source), s.dev.time.sources[i]? = some x → x.qualified = true → s.dev.time.entry = some e → i < e →
        bestSource (now t s) = some i → restored (now t s) x = true →
        ∃ d, exec (.sourceRestore t i) s = .next { s with dev := d } ∧ d.time.entry = some i ∧ d.time.sources = s.dev.time.sources ∧ ({ d with fns := [], time := {}, ledger := {}, pair := {}, counters := {} } : Dev) = { now t s with fns := [], time := {}, ledger := {}, pair := {}, counters := {} })
    ∧ (∀ (s : State) (t : Nat) (ew ee : Int), s.dev.time.mismatch = none → ∃ d, exec (.ppsEdge t ew ee) s = .next { s with dev := d }
        ∧ d.time = { (now t s).time with ppsWest := some ((coreTicks (now t s).time.west : Int) + (captureErrors s.dev.time.apart ew ee).1).toNat,
                                         ppsEast := some ((coreTicks (now t s).time.east : Int) + (captureErrors s.dev.time.apart ew ee).2).toNat, ppsAt := some (now t s).clock,
                                         ppsNoTod := s.dev.time.ppsNoTod + 1, ppsGoodSince := d.time.ppsGoodSince }
        ∧ (s.dev.time.apart = 0 → captureErrors s.dev.time.apart ew ee = (between (-4) 4 ew, between (-4) 4 ee)) ∧ ({ d with time := {} } : Dev) = { now t s with time := {} })
    ∧ (∀ (s : State) (t a : Nat) (m : List Byte), s.dev.time.ppsAt = some a →
        ∃ d, exec (.todMessage t m) s = .next { s with dev := d }
          ∧ (a + 1600000000 ≤ (now t s).clock → (now t s).clock ≤ a + 14400000000 →
              ∀ x, (if s.dev.time.todFormat = 0 then todClerenos m else todZda m s.dev.time.utcOffset) = some x →
                d.time.tod = some x ∧ d.time.utcNow = x.2.1 ∧ d.time.ppsNoTod = 0)
          ∧ (a + 14400000000 < (now t s).clock → d.time = { (now t s).time with todIgnored := s.dev.time.todIgnored + 1 }) ∧ ({ d with time := {} } : Dev) = { now t s with time := {} })
    ∧ (∀ (s : State) (t : Nat), let off := s.dev.time.ppsOffset * 16; let sec := ((coreTicks (ppsCore (now t s)) : Int) - off) / 16000000000
        let edge := (sec * 16000000000 + off).toNat
        0 ≤ sec → s.dev.time.ppsOutAt ≠ some edge →
        ∃ d, exec (.ppsOut t) s = .next { s with dev := d } ∧ d.out = .pps edge (edge + 16 * s.dev.time.ppsWidth) :: s.dev.out
          ∧ d.time = { (now t s).time with ppsOutAt := some edge, ppsSec := sec.toNat } ∧ ({ d with time := {}, out := [] } : Dev) = { now t s with time := {}, out := [] })
    ∧ (∀ (s : State) (t e : Nat), s.dev.time.ppsOutAt = some e → e + 3200000000 ≤ coreTicks (ppsCore (now t s)) → s.dev.time.todSentFor ≠ some e →
        ∃ d m, exec (.todTx t) s = .next { s with dev := d } ∧ d.out = .tod m :: s.dev.out ∧ m.length = 16 ∧ beAt m 0 2 = 0xC51E
          ∧ d.time = { (now t s).time with todSentFor := some e } ∧ ({ d with time := {}, out := [] } : Dev) = { now t s with time := {}, out := [] }))
  ∧ ((∀ (s : State) (t : Nat), ∃ d, exec (.ptpPendingExpire t) s = .next { s with dev := d }
      ∧ d = { now t s with ptp := { s.dev.ptp with pending := s.dev.ptp.pending.filter (fun e => decide ((now t s).clock - e.at_ < 16000000000)) } })
    ∧ (∀ (s : State) (t port queue since : Nat) (bytes : List Byte), s.dev.helm.state = 1 →
        sendsType (ptpPort s.dev port).role (ptpPort s.dev port).delay ((ptpAt bytes).map fun x => ptpType bytes x.1) = true →
        (portOf s.dev port).state = 4 → queue < (queueRange s.dev port).2 →
        ∃ d, exec (.ptpMessageSend t port queue since bytes) s = .next { s with dev := d } ∧ (copyOf d s.dev.nextCopy).out = bytes
          ∧ (copyOf d s.dev.nextCopy).port = port ∧ s.dev.nextCopy ∈ (queueOf d ((queueRange s.dev port).1 + queue)).copies
          ∧ (frameOf d s.dev.nextFrame).bytes = bytes ∧ (∀ k, k ≠ s.dev.nextFrame → frameOf d k = frameOf s.dev k) ∧ ({ d with counters := {}, tm := {}, frames := [], copies := [], nextFrame := 0, nextCopy := 0 } : Dev) = { now t s with counters := {}, tm := {}, frames := [], copies := [], nextFrame := 0, nextCopy := 0 }))

-- Parsing and tables ---------------------------------------------------------------------------------------------------------------------

/-- parse.load: a valid image becomes a Steward operation with its ticket, and the tables stay. parse.outcome sets the two actions of the Basins
it names, and the rate and burst of the parse punts. parse.info answers Basin 0's copies of both graphs and the Basins whose copies differ
from them, and nothing changes but that each of those is reported (the kind and the address of that report are the model's, log 111). The
frames name every part of the device that these commands can change.

table.define of a table without entries and operations sets its definition at once. A table.write that is in range becomes a Steward
operation with its ticket, and a write to a generation that is not drained ends ST_BUSY. table.swap takes its beat, at least two ahead, and
becomes an operation; the generation in use is still the same. table.sync becomes an operation; its response's beat number is the model's
choice (log 33). table.status answers the state of the tables and changes nothing. The frames name every part of the device that these
commands can change. -/
def Obligations.ParseAndTableCommandsComplete : Prop :=
  ((∀ (s : State) (c : Cmd) (b : List Byte), Takes s c 16 → refusedHere s.dev = false → u64 c.req 0 % 64 = 0 → 64 ≤ u32 c.req 8 → u32 c.req 8 ≤ 65600 →
      u32 c.req 12 = 0 → writable (begun 0x0501 c s.dev) = true → imageError (u64 c.req 0) (u32 c.req 8) (padTo (u32 c.req 8) b) = none →
      opVerdict s.dev 4 0 = stOk → s.dev.helm.open_.length < 1024 →
      ∃ d, exec (.parseLoad c (some b)) s = .next { s with dev := d } ∧ Answers d c stPending 8 (le 2 0 ++ le 4 s.dev.helm.nextTicket)
        ∧ d.steward.ops = s.dev.steward.ops ++ [{ id := s.dev.steward.nextOp, code := 4, ticket := s.dev.helm.nextTicket, fn := boxFn s.dev c.box,
                                                  req := c.req.take 16, host := padTo (u32 c.req 8) b, opcode := 0x0501, own := true }]
        ∧ d.tables = s.dev.tables ∧ ({ d with boxes := [], helm := {}, pair := {}, steward := {}, cascade := {}, tables := {}, out := [] } : Dev) = { now c.t s with boxes := [], helm := {}, pair := {}, steward := {}, cascade := {}, tables := {}, out := [] })
    ∧ (∀ (s : State) (c : Cmd), let b := u8 c.req 0
        Takes s c 12 → (b ≤ 7 ∨ b = 0xFF) → u8 c.req 1 ≤ 2 → u8 c.req 2 ≤ 2 → u8 c.req 3 = 0 → u32 c.req 4 ≤ 1000000 → 1 ≤ u16 c.req 8 → u16 c.req 8 ≤ 1024 →
        u16 c.req 10 = 0 →
        ∃ d, exec (.parseOutcome c) s = .next { s with dev := d } ∧ Answers d c stOk 4 [] ∧ d.tables.puntRate = u32 c.req 4 ∧ d.tables.puntBurst = u16 c.req 8
          ∧ (∀ k, k < 8 → b = 0xFF ∨ b = k → (basinState d k).malformed = u8 c.req 1 ∧ (basinState d k).truncated = u8 c.req 2)
          ∧ (∀ k, k < 8 → b ≠ 0xFF → b ≠ k → basinState d k = basinState s.dev k)
          ∧ d.tables = { s.dev.tables with puntRate := u32 c.req 4, puntBurst := u16 c.req 8, puntAt := (now c.t s).clock,
                                           puntTokens := d.tables.puntTokens, basins := d.tables.basins } ∧ ({ d with boxes := [], tables := {}, out := [] } : Dev) = { now c.t s with boxes := [], tables := {}, out := [] })
    ∧ (∀ (s : State) (c : Cmd), Takes s c 4 → u32 c.req 0 = 0 →
        ∃ d, exec (.parseInfo c) s = .next { s with dev := d }
          ∧ Answers d c stOk 84 (le 1 s.dev.tables.current ++ le 1 ((graphsApart s.dev).foldl (fun a b => a + 2 ^ b) 0)
              ++ graphInfo { graph := (graphCopy s.dev 0).1 } ++ graphInfo { graph := (graphCopy s.dev 0).2 })
          ∧ (graphsApart s.dev = [] → ({ d with boxes := [], out := [] } : Dev) = { now c.t s with boxes := [], out := [] }) ∧ ({ d with freeIdx := 0, boxes := [], coll := {}, out := [] } : Dev) = { now c.t s with freeIdx := 0, boxes := [], coll := {}, out := [] }))
  ∧ ((∀ (s : State) (c : Cmd), let q := c.req; let t := u8 q 0
      Takes s c 24 → refusedHere s.dev = false → t ≤ 15 → u8 q 1 ≠ 0 → u8 q 1 ≤ 2 → u8 q 2 ≤ 1 → 1 ≤ u8 q 3 → u8 q 3 ≤ (if u8 q 2 = 1 then 48 else 12) →
      1 ≤ u8 q 5 → u8 q 4 + u8 q 5 ≤ 64 → u16 q 6 = 0 → (∀ k < 16, k ≠ t → blocksOverlap (tableDef s.dev k) (u8 q 4) (u8 q 5) = false) →
      segmentsOk (slice q 8 8) = true → segmentsLen (slice q 8 8) ≤ u8 q 3 → tableUsed s.dev t = false →
      ∃ d, exec (.tableDefine c) s = .next { s with dev := d } ∧ Answers d c stOk 4 []
        ∧ tableDef d t = { kind := u8 q 1, wide := u8 q 2 == 1, keyBytes := u8 q 3, first := u8 q 4, count := u8 q 5, segments := slice q 8 8,
                           seed0 := u32 q 16, seed1 := u32 q 20 }
        ∧ (∀ k, k ≠ t → tableDef d k = tableDef s.dev k) ∧ d.tables = { s.dev.tables with defs := d.tables.defs } ∧ ({ d with boxes := [], helm := {}, pair := {}, steward := {}, cascade := {}, tables := {}, out := [] } : Dev) = { now c.t s with boxes := [], helm := {}, pair := {}, steward := {}, cascade := {}, tables := {}, out := [] })
    ∧ (∀ (s : State) (c : Cmd) (code key : Nat), Takes s c 192 → refusedHere s.dev = false → askWrite c.req (begun 0x0602 c s.dev) = .op code key →
        opVerdict s.dev code key = stOk → s.dev.helm.open_.length < 1024 →
        ∃ d, exec (.tableWrite c) s = .next { s with dev := d } ∧ Answers d c stPending 8 ([0, 0xFF] ++ le 4 s.dev.helm.nextTicket)
          ∧ d.steward.ops = s.dev.steward.ops ++ [{ id := s.dev.steward.nextOp, code, key, ticket := s.dev.helm.nextTicket, fn := boxFn s.dev c.box,
                                                    req := c.req.take 192, opcode := 0x0602, own := true }]
          ∧ d.tables = s.dev.tables ∧ ({ d with boxes := [], helm := {}, pair := {}, steward := {}, cascade := {}, tables := {}, out := [] } : Dev) = { now c.t s with boxes := [], helm := {}, pair := {}, steward := {}, cascade := {}, tables := {}, out := [] })
    ∧ (∀ (s : State) (c : Cmd), Takes s c 192 → refusedHere s.dev = false → writeOk s.dev c.req = true → u8 c.req 2 = 0 →
        writable (begun 0x0602 c s.dev) = false →
        ∃ d, exec (.tableWrite c) s = .next { s with dev := d } ∧ Answers d c stBusy 8 [0, 0xFF]
          ∧ ({ d with boxes := [], out := [] } : Dev) = { now c.t s with boxes := [], out := [] })
    ∧ (∀ (s : State) (c : Cmd), Takes s c 4 → refusedHere s.dev = false → u32 c.req 0 = 0 → s.dev.tables.swap = none →
        snapshotOut s.dev = false → (genOf s.dev (inactive s.dev)).incomplete = false → opVerdict s.dev 6 0 = stOk → s.dev.helm.open_.length < 1024 →
        let n := swapBeat (begun 0x0603 c s.dev)
        ∃ d, exec (.tableSwap c) s = .next { s with dev := d } ∧ Answers d c stPending 16 (le 2 0 ++ le 8 n ++ le 4 s.dev.helm.nextTicket)
          ∧ d.tables = { s.dev.tables with swap := some { op := s.dev.steward.nextOp, beat := n } }
          ∧ d.steward.ops = s.dev.steward.ops ++ [{ id := s.dev.steward.nextOp, code := 6, ticket := s.dev.helm.nextTicket, fn := boxFn s.dev c.box,
                                                    req := c.req.take 4, opcode := 0x0603, own := true, beat := n }]
          ∧ coreTicks (now c.t s).time.west / 4096 + 2 ≤ n ∧ ({ d with boxes := [], helm := {}, pair := {}, steward := {}, cascade := {}, tables := {}, out := [] } : Dev) = { now c.t s with boxes := [], helm := {}, pair := {}, steward := {}, cascade := {}, tables := {}, out := [] })
    ∧ (∀ (s : State) (c : Cmd), Takes s c 4 → refusedHere s.dev = false → u32 c.req 0 = 0 → writable (begun 0x0604 c s.dev) = true →
        opVerdict s.dev 7 0 = stOk → s.dev.helm.open_.length < 1024 →
        ∃ d, exec (.tableSync c) s = .next { s with dev := d } ∧ Answers d c stPending 16 (le 2 0 ++ le 8 0 ++ le 4 s.dev.helm.nextTicket)
          ∧ d.steward.ops = s.dev.steward.ops ++ [{ id := s.dev.steward.nextOp, code := 7, ticket := s.dev.helm.nextTicket, fn := boxFn s.dev c.box,
                                                    req := c.req.take 4, opcode := 0x0604, own := true }]
          ∧ d.tables = s.dev.tables ∧ ({ d with boxes := [], helm := {}, pair := {}, steward := {}, cascade := {}, tables := {}, out := [] } : Dev) = { now c.t s with boxes := [], helm := {}, pair := {}, steward := {}, cascade := {}, tables := {}, out := [] })
    ∧ (∀ (s : State) (c : Cmd), Takes s c 4 → u32 c.req 0 = 0 →
        let e := begun 0x0605 c s.dev
        let use := (List.range 16).map (emUse e)
        ∃ d, exec (.tableStatus c) s = .next { s with dev := d }
          ∧ Answers d c stOk 164 (le 1 e.tables.current ++ le 1 (b2n (inFlight e (inactive e) != 0)) ++ genDigest e 0 ++ genDigest e 1
              ++ use.flatMap (fun x => le 4 x.1) ++ use.flatMap (fun x => le 1 x.2) ++ le 4 (leaves e 1) ++ le 4 (leaves e 2)
              ++ le 4 (e.tables.genA.tcam.length + e.tables.genB.tcam.length) ++ le 4 e.tables.parityEvents)
          ∧ ({ d with boxes := [], out := [] } : Dev) = { now c.t s with boxes := [], out := [] }))

/-- SWAP_FLIP: once every Basin's counter has reached the beat of a swap whose beat has been sent to the Basins, the other generation is in use.
SWAP_DRAIN_DONE: once the old generation is drained the swap is over and its operation gone. TABLE_SCRUB_TIMER: a TCAM entry found bad in a
Basin that is awake is out of use there, counted, and no suspect. PARITY_REREAD, of a Basin that is awake: a suspect entry that passes is
used again; a programmed one that fails again is no suspect but out of use; a learned one's slot is cleared; and the re-read is no Steward
operation any more. The frames name every part of the device that these events can change. -/
def Obligations.TableEventsComplete : Prop :=  (∀ (s : State) (t : Nat) (x : Swap), s.dev.tables.swap = some x → x.flipped = false → x.pushed = true →
    beatReached (now t s) x.beat = true →
    ∃ d, exec (.swapFlip t) s = .next { s with dev := d } ∧ d.tables.current = 1 - s.dev.tables.current
      ∧ d.tables.swap = some { x with flipped := true } ∧ ({ d with tables := {} } : Dev) = { now t s with tables := {} })
  ∧ (∀ (s : State) (t : Nat) (x : Swap) (o : Op), s.dev.tables.swap = some x → x.flipped = true → swapOp s.dev = some o →
      drained (now t s) (inactive s.dev) = true →
      ∃ d, exec (.swapDrainDone t) s = .next { s with dev := d } ∧ d.tables = { s.dev.tables with swap := none }
        ∧ d.steward.ops = s.dev.steward.ops.filter (fun y => y.id != o.id) ∧ ({ d with fns := [], helm := {}, pair := {}, counters := {}, steward := {}, cascade := {}, tables := {}, out := [] } : Dev) = { now t s with fns := [], helm := {}, pair := {}, counters := {}, steward := {}, cascade := {}, tables := {}, out := [] })
  ∧ (∀ (s : State) (t b g i seg : Nat), b < 8 → i < 16384 → islandAwake s.dev (0x40 + b) = true →
      (tget none (genOf s.dev (g % 2)).tcam i).isSome = true → blockBusy s.dev (i / 1024) = false →
      ∃ d, exec (.tableScrubTimer t [(b, g, i, seg)]) s = .next { s with dev := d }
        ∧ d.tables.parityEvents = (s.dev.tables.parityEvents + 1) % 2 ^ 32 ∧ d.pair.scrubUncorr = s.dev.pair.scrubUncorr + 1
        ∧ (∃ e ∈ d.tables.bad, e.basin = b ∧ e.addr = tcamAddr (g % 2) i ∧ e.suspect = false)
        ∧ ({ d with tables := {}, pair := {}, coll := {} } : Dev) = { now t s with tables := {}, pair := {}, coll := {} })
  ∧ (∀ (s : State) (t basin addr : Nat), let a := entryAddr addr; let tb := a / 2 ^ 24 % 16
      let kept := s.dev.steward.ops.filter fun o => !(o.code == 0x0A && o.req == rereadReq basin a)
      islandAwake s.dev (0x40 + basin) = true → (s.dev.tables.bad.any fun e => e.basin == basin && e.addr == a && e.suspect) = true →
      (wordsFail (tableDef s.dev tb) (slotWords s.dev basin tb (a % 2 ^ 24)) = false →
        exec (.parityReread t basin addr false) s = .next { s with dev := { now t s with
          steward := { s.dev.steward with ops := kept }
          tables := { s.dev.tables with bad := s.dev.tables.bad.filter (fun e => !(e.basin == basin && e.addr == a && e.suspect)) } } })
      ∧ ((tableDef s.dev tb).kind ≠ 2 →
        ∃ d, exec (.parityReread t basin addr true) s = .next { s with dev := d } ∧ d.steward.ops = kept ∧ ({ d with tables := {}, steward := {} } : Dev) = { now t s with tables := {}, steward := {} }
          ∧ ∀ e ∈ d.tables.bad, e.basin = basin → e.addr = a → e.suspect = false)
      ∧ ((tableDef s.dev tb).kind = 2 → basin < 8 →
        ∃ d, exec (.parityReread t basin addr true) s = .next { s with dev := d } ∧ kept <+: d.steward.ops ∧ ({ d with tables := {}, steward := {} } : Dev) = { now t s with tables := {}, steward := {} }
          ∧ tget none (tget [] (basinState d basin).em tb) (a % 2 ^ 24) = none))

-- Actions and learning ---------------------------------------------------------------------------------------------------------------------

/-- action.write and mcast.write of entries in range become Steward operations with their tickets, and the tables stay. mirror.configure sets
one session. learn.configure sets a learned table's record, each field at its default where it is sent as 0, and REACH. learn.flush becomes
an operation. spec.configure sets DET_HEADER, at its default where it is sent as 0, and SPEC_OFF, for every frame whose capture is still to
come. The frames name every part of the device that these commands can change.

LEARN_RELEASE: the first request of a Basin, once its stamp plus REACH has come, goes to the Steward with its table's settings of that
moment. LEARN_ABANDON: a request still open REACH + 4 µs after its stamp is given up. AGE_SWEEP: a learned table's sweep is asked for once
AGE_TIME / 8 has passed. PIN_CHECK: in a Basin that is awake no pin stays beyond the HOLD_DOWN that it began with. The frames name every
part of the device that these events can change. -/
def Obligations.ActionsAndLearningComplete : Prop :=
  ((∀ (s : State) (c : Cmd), let size := if u8 c.req 0 = 0 then 32 else 128
      Takes s c 8 → refusedHere s.dev = false → u8 c.req 0 ≤ 1 → 1 ≤ u8 c.req 1 → u8 c.req 1 ≤ (if u8 c.req 0 = 0 then 120 else 30) → u16 c.req 2 = 0 →
      8 + size * u8 c.req 1 ≤ c.req.length → entryError s.dev c.req = none → writable (begun 0x0701 c s.dev) = true → opVerdict s.dev 3 0 = stOk →
      s.dev.helm.open_.length < 1024 →
      ∃ d, exec (.actionWrite c) s = .next { s with dev := d } ∧ Answers d c stPending 8 (le 2 0 ++ le 4 s.dev.helm.nextTicket)
        ∧ d.steward.ops = s.dev.steward.ops ++ [{ id := s.dev.steward.nextOp, code := 3, ticket := s.dev.helm.nextTicket, fn := boxFn s.dev c.box,
                                                  req := c.req, opcode := 0x0701, own := true }]
        ∧ d.tables = s.dev.tables ∧ ({ d with boxes := [], helm := {}, pair := {}, steward := {}, cascade := {}, tables := {}, out := [] } : Dev) = { now c.t s with boxes := [], helm := {}, pair := {}, steward := {}, cascade := {}, tables := {}, out := [] })
    ∧ (∀ (s : State) (c : Cmd) (b : List Byte), Takes s c 16 → refusedHere s.dev = false → u16 c.req 0 ≤ 32767 → u16 c.req 2 ≤ 512 → u32 c.req 4 = 0 →
        u64 c.req 8 % 8 = 0 → opVerdict s.dev 5 0 = stOk → s.dev.helm.open_.length < 1024 →
        ∃ d, exec (.mcastWrite c (some b)) s = .next { s with dev := d } ∧ Answers d c stPending 8 (le 2 0 ++ le 4 s.dev.helm.nextTicket)
          ∧ d.steward.ops = s.dev.steward.ops ++ [{ id := s.dev.steward.nextOp, code := 5, ticket := s.dev.helm.nextTicket, fn := boxFn s.dev c.box,
                                                    req := c.req.take 16, host := padTo (8 * u16 c.req 2) b, opcode := 0x0702, own := true }]
          ∧ d.tables = s.dev.tables ∧ ({ d with boxes := [], helm := {}, pair := {}, steward := {}, cascade := {}, tables := {}, out := [] } : Dev) = { now c.t s with boxes := [], helm := {}, pair := {}, steward := {}, cascade := {}, tables := {}, out := [] })
    ∧ (∀ (s : State) (c : Cmd), let q := c.req
        Takes s c 12 → u8 q 0 ≤ 7 → u8 q 1 ≤ 3 → portUnused s.dev (u16 q 2) = false → u16 q 4 ≤ 1023 → (u16 q 6 = 0 ∨ 64 ≤ u16 q 6 ∧ u16 q 6 ≤ 9216) →
        1 ≤ u32 q 8 → u32 q 8 ≤ 16777216 →
        ∃ d, exec (.mirrorConfigure c) s = .next { s with dev := d } ∧ Answers d c stOk 4 []
          ∧ tget {} d.tables.sessions (u8 q 0) = { enabled := bitOf (u8 q 1) 0, punt := bitOf (u8 q 1) 1, port := u16 q 2, queue := u16 q 4,
                                                    truncate := u16 q 6, sample := u32 q 8 }
          ∧ (∀ k, k ≠ u8 q 0 → tget {} d.tables.sessions k = tget {} s.dev.tables.sessions k)
          ∧ d.tables = { s.dev.tables with sessions := d.tables.sessions } ∧ ({ d with boxes := [], tables := {}, out := [] } : Dev) = { now c.t s with boxes := [], tables := {}, out := [] })
    ∧ (∀ (s : State) (c : Cmd), let q := c.req; let t := u8 q 0; let segs := slice q 4 8; let reach := if u32 q 28 = 0 then 2000 else u32 q 28
        Takes s c 32 → t ≤ 15 → (tableDef s.dev t).kind = 2 → (u16 q 2 = 0xFFFF ∨ u16 q 2 ≤ 94) → segmentsOk segs = true →
        segmentsLen segs = (tableDef s.dev t).keyBytes → u32 q 12 ≤ 65535 → templateBad s.dev.tables.genA (u32 q 12) = false →
        templateBad s.dev.tables.genB (u32 q 12) = false → u16 q 16 + 4095 ≤ 32767 → u16 q 18 ≤ 3600 → (u32 q 20 = 0 ∨ 8 ≤ u32 q 20 ∧ u32 q 20 ≤ 1000000) →
        u32 q 24 ≤ 60000 → 500 ≤ reach → reach ≤ 20000 → minReach (begun 0x0704 c s.dev) ≤ reach →
        segs = (learnOf s.dev t).segments ∨ learnedUsed s.dev t = false →
        ∃ d, exec (.learnConfigure c) s = .next { s with dev := d } ∧ Answers d c stOk 8 (le 2 0 ++ le 4 reach) ∧ d.tables.reach = reach
          ∧ learnOf d t = { learnOf s.dev t with
              moveLimit := if u8 q 1 = 0 then 4 else u8 q 1, vidSrc := u16 q 2, segments := segs, template := u32 q 12, floodBase := u16 q 16,
              holdDown := if u16 q 18 = 0 then 30 else u16 q 18, ageTime := if u32 q 20 = 0 then 300 else u32 q 20,
              moveWindow := if u32 q 24 = 0 then 1000 else u32 q 24 }
          ∧ (∀ k, k ≠ t → learnOf d k = learnOf s.dev k) ∧ d.tables = { s.dev.tables with reach, learn := d.tables.learn } ∧ ({ d with boxes := [], tables := {}, out := [] } : Dev) = { now c.t s with boxes := [], tables := {}, out := [] })
    ∧ (∀ (s : State) (c : Cmd), Takes s c 4 → u8 c.req 0 ≤ 15 → (tableDef s.dev (u8 c.req 0)).kind = 2 → (portUnused s.dev (u16 c.req 2) = false ∨ u16 c.req 2 = 0xFFFF) →
        opVerdict s.dev 9 (u8 c.req 0 + 1) = stOk → s.dev.helm.open_.length < 1024 →
        ∃ d, exec (.learnFlush c) s = .next { s with dev := d } ∧ Answers d c stPending 8 (le 2 0 ++ le 4 s.dev.helm.nextTicket)
          ∧ d.steward.ops = s.dev.steward.ops ++ [{ id := s.dev.steward.nextOp, code := 9, key := u8 c.req 0 + 1, ticket := s.dev.helm.nextTicket,
                                                    fn := boxFn s.dev c.box, req := c.req }]
          ∧ ({ d with boxes := [], helm := {}, steward := {}, out := [] } : Dev) = { now c.t s with boxes := [], helm := {}, steward := {}, out := [] })
    ∧ (∀ (s : State) (c : Cmd), let h := if u16 c.req 0 = 0 then 64 else u16 c.req 0
        Takes s c 4 → 64 ≤ h → h ≤ 256 → h % 16 = 0 → u8 c.req 2 ≤ 1 → u8 c.req 3 = 0 →
        ∃ d, exec (.specConfigure c) s = .next { s with dev := d } ∧ Answers d c stOk 4 [] ∧ d.spec = { detHeader := h, off := u8 c.req 2 == 1 }
          ∧ d.frames = s.dev.frames.map (fun e => (e.1, if decide ((now c.t s).clock < e.2.capAt) && e.2.pass = 1 then
              { e.2 with detHeader := h, specOff := u8 c.req 2 == 1 } else e.2))
          ∧ ({ d with boxes := [], spec := {}, frames := [], out := [] } : Dev) = { now c.t s with boxes := [], spec := {}, frames := [], out := [] }))
  ∧ ((∀ (s : State) (t basin : Nat) (r : LearnReq) (rest : List LearnReq), (basinState s.dev basin).queue = r :: rest → r.released = false →
      r.ticks + 16 * s.dev.tables.reach ≤ basinTicks (now t s) basin → opVerdict s.dev 8 (r.table + 1) = stOk →
      ∃ d, exec (.learnRelease t basin) s = .next { s with dev := d } 
        ∧ (basinState d basin).queue = { r with released := true, cfg := learnOf s.dev r.table } :: rest
        ∧ d.steward.ops = s.dev.steward.ops ++ [{ id := s.dev.steward.nextOp, code := 8, key := r.table + 1, req := le 1 basin }]
        ∧ ({ d with tables := {}, steward := {} } : Dev) = { now t s with tables := {}, steward := {} })
    ∧ (∀ (s : State) (t basin : Nat), ∃ d, exec (.learnAbandon t basin) s = .next { s with dev := d }
        ∧ (basinState d basin).queue
          = (basinState s.dev basin).queue.filter (fun r => decide (basinTicks (now t s) basin < r.ticks + 16 * s.dev.tables.reach + 64000))
        ∧ (∀ k, k ≠ basin → (basinState d k).queue = (basinState s.dev k).queue) ∧ ({ d with counters := {}, frames := [], copies := [], tables := {} } : Dev) = { now t s with counters := {}, frames := [], copies := [], tables := {} })
    ∧ (∀ (s : State) (t table : Nat), (tableDef s.dev table).kind = 2 →
        (learnOf s.dev table).sweptAt + (learnOf s.dev table).ageTime * 2000000000 ≤ (now t s).clock → opVerdict s.dev 9 (table + 1) = stOk →
        ∃ d, exec (.ageSweep t table) s = .next { s with dev := d } ∧ learnOf d table = { learnOf s.dev table with sweptAt := (now t s).clock }
          ∧ d.steward.ops = s.dev.steward.ops ++ [{ id := s.dev.steward.nextOp, code := 9, key := table + 1 }]
          ∧ ({ d with tables := {}, steward := {} } : Dev) = { now t s with tables := {}, steward := {} })
    ∧ (∀ (s : State) (t : Nat), ∃ d, exec (.pinCheck t) s = .next { s with dev := d }
        ∧ (∀ b < 8, islandAwake s.dev (0x40 + b) = true → ∀ k ∈ (basinState d b).tracker, ∀ a, k.pinnedAt = some a →
            (now t s).clock < a + k.holdDown * 16000000000)
        ∧ ({ d with fns := [], counters := {}, steward := {}, tables := {} } : Dev) = { now t s with fns := [], counters := {}, steward := {}, tables := {} }))

-- The traffic manager ------------------------------------------------------------------------------------------------------------------------

/-- queue.allocate gives a disabled Port its range, at the base it names or the lowest free one of its die, and the queues of the new range and
of the old one the defaults of R222; their histograms are kept, and the class group of a queue whose own group has moved is the model's
choice (log 101). What those queues had as MIN_CELLS is free again. queue.free gives the queues of its range that belong to a Port their
defaults back and takes them from the Port: a Port all of whose queues lie in the range has none left. queue.configure, group.configure and
shaper.set set one queue, class group or shaper, a shaper's credit being kept as R230 says. buffer.configure sets a die's GUARD_CELLS and
answers HEADROOM and the shared part's new size. Every other queue, class group and scheduler stays as it was, and nothing of the device but
the traffic manager and the mailbox changes. -/
def Obligations.QueueCommandsComplete : Prop :=  (∀ (s : State) (c : Cmd) (b : Nat), let p := u16 c.req 0; let n := u16 c.req 2; let base := u32 c.req 4
    Takes s c 8 → portUnused s.dev p = false → 8 ≤ n → n ≤ 1024 → n % 8 = 0 →
    (base = 0xFFFFFFFF ∨ base % 8 = 0 ∧ dieOf p * 32768 ≤ base ∧ base + n ≤ dieOf p * 32768 + 32768) → (portOf s.dev p).state = 0 →
    (∀ q ∈ portQueues s.dev p, queueHolds s.dev q = false) → chooseBase s.dev p n base = some b →
    ∃ d, exec (.queueAllocate c) s = .next { s with dev := d } ∧ Answers d c stOk 8 (le 2 0 ++ le 4 b) ∧ schedOf d p = { schedOf s.dev p with range := some (b, n), freed := [] }
      ∧ (base ≠ 0xFFFFFFFF → b = base) ∧ rangeFree s.dev p b n = true
      ∧ (base = 0xFFFFFFFF → b % 8 = 0 ∧ dieOf p * 32768 ≤ b ∧ b + n ≤ dieOf p * 32768 + 32768
          ∧ ∀ e, dieOf p * 32768 ≤ e → e < b → e % 8 = 0 → rangeFree s.dev p e n = false)
      ∧ (∀ q ∈ portQueues s.dev p, q < b ∨ b + n ≤ q → queueOf d q = plainQueue (queueOf s.dev q))
      ∧ (∀ q, q ∉ portQueues s.dev p → q < b ∨ b + n ≤ q → queueOf d q = queueOf s.dev q)
      ∧ d.tm.mins = s.dev.tm.mins - ((portQueues s.dev p ++ (List.range n).map (b + ·)).eraseDups.map fun q => (queueOf s.dev q).minCells).sum
      ∧ (∀ k < n, queueOf d (b + k) = { plainQueue (queueOf s.dev (b + k)) with
          group := if groupFor s.dev p k = p * 16 + k / 8 % 16 then none else some (groupFor s.dev p k) })
      ∧ (∀ k, k ≠ p → schedOf d k = schedOf s.dev k)
      ∧ d.tm = { s.dev.tm with queues := d.tm.queues, scheds := d.tm.scheds, mins := d.tm.mins } ∧ ({ d with boxes := [], tm := {}, out := [] } : Dev) = { now c.t s with boxes := [], tm := {}, out := [] })
  ∧ (∀ (s : State) (c : Cmd), let b := u32 c.req 0; let n := u16 c.req 4
      let inside := fun (p : Nat) => (portQueues s.dev p).all fun x => decide (b ≤ x) && decide (x < b + n)
      Takes s c 8 → b + n ≤ 65536 → u16 c.req 6 = 0 → (∀ k < n, queueHolds s.dev (b + k) = false) →
      (∀ k < n, ∀ p, queuePort s.dev (b + k) = some p → (portOf s.dev p).state = 0 ∧ (portUnused s.dev p = true ∨ inside p = true)) →
      ∃ d, exec (.queueFree c) s = .next { s with dev := d } ∧ Answers d c stOk 4 []
        ∧ (∀ k < n, ∀ p, queuePort s.dev (b + k) = some p → queueOf d (b + k) = plainQueue (queueOf s.dev (b + k))
            ∧ schedOf d p = (if inside p then { schedOf s.dev p with range := some (0, 0), freed := [] }
                else { schedOf s.dev p with range := some (queueRange s.dev p), freed := (schedOf s.dev p).freed ++ [(b, n)] }))
        ∧ (∀ q, (∀ k < n, q = b + k → queuePort s.dev q = none) → queueOf d q = queueOf s.dev q)
        ∧ (∀ p, (∀ k < n, queuePort s.dev (b + k) ≠ some p) → schedOf d p = schedOf s.dev p)
        ∧ d.tm.mins = s.dev.tm.mins - ((((List.range n).map (b + ·)).filter fun q => (queuePort s.dev q).isSome).map fun q => (queueOf s.dev q).minCells).sum
        ∧ d.tm = { s.dev.tm with queues := d.tm.queues, scheds := d.tm.scheds, mins := d.tm.mins } ∧ ({ d with boxes := [], tm := {}, out := [] } : Dev) = { now c.t s with boxes := [], tm := {}, out := [] })
  ∧ (∀ (s : State) (c : Cmd) (p : Nat), let q := c.req; let n := u32 q 0; let g := u16 q 4; let x := queueOf s.dev n
      let more : Int := (u16 q 10 : Int) - x.minCells
      Takes s c 16 → queuePort s.dev n = some p → g ≤ 8191 → groupPort s.dev g = p → u8 q 6 ≤ 7 → u8 q 7 ≤ 7 → u16 q 8 ≠ 0 → u16 q 10 ≤ 4095 →
      u8 q 12 ≤ 11 → leAt q 13 3 = 0 → (g = queueGroup s.dev n ∨ x.copies = []) →
      (more ≤ 0 ∨ floorKept s.dev 0 more = true ∧ floorKept s.dev 1 more = true) →
      ∃ d, exec (.queueConfigure c) s = .next { s with dev := d } ∧ Answers d c stOk 4 []
        ∧ queueOf d n = { x with group := some g, band := u8 q 6, gate := some (u8 q 7), weight := u16 q 8, minCells := u16 q 10, alpha := u8 q 12 }
        ∧ (∀ k, k ≠ n → queueOf d k = queueOf s.dev k) ∧ d.tm = { s.dev.tm with queues := d.tm.queues, mins := (s.dev.tm.mins + more).toNat } ∧ ({ d with boxes := [], tm := {}, out := [] } : Dev) = { now c.t s with boxes := [], tm := {}, out := [] })
  ∧ (∀ (s : State) (c : Cmd), let q := c.req; let g := u16 q 0; let p := u16 q 2
      Takes s c 8 → g ≤ 8191 → portUnused s.dev p = false → dieOf p = g / 4096 → u8 q 4 ≤ 7 → u8 q 5 = 0 → u16 q 6 ≠ 0 →
      (p = groupPort s.dev g ∨ ∀ x ∈ portQueues s.dev (groupPort s.dev g), queueGroup s.dev x ≠ g) →
      ∃ d, exec (.groupConfigure c) s = .next { s with dev := d } ∧ Answers d c stOk 4 []
        ∧ groupOf d g = { groupOf s.dev g with port := some p, band := u8 q 4, weight := u16 q 6 } ∧ (∀ k, k ≠ g → groupOf d k = groupOf s.dev k)
        ∧ d.tm = { s.dev.tm with groups := d.tm.groups } ∧ ({ d with boxes := [], tm := {}, out := [] } : Dev) = { now c.t s with boxes := [], tm := {}, out := [] })
  ∧ (∀ (s : State) (c : Cmd), let q := c.req; let i := u16 q 2; let rate := u32 q 4; let burst := u32 q 8
      Takes s c 12 → u8 q 0 ≤ 2 → u8 q 1 = 0 → (u8 q 0 = 1 → i ≤ 8191) → (u8 q 0 = 2 → portUnused s.dev i = false) → rate % 8 = 0 → rate ≤ 800000000 →
      burst ≤ 16777215 →
      ∃ d, exec (.shaperSet c) s = .next { s with dev := d } ∧ Answers d c stOk 4 []
        ∧ (u8 q 0 = 0 → queueOf d i = { queueOf s.dev i with shaper := (queueOf s.dev i).shaper.set (now c.t s).clock rate burst }
            ∧ (∀ k, k ≠ i → queueOf d k = queueOf s.dev k) ∧ d.tm = { s.dev.tm with queues := d.tm.queues })
        ∧ (u8 q 0 = 1 → groupOf d i = { groupOf s.dev i with shaper := (groupOf s.dev i).shaper.set (now c.t s).clock rate burst }
            ∧ (∀ k, k ≠ i → groupOf d k = groupOf s.dev k) ∧ d.tm = { s.dev.tm with groups := d.tm.groups })
        ∧ (u8 q 0 = 2 → schedOf d i = { schedOf s.dev i with shaper := (schedOf s.dev i).shaper.set (now c.t s).clock rate burst }
            ∧ (∀ k, k ≠ i → schedOf d k = schedOf s.dev k) ∧ d.tm = { s.dev.tm with scheds := d.tm.scheds })
        ∧ ({ d with boxes := [], tm := {}, out := [] } : Dev) = { now c.t s with boxes := [], tm := {}, out := [] })
  ∧ (∀ (s : State) (c : Cmd), let die := u8 c.req 0; let n := if u32 c.req 4 = 0 then 16384 else u32 c.req 4
      Takes s c 8 → die ≤ 1 → leAt c.req 1 3 = 0 → 1024 ≤ n → n ≤ 131072 → guardUsed (begun 0x0906 c s.dev) die ≤ n →
      floorKept s.dev die ((n : Int) - guardCells s.dev die) = true →
      ∃ d, exec (.bufferConfigure c) s = .next { s with dev := d } ∧ guardCells d die = n ∧ guardCells d (1 - die) = guardCells s.dev (1 - die)
        ∧ Answers d c stOk 12 (le 2 0 ++ le 4 (headroom s.dev die) ++ le 4 (sharedCells s.dev die + guardCells s.dev die - n).toNat)
        ∧ d.tm = { s.dev.tm with guardWest := d.tm.guardWest, guardEast := d.tm.guardEast } ∧ ({ d with boxes := [], tm := {}, out := [] } : Dev) = { now c.t s with boxes := [], tm := {}, out := [] })

/-- policer.configure sets one policer; its buckets are full where the mode changes, and else cut to the new bursts. gate.list waits for its
base, or, where that is not 2 µs ahead, for the first later instant that is a multiple of its cycle from it and 2 µs ahead, with
ST_ADVANCED; the list in force stays. sample.configure sets the sampling, and a change of either unit clears every histogram and the count
of closed samples. queue.histogram answers a queue's two histograms, and with CLEAR starts them again. Nothing of the device but the traffic
manager and the mailbox changes.

GATE_CHANGE: the gates of a Port take the states of its list in force at the MDI plane's time, or all open without one. GATE_LIST_START: a
pending list takes over at its start. SAMPLE_INSTANT: once for each multiple of 16,384 ticks, by its own device time, each die's traffic
manager samples every queue of its die that copies reference: the first of the two opens the instant's sample, and the other adds its queues
to it. SAMPLE_CLOSE: the oldest sample closes once both are 16.384 µs past its instant. The frames name every part of the device that these
events can change. -/
def Obligations.PolicersGatesSamplesComplete : Prop :=
  ((∀ (s : State) (c : Cmd), let q := c.req; let old := tget ({} : Policer) s.dev.tm.policers (u16 q 0)
      Takes s c 20 → u16 q 0 ≤ 32767 → u8 q 2 ≤ 2 → u8 q 3 ≤ 1 → 8 ≤ u32 q 4 → u32 q 4 ≤ u32 q 8 → u32 q 8 ≤ 800000000 → 64 ≤ u32 q 12 →
      u32 q 12 ≤ 16777215 → 64 ≤ u32 q 16 → u32 q 16 ≤ 16777215 →
      ∃ d, let x := tget ({} : Policer) d.tm.policers (u16 q 0)
        exec (.policerConfigure c) s = .next { s with dev := d } ∧ Answers d c stOk 4 [] ∧ x.mode = u8 q 2 ∧ x.src = u8 q 3 ∧ x.cir = u32 q 4
          ∧ x.pir = u32 q 8 ∧ x.cbs = u32 q 12 ∧ x.pbs = u32 q 16
          ∧ (old.mode ≠ u8 q 2 → x.tc = u32 q 12 * creditByte ∧ x.tp = u32 q 16 * creditByte)
          ∧ (old.mode = u8 q 2 → x.tc = min (old.now (now c.t s).clock).tc (u32 q 12 * creditByte)
              ∧ x.tp = min (old.now (now c.t s).clock).tp (u32 q 16 * creditByte))
          ∧ (∀ k, k ≠ u16 q 0 → tget ({} : Policer) d.tm.policers k = tget {} s.dev.tm.policers k)
          ∧ d.tm = { s.dev.tm with policers := d.tm.policers } ∧ ({ d with boxes := [], tm := {}, out := [] } : Dev) = { now c.t s with boxes := [], tm := {}, out := [] })
    ∧ (∀ (s : State) (c : Cmd), let q := c.req; let p := u16 q 0; let n := u16 q 2; let base := u64 q 8; let cycle := u32 q 16
        let es := (List.range n).map fun k => (u8 q (24 + 8 * k), u32 q (28 + 8 * k))
        let at_ := portTicks (now c.t s) p
        Takes s c 24 → portUnused s.dev p = false → n ≤ 256 → u32 q 4 = 0 → 1000 ≤ cycle → cycle ≤ 1000000000 → u32 q 20 = 0 → 24 + 8 * n ≤ q.length →
        (∀ k < n, 8 ≤ u32 q (28 + 8 * k) ∧ u32 q (28 + 8 * k) ≤ 1000000000 ∧ leAt q (25 + 8 * k) 3 = 0) →
        ∃ d start, exec (.gateList c) s = .next { s with dev := d } ∧ schedOf d p = { schedOf s.dev p with pendGates := some { start, cycle, entries := es } }
          ∧ Answers d c (if at_ + 32000 ≤ base then stOk else stAdvanced) 24 (le 6 0 ++ le 8 start ++ le 8 at_)
          ∧ (at_ + 32000 ≤ base → start = base)
          ∧ (base < at_ + 32000 → at_ + 32000 ≤ start ∧ start < at_ + 32000 + 16 * cycle ∧ (start - base) % (16 * cycle) = 0)
          ∧ (∀ k, k ≠ p → schedOf d k = schedOf s.dev k) ∧ d.tm = { s.dev.tm with scheds := d.tm.scheds } ∧ ({ d with boxes := [], tm := {}, out := [] } : Dev) = { now c.t s with boxes := [], tm := {}, out := [] })
    ∧ (∀ (s : State) (c : Cmd), let q := c.req; let n := u16 q 8; let m := s.dev.tm.sampling
        Takes s c 12 → nameable s.dev (boxFn s.dev c.box) (u16 q 0) m.ring = true → 6 ≤ u8 q 2 → u8 q 2 ≤ 16 → u8 q 3 ≤ 16 → 1 ≤ u32 q 4 →
        u32 q 4 ≤ 1000000 → n ≤ 1024 → u16 q 10 = 0 → 12 + 2 * n ≤ q.length → n * 1000 ≤ 16384 * u32 q 4 →
        ∃ d, exec (.sampleConfigure c) s = .next { s with dev := d } ∧ Answers d c stOk 4 [] ∧ d.tm.sampling.ring = ringName (u16 q 0)
          ∧ d.tm.sampling.depthLog = u8 q 2 ∧ d.tm.sampling.sojournLog = u8 q 3 ∧ d.tm.sampling.period = u32 q 4
          ∧ d.tm.sampling.watched = (List.range n).map (fun k => u16 q (12 + 2 * k))
          ∧ (m.depthLog ≠ u8 q 2 ∨ m.sojournLog ≠ u8 q 3 → d.tm.sampling.closed = 0
              ∧ d.tm.queues = s.dev.tm.queues.map fun e => (e.1, { e.2 with depth := [], sojourn := [], depthHits := 0, sojournHits := 0, histBase := 0 }))
          ∧ (m.depthLog = u8 q 2 → m.sojournLog = u8 q 3 → d.tm.queues = s.dev.tm.queues ∧ d.tm.sampling.closed = m.closed)
          ∧ d.tm.sampling.open_ = m.open_ ∧ d.tm.sampling.out = m.out
          ∧ d.tm = { s.dev.tm with sampling := d.tm.sampling, queues := d.tm.queues } ∧ ({ d with boxes := [], tm := {}, out := [] } : Dev) = { now c.t s with boxes := [], tm := {}, out := [] })
    ∧ (∀ (s : State) (c : Cmd), let n := u32 c.req 0; let x := queueOf s.dev n; let k := s.dev.tm.sampling.closed
        Takes s c 8 → n ≤ 65535 → u8 c.req 4 ≤ 1 → leAt c.req 5 3 = 0 →
        ∃ d, exec (.queueHistogram c) s = .next { s with dev := d }
          ∧ Answers d c stOk 132 (le 2 0 ++ bins k x.histBase x.depthHits x.depth ++ bins k x.histBase x.sojournHits x.sojourn)
          ∧ (u8 c.req 4 = 0 → d.tm = s.dev.tm)
          ∧ (u8 c.req 4 = 1 → queueOf d n = { x with depth := [], sojourn := [], depthHits := 0, sojournHits := 0, histBase := k }
              ∧ (∀ j, j ≠ n → queueOf d j = queueOf s.dev j) ∧ d.tm = { s.dev.tm with queues := d.tm.queues }) ∧ ({ d with boxes := [], tm := {}, out := [] } : Dev) = { now c.t s with boxes := [], tm := {}, out := [] }))
  ∧ ((∀ (s : State) (t port : Nat), ∃ d, exec (.gateChange t port) s = .next { s with dev := d }
      ∧ (schedOf d port).states = (match (schedOf s.dev port).gates with | some l => gateStates l (gateTicks (now t s) port) | none => 0xFF)
      ∧ (schedOf d port).gates = (schedOf s.dev port).gates ∧ ({ d with counters := {}, tm := {}, frames := [], copies := [] } : Dev) = { now t s with counters := {}, tm := {}, frames := [], copies := [] })
    ∧ (∀ (s : State) (t port : Nat) (l : GateList), (schedOf s.dev port).pendGates = some l → l.start ≤ gateTicks (now t s) port →
        ∃ d, exec (.gateListStart t port) s = .next { s with dev := d } ∧ (schedOf d port).gates = (if l.entries.isEmpty then none else some l)
          ∧ (schedOf d port).pendGates = none
          ∧ (schedOf d port).states = (if l.entries.isEmpty then 0xFF else gateStates l (gateTicks (now t s) port)) ∧ ({ d with counters := {}, tm := {}, frames := [], copies := [] } : Dev) = { now t s with counters := {}, tm := {}, frames := [], copies := [] })
    ∧ (∀ (s : State) (t : Nat), let m := s.dev.tm.sampling; let at_ := sampleTick (now t s) 0
        at_ ≠ m.sampledAt → sampleTick (now t s) 1 = at_ → at_ ≠ m.sampledEast → (∀ x ∈ m.open_, x.at_ ≠ at_) →
        ∃ d x, exec (.sampleInstant t) s = .next { s with dev := d }
          ∧ d = { now t s with tm := { s.dev.tm with sampling := { m with
                    sampledAt := at_, sampledEast := at_, since := d.tm.sampling.since, open_ := m.open_ ++ [x] } } }
          ∧ x.at_ = at_ ∧ (∀ e ∈ s.dev.copies, e.2.state < 3 → e.2.queue < 65536 → e.2.queue ∈ x.queues.map (·.queue))
          ∧ (∀ y ∈ x.queues, y = sampleQueue (now t s) y.queue))
    ∧ (∀ (s : State) (t : Nat), let m := s.dev.tm.sampling; let at_ := sampleTick (now t s) 1
        sampleTick (now t s) 0 = m.sampledAt → at_ ≠ m.sampledEast → (m.open_.any fun x => x.at_ == at_) = true →
        exec (.sampleInstant t) s = .next { s with dev := { now t s with tm := { s.dev.tm with sampling := { m with
            sampledEast := at_
            open_ := m.open_.map fun x => if x.at_ = at_ then { x with queues := x.queues ++ sampledQueues (now t s) 1 x.watched } else x } } } })
    ∧ (∀ (s : State) (t : Nat) (x : Sample) (rest : List Sample), s.dev.tm.sampling.open_ = x :: rest → x.at_ + 262144 ≤ tmTicks (now t s) 0 →
        x.at_ + 262144 ≤ tmTicks (now t s) 1 →
        ∃ d, exec (.sampleClose t) s = .next { s with dev := d } ∧ d.tm.sampling.open_ = rest
          ∧ d.tm.sampling.closed = s.dev.tm.sampling.closed + 1
          ∧ d.tm = { s.dev.tm with queues := d.tm.queues, sampling := d.tm.sampling } ∧ ({ d with tm := {} } : Dev) = { now t s with tm := {} }))

/-- confluence.configure of a window that is not below W_MIN sets a Confluence group, which is then not UNSAFE. confluence.member adds or
removes a member with its offset, and marks the group UNSAFE where its window is below W_MIN. level.configure sets a Level Release group,
with its list from host memory, and keeps both its reaches. release.status answers a group's record and changes nothing. The first three are
of a unit that sends. The frames name every part of the device that these commands can change. -/
def Obligations.ReleaseCommandsComplete : Prop :=  (∀ (s : State) (c : Cmd), let q := c.req; let g := u8 q 0; let x := confOf s.dev g
    let y : ConfGroup := { x with enabled := bitOf (u8 q 1) 0, recirc := bitOf (u8 q 1) 1, port := u16 q 2, queue := u16 q 4, window := u16 q 6 }
    Takes s c 8 → sendingUnit s.dev = true → g ≤ 63 → u8 q 1 ≤ 3 → portUnused s.dev (u16 q 2) = false → u16 q 4 < (queueRange s.dev (u16 q 2)).2 →
    40 ≤ u16 q 6 → u16 q 6 ≤ 2000 → (x.enabled = true → u16 q 2 = x.port ∧ u16 q 4 = x.queue) → confMin s.dev y ≤ u16 q 6 →
    ∃ d, exec (.confluenceConfigure c) s = .next { s with dev := d } ∧ Answers d c stOk 4 (le 2 (confMin s.dev y))
      ∧ confOf d g = { y with unsafe_ := false, held := (confOf d g).held } ∧ (∀ k, k ≠ g → confOf d k = confOf s.dev k)
      ∧ ({ d with boxes := [], pair := {}, tm := {}, copies := [], release := {}, out := [] } : Dev) = { now c.t s with boxes := [], pair := {}, tm := {}, copies := [], release := {}, out := [] })
  ∧ (∀ (s : State) (c : Cmd), let q := c.req; let g := u8 q 0; let p := u16 q 2; let o := signed 16 (u16 q 4); let x := confOf s.dev g
      let rest := x.members.filter (fun m => m.1 != p)
      let y : ConfGroup := { x with members := if u8 q 1 = 0 then rest ++ [(p, o)] else rest }
      Takes s c 8 → sendingUnit s.dev = true → g ≤ 63 → u8 q 1 ≤ 1 → portUnused s.dev p = false → -8000 ≤ o → o ≤ 8000 → u8 q 6 ≤ 1 → u8 q 7 = 0 →
      (u8 q 1 = 0 → u8 q 6 = 0 → confMin s.dev y ≤ x.window) →
      ∃ d, exec (.confluenceMember c) s = .next { s with dev := d } ∧ Answers d c stOk 4 (le 2 (confMin s.dev y)) ∧ confOf d g = { y with unsafe_ := decide (x.window < confMin s.dev y), earlier := (confOf d g).earlier }
        ∧ (∀ k, k ≠ g → confOf d k = confOf s.dev k) ∧ ({ d with boxes := [], fns := [], pair := {}, counters := {}, release := {}, out := [] } : Dev) = { now c.t s with boxes := [], fns := [], pair := {}, counters := {}, release := {}, out := [] })
  ∧ (∀ (s : State) (c : Cmd) (host : Option (List Byte)) (b : List Byte), let q := c.req; let g := u8 q 0; let es := levelEntries b (u16 q 4)
      Takes s c 16 → (host = some b ∨ u16 q 4 = 0 ∧ b = []) → sendingUnit s.dev = true → u8 q 1 ≤ 1 → 20 ≤ u16 q 2 → u16 q 2 ≤ 2000 → u16 q 4 ≤ 512 → u16 q 6 = 0 → u64 q 8 % 4 = 0 →
      (es.map (·.1)).eraseDups.length = u16 q 4 → (∀ e ∈ es, portUnused s.dev e.1 = false ∧ -8000 ≤ e.2 ∧ e.2 ≤ 8000) →
      ∃ d, exec (.levelConfigure c host) s = .next { s with dev := d }
        ∧ levelOf d g = { levelOf s.dev g with enabled := bitOf (u8 q 1) 0, margin := u16 q 2, members := es, reachW := groupReach s.dev (levelOf d g) 0,
                                               reachE := groupReach s.dev (levelOf d g) 1 }
        ∧ Answers d c stOk 12 (le 2 0 ++ le 4 (unsigned 32 (levelOf d g).reachW) ++ le 4 (unsigned 32 (levelOf d g).reachE))
        ∧ (∀ k, k ≠ g → levelOf d k = levelOf s.dev k) ∧ ({ d with boxes := [], pair := {}, copies := [], release := {}, out := [] } : Dev) = { now c.t s with boxes := [], pair := {}, copies := [], release := {}, out := [] })
  ∧ (∀ (s : State) (c : Cmd), let g := u8 c.req 1
      Takes s c 4 → u16 c.req 2 = 0 →
      (u8 c.req 0 = 0 → g ≤ 63 → let x := confOf s.dev g
        ∃ d, exec (.releaseStatus c) s = .next { s with dev := d } ∧ Answers d c stOk 24 (le 1 (b2n x.enabled + 2 * b2n x.unsafe_) ++ le 1 0
            ++ le 4 x.held.length ++ le 4 (confMin s.dev x) ++ le 4 0 ++ le 8 x.late)
          ∧ ({ d with boxes := [], out := [] } : Dev) = { now c.t s with boxes := [], out := [] })
      ∧ (u8 c.req 0 = 1 → let x := levelOf s.dev g
        ∃ d, exec (.releaseStatus c) s = .next { s with dev := d } ∧ Answers d c stOk 24 (le 1 (b2n x.enabled) ++ le 1 0
            ++ le 4 (levelHeld s.dev g).length ++ le 4 (unsigned 32 x.reachW) ++ le 4 (unsigned 32 x.reachE) ++ le 8 x.unequal)
          ∧ ({ d with boxes := [], out := [] } : Dev) = { now c.t s with boxes := [], out := [] }))

/-- CONF_RELEASE: the copy that a Confluence group may release next goes to its queue. LR_ELIGIBLE: from 14 ns before its launch tick a held
Level Release copy with its verdict is eligible, and UNEQUAL where that tick has passed. LR_LAUNCH: at the start position nearest its launch
tick (log 89) an eligible copy that can start and heads its queue, on a Port that is granted to no cut-through copy, starts, and one that
cannot is UNEQUAL. DET_LAUNCH: a copy starts at its launch tick or as soon after as it can; one that was granted the Port yields to no
other. MEMBER_ELIGIBLE: every queue of the Port is marked eligible or not. PORT_SELECTION: the head of the queue that the scheduler chooses
starts on a free Port. A copy that starts is TRANSMITTING, its Port sends it, and its egress stamp is the tick at which it starts, referred
to the MDI plane; one that may not leave there is not meant (`permitted`). The frames name every part of the device that these events can
change. -/
def Obligations.LaunchEventsComplete : Prop :=  (∀ (s : State) (t group : Nat) (e : Nat × Nat × Nat), confNext (now t s) (confOf s.dev group) = some e →
    ∃ d, exec (.confRelease t group) s = .next { s with dev := d } ∧ (copyOf d e.1).state = 1 ∧ e.1 ∈ (queueOf d (copyOf s.dev e.1).queue).copies
      ∧ (∀ k, k ≠ group → confOf d k = confOf s.dev k) ∧ ({ d with tm := {}, copies := [], release := {} } : Dev) = { now t s with tm := {}, copies := [], release := {} })
  ∧ (∀ (s : State) (t copy g due : Nat), let c := copyOf s.dev copy
      c.level = some (g, due) → c.state = 0 → c.verdict = true → launchTick s.dev c ≤ portTicks (now t s) c.port + 224 →
      ∃ d, exec (.lrEligible t copy) s = .next { s with dev := d }
        ∧ copyOf d copy = { c with state := 1, unequal := c.unequal || decide (launchTick s.dev c < portTicks (now t s) c.port) }
        ∧ (∀ k, k ≠ copy → copyOf d k = copyOf s.dev k) ∧ ({ d with copies := [] } : Dev) = { now t s with copies := [] })
  ∧ (∀ (s : State) (t copy g due : Nat), let c := copyOf s.dev copy
      c.level = some (g, due) → c.state = 1 → c.unequal = false → launchTick s.dev c ≤ portTicks (now t s) c.port + startReach s.dev c.port →
      portTicks (now t s) c.port ≤ launchTick s.dev c + startReach s.dev c.port → c.listed = true → canStart (now t s) copy = true →
      grantWaits s.dev c.port = false → (queueOf s.dev c.queue).copies.head? = some copy → permitted s.dev copy →
      ∃ d, exec (.lrLaunch t copy false) s = .next { s with dev := d } ∧ (copyOf d copy).state = 2 ∧ (schedOf d c.port).sending = some copy
        ∧ (copyOf d copy).departed = some (mdiTick (portOf s.dev c.port) (portTicks (now t s) c.port)) ∧ (copyOf d copy).unequal = false
        ∧ (∀ k, k ≠ copy → copyOf d k = copyOf s.dev k) ∧ ({ d with coll := {}, ledger := {}, counters := {}, tm := {}, frames := [], copies := [], release := {}, out := [] } : Dev) = { now t s with coll := {}, ledger := {}, counters := {}, tm := {}, frames := [], copies := [], release := {}, out := [] })
  ∧ (∀ (s : State) (t copy g due : Nat) (marker : Bool), let c := copyOf s.dev copy
      c.level = some (g, due) → c.state = 1 → c.unequal = false → launchTick s.dev c ≤ portTicks (now t s) c.port + startReach s.dev c.port →
      (marker = true ∨ launchTick s.dev c + startReach s.dev c.port < portTicks (now t s) c.port ∨ c.listed = false ∨ canStart (now t s) copy = false
        ∨ grantWaits s.dev c.port = true ∨ (queueOf s.dev c.queue).copies.head? ≠ some copy) →
      ∃ d, exec (.lrLaunch t copy marker) s = .next { s with dev := d } ∧ copyOf d copy = { c with unequal := true }
        ∧ (∀ k, k ≠ copy → copyOf d k = copyOf s.dev k) ∧ ({ d with copies := [] } : Dev) = { now t s with copies := [] })
  ∧ (∀ (s : State) (t copy due : Nat), let c := copyOf s.dev copy
      c.launch = some due → hasCopy s.dev copy = true → c.state = 1 → due ≤ portTicks (now t s) c.port → canStart (now t s) copy = true →
      (c.cut = true ∨ lrClear (now t s) c.port (c.out.length + 4 + (leavingTrailer (now t s) c).1.length) = true) →
      (queueOf s.dev c.queue).copies.head? = some copy → permitted s.dev copy →
      ∃ d, exec (.detLaunch t copy false) s = .next { s with dev := d } ∧ (copyOf d copy).state = 2 ∧ (schedOf d c.port).sending = some copy
        ∧ (copyOf d copy).departed = some (mdiTick (portOf s.dev c.port) (portTicks (now t s) c.port))
        ∧ (∀ k, k ≠ copy → copyOf d k = copyOf s.dev k) ∧ ({ d with coll := {}, ledger := {}, counters := {}, tm := {}, frames := [], copies := [], release := {}, out := [] } : Dev) = { now t s with coll := {}, ledger := {}, counters := {}, tm := {}, frames := [], copies := [], release := {}, out := [] })
  ∧ (∀ (s : State) (t port : Nat), ∃ d, exec (.memberEligible t port) s = .next { s with dev := d }
      ∧ (∀ q ∈ s.dev.tm.queues.map (·.1), queuePort s.dev q = some port → (queueOf d q).eligible = queueEligible (now t s) port q)
      ∧ (∀ q, (queueOf d q).copies = (queueOf s.dev q).copies) ∧ ({ d with tm := {} } : Dev) = { now t s with tm := {} })
  ∧ (∀ (s : State) (t port q i : Nat), portFree (now t s) port = true → selectQueue (refreshPort port (now t s)) port = some q →
      (queueOf s.dev q).copies.head? = some i → permitted s.dev i →
      ∃ d, exec (.portSelection t port) s = .next { s with dev := d } ∧ (copyOf d i).state = 2 ∧ (schedOf d (copyOf s.dev i).port).sending = some i
        ∧ (∀ k, k ≠ i → copyOf d k = copyOf s.dev k) ∧ ({ d with coll := {}, ledger := {}, counters := {}, tm := {}, frames := [], copies := [], release := {}, out := [] } : Dev) = { now t s with coll := {}, ledger := {}, counters := {}, tm := {}, frames := [], copies := [], release := {}, out := [] })

/-- VERDICT_ARRIVAL: a committed verdict reaches a copy, which is then eligible where nothing else holds it; a copy whose frame failed, or whose
lookup is void, leaves its queue, and one that has not started leaves nothing on the wire. VERDICT_LATE: a started copy whose last 4 bytes
are due without a verdict is stomped. COPY_END: a copy's last byte leaves with a valid FCS and its slot's last-sent value becomes its
sequence, or, where the end-to-end CRC is bad, it is stomped. A stomped guarded copy of a committed frame is replaced from the Hold Pool
where that has its bytes. The frames name every part of the device that these events can change. -/
def Obligations.CopyEventsComplete : Prop :=  (∀ (s : State) (t copy : Nat), let c := copyOf s.dev copy
    hasCopy s.dev copy = true → c.state < 3 → c.verdict = false →
    (c.void = false → (frameOf s.dev c.frame).state = 2 →
      ∃ d, exec (.verdictArrival t copy) s = .next { s with dev := d } ∧ (copyOf d copy).verdict = true
        ∧ (c.conf = none → c.level = none → c.aside = false → (copyOf d copy).state = max c.state 1) ∧ ({ d with ledger := {}, counters := {}, tm := {}, frames := [], copies := [], release := {}, out := [] } : Dev) = { now t s with ledger := {}, counters := {}, tm := {}, frames := [], copies := [], release := {}, out := [] })
    ∧ (c.conf = none → (c.void = true ∨ (frameOf s.dev c.frame).state = 3) →
      ∃ d, exec (.verdictArrival t copy) s = .next { s with dev := d } ∧ copy ∉ (queueOf d c.queue).copies
        ∧ (c.state < 2 ∨ c.driven = false → d.out = s.dev.out) ∧ ({ d with ledger := {}, counters := {}, tm := {}, frames := [], copies := [], release := {}, out := [] } : Dev) = { now t s with ledger := {}, counters := {}, tm := {}, frames := [], copies := [], release := {}, out := [] }))
  ∧ (∀ (s : State) (t copy : Nat), let c := copyOf s.dev copy; let part := c.out.take (sentBytes (now t s) c)
      hasCopy s.dev copy = true → c.state = 2 → c.verdict = false → copy ≠ s.dev.nextCopy → c.out.length - 4 ≤ dueBytes (now t s) c →
      ∃ d, exec (.verdictLate t copy) s = .next { s with dev := d } ∧ copy ∉ (queueOf d c.queue).copies
        ∧ d.out = (if c.driven then .wire c.port part (crc32 part ^^^ 0xFFFFFFFF) true :: s.dev.out else s.dev.out)
        ∧ (∀ h, (frameOf s.dev c.frame).state = 2 → replacement s.dev c = some h → (copyOf d s.dev.nextCopy).out = h.out
            ∧ s.dev.nextCopy ∈ (queueOf d c.queue).copies) ∧ ({ d with coll := {}, ledger := {}, counters := {}, tm := {}, frames := [], copies := [], nextCopy := 0, release := {}, out := [] } : Dev) = { now t s with coll := {}, ledger := {}, counters := {}, tm := {}, frames := [], copies := [], nextCopy := 0, release := {}, out := [] })
  ∧ (∀ (s : State) (t copy : Nat), let c := copyOf s.dev copy; let f := frameOf s.dev c.frame; let bytes := c.out ++ (leavingTrailer (now t s) c).1
      hasCopy s.dev copy = true → c.state = 2 → c.verdict = true →
      ∃ d, exec (.copyEnd t copy true) s = .next { s with dev := d } ∧ copy ∉ (queueOf d c.queue).copies ∧ (schedOf d c.port).sending = none
        ∧ d.out = (if c.driven then .wire c.port bytes (crc32 bytes) false :: s.dev.out else s.dev.out)
        ∧ (∀ st k n, f.stream = some st → c.slot = some k → f.seq = some n → c.driven = true → sendingUnit s.dev = true → s.dev.guard.closed = false →
            ((streamOf d st).slots[k]?).map (·.lastSent) = ((streamOf s.dev st).slots[k]?).map (fun _ => n)) ∧ ({ d with coll := {}, guard := {}, ptp := {}, ledger := {}, counters := {}, tm := {}, frames := [], copies := [], nextCopy := 0, release := {}, out := [] } : Dev) = { now t s with coll := {}, guard := {}, ptp := {}, ledger := {}, counters := {}, tm := {}, frames := [], copies := [], nextCopy := 0, release := {}, out := [] })
  ∧ (∀ (s : State) (t copy : Nat), let c := copyOf s.dev copy; let part := c.out.take (sentBytes (now t s) c)
      hasCopy s.dev copy = true → c.state = 2 → c.verdict = true → copy ≠ s.dev.nextCopy →
      ∃ d, exec (.copyEnd t copy false) s = .next { s with dev := d } ∧ copy ∉ (queueOf d c.queue).copies
        ∧ d.out = (if c.driven then .wire c.port part (crc32 part ^^^ 0xFFFFFFFF) true :: s.dev.out else s.dev.out)
        ∧ (∀ h, (frameOf s.dev c.frame).state = 2 → replacement s.dev c = some h → (copyOf d s.dev.nextCopy).out = h.out
            ∧ s.dev.nextCopy ∈ (queueOf d c.queue).copies) ∧ ({ d with coll := {}, guard := {}, ptp := {}, ledger := {}, counters := {}, tm := {}, frames := [], copies := [], nextCopy := 0, release := {}, out := [] } : Dev) = { now t s with coll := {}, guard := {}, ptp := {}, ledger := {}, counters := {}, tm := {}, frames := [], copies := [], nextCopy := 0, release := {}, out := [] })

-- The ledger ---------------------------------------------------------------------------------------------------------------------------------

/-- ledger.configure sets the flag and the digest length, and each ring where the old one stands at a descriptor boundary; a new key closes the
open block and applies from the next. ledger.status answers the ledger's numbers, and ledger.certs a certificate's first 2,048 bytes with
their number (its layout is presumed, log 113); both change nothing. The frames name every part of the device that these commands can
change.

LEDGER_RECORD_WRITE: the writer places the oldest record, with its digest, under the next number, and its bytes in the record ring's slot of
that number. RECORD_PENDING_TIMEOUT: a FRAME record whose primary copy is still on its way 100 µs after the outcome is offered.
BLOCK_TIME_CLOSE: a block closes after 1 ms. SEAL_WRITE: the oldest closed block's seal is written with its signature into the seal ring's
slot (the rings' places in the Cistern are log 113's), and nothing but a report follows where the Grotto could not sign. SEAL_DEADLINE: a
seal not written 200 µs after its block's close is marked late. LEDGER_EXPORT: records go to host memory in number order. Writer, seal and
export act while the Cistern's island is awake, and on channels that do not train. The frames name every part of the device that these
events can change. -/
def Obligations.LedgerComplete : Prop :=
  ((∀ (s : State) (c : Cmd), let q := c.req; let l := s.dev.ledger; let n := if u8 q 5 = 0 then 64 else u8 q 5; let fn := boxFn s.dev c.box
      Takes s c 32 → nameable s.dev fn (u16 q 0) l.recordRing = true → nameable s.dev fn (u16 q 2) l.sealRing = true →
      (u16 q 0 ≠ u16 q 2 ∨ u16 q 0 = 0xFFFF) → u8 q 4 ≤ 3 → 32 ≤ n → n ≤ 256 → n % 32 = 0 → u16 q 6 = 0 → u32 q 12 = 0 →
      ∃ d, exec (.ledgerConfigure c) s = .next { s with dev := d } ∧ Answers d c stOk 4 [] ∧ d.ledger.allCopies = bitOf (u8 q 4) 0
        ∧ d.ledger.digestBytes = n ∧ (atBoundary s.dev l.recordRing = true → d.ledger.recordRing = ringName (u16 q 0))
        ∧ (atBoundary s.dev l.sealRing = true → d.ledger.sealRing = ringName (u16 q 2))
        ∧ (bitOf (u8 q 4) 1 = true → l.rehash = false → sealRoom s.dev = true →
            d.ledger.key = slice q 16 16 ∧ d.ledger.keyId = u32 q 8 ∧ d.ledger.closeNo = l.closeNo + 1 ∧ d.ledger.newKey = none)
        ∧ d.ledger.queue = l.queue ∧ d.ledger.nextRecord = l.nextRecord ∧ ({ d with boxes := [], time := {}, ledger := {}, out := [] } : Dev) = { now c.t s with boxes := [], time := {}, ledger := {}, out := [] })
    ∧ (∀ (s : State) (c : Cmd), let l := s.dev.ledger
        Takes s c 4 → u32 c.req 0 = 0 →
        ∃ d, exec (.ledgerStatus c) s = .next { s with dev := d }
          ∧ Answers d c stOk 72 (le 2 0 ++ le 4 (Config.bootCount.toNat + s.dev.helm.boots) ++ le 8 l.nextRecord ++ le 8 l.nextSeal
              ++ le 8 (l.nextRecord - l.freeFrom) ++ le 8 l.lost ++ padTo 32 l.lastHash)
          ∧ ({ d with boxes := [], out := [] } : Dev) = { now c.t s with boxes := [], out := [] })
    ∧ (∀ (s : State) (c : Cmd), let der := (certificate (u8 c.req 0)).take 2048
        Takes s c 4 → u8 c.req 0 ≤ 2 → leAt c.req 1 3 = 0 →
        ∃ d, exec (.ledgerCerts c) s = .next { s with dev := d } ∧ Answers d c stOk 2052 (le 2 der.length ++ der)
          ∧ ({ d with boxes := [], out := [] } : Dev) = { now c.t s with boxes := [], out := [] }))
  ∧ ((∀ (s : State) (t : Nat) (r : LedgerRec) (rest : List LedgerRec), let l := s.dev.ledger
      l.queue = r :: rest → l.rehash = false → l.rehashed = false → islandAwake s.dev 0x4E = true → l.block.count < 65536 → blockTimed (now t s) = false → l.newKey = none → ringRoom s.dev = true →
      l.lostReset.count = 0 → l.lostFull.count = 0 → l.lostRate.count = 0 → channelsTrain s.dev (recordAddr s.dev l.nextRecord) 32 = false →
      storable s.dev (recordAddr s.dev l.nextRecord) (keyedRecord s.dev r).length = true →
      ∃ d, exec (.ledgerRecordWrite t) s = .next { s with dev := d } ∧ d.ledger.queue = rest ∧ d.ledger.nextRecord = l.nextRecord + 1
        ∧ memWritten d (recordAddr s.dev l.nextRecord) (keyedRecord s.dev r).length = keyedRecord s.dev r ∧ ({ d with ledger := {}, time := {}, cistern := {} } : Dev) = { now t s with ledger := {}, time := {}, cistern := {} })
    ∧ (∀ (s : State) (t i a p : Nat), let f := frameOf s.dev i
        f.outcomeAt = some a → a + 1600000 ≤ (now t s).clock → f.recordDue = true → f.recorded = 0 → primaryCopy s.dev f = some p →
        (copyOf s.dev p).state < 3 →
        ∃ d, exec (.recordPendingTimeout t i) s = .next { s with dev := d } ∧ frameOf d i = { f with recorded := 2 }
          ∧ (s.dev.ledger.queue.length < 4096 → d.ledger.queue.length = s.dev.ledger.queue.length + 1)
          ∧ ({ d with ledger := {}, frames := [], counters := {} } : Dev) = { now t s with ledger := {}, frames := [], counters := {} })
    ∧ (∀ (s : State) (t : Nat), let l := s.dev.ledger
        l.rehash = false → s.dev.helm.state ≠ 0 → blockTimed (now t s) = true → sealRoom s.dev = true →
        ∃ d, exec (.blockTimeClose t) s = .next { s with dev := d } ∧ d.ledger.closeNo = l.closeNo + 1 ∧ d.ledger.genesis = false
          ∧ d.ledger.closed.length = l.closed.length + 1 ∧ d.ledger.block.first = l.nextRecord ∧ d.ledger.block.count = 0 ∧ d.time.steppedFlag = false
          ∧ ({ d with ledger := {}, time := {} } : Dev) = { now t s with ledger := {}, time := {} })
    ∧ (∀ (s : State) (t : Nat) (b : ClosedBlock) (rest : List ClosedBlock), let l := s.dev.ledger
        let bytes := b.head ++ be 32 (Config.signR b.head).toNat ++ be 32 (Config.signS b.head).toNat ++ List.replicate 32 0
        l.closed = b :: rest → ledgerHeld s.dev = false → islandAwake s.dev 0x4E = true → channelsTrain s.dev (sealAddr s.dev l.nextSeal) 256 = false →
        (∃ d, exec (.sealWrite t true) s = .next { s with dev := d } ∧ d.ledger.closed = rest ∧ d.ledger.nextSeal = l.nextSeal + 1
          ∧ d.ledger.lastHash = sha256 b.head
          ∧ (storable s.dev (sealAddr s.dev l.nextSeal) bytes.length = true → memWritten d (sealAddr s.dev l.nextSeal) bytes.length = bytes)
          ∧ ({ d with coll := {}, ledger := {}, counters := {}, dma := {}, cistern := {}, cascade := {}, out := [] } : Dev) = { now t s with coll := {}, ledger := {}, counters := {}, dma := {}, cistern := {}, cascade := {}, out := [] })
        ∧ ∃ d, exec (.sealWrite t false) s = .next { s with dev := d } ∧ d.ledger = l ∧ ({ d with coll := {} } : Dev) = { now t s with coll := {} })
    ∧ (∀ (s : State) (t : Nat) (b : ClosedBlock) (rest : List ClosedBlock), s.dev.ledger.closed = b :: rest → b.late = false →
        b.closedAt + 3200000 ≤ (now t s).clock →
        ∃ d, exec (.sealDeadline t) s = .next { s with dev := d } ∧ d.ledger = { s.dev.ledger with closed := { b with late := true } :: rest }
          ∧ ({ d with ledger := {}, coll := {} } : Dev) = { now t s with ledger := {}, coll := {} })
    ∧ (∀ (s : State) (t ring : Nat) (b : List Byte), let x := ringOf s.dev ring; let e := storeGaps s.dev.ledger.exported (now t s)
        let n := min (waiting e x.fn 0).1.length (u32 b 4 / 32)
        sourceOfRing s.dev ring = some 0 → x.kind = 0 → ringReady s.dev ring = true → x.started = [] → (waiting s.dev x.fn 0).1 ≠ [] →
        ledgerHeld s.dev = false → islandAwake s.dev 0x4E = true → outOfTurn (now t s) ring = false → descOk x b = true → 32 ≤ u32 b 4 →
        ∃ d, exec (.ledgerExport t ring [] (some b) none) s = .next { s with dev := d } ∧ d.ledger.exported = s.dev.ledger.exported + n
          ∧ Emission.hostWrite x.fn (u64 b 8) x.relaxed x.noSnoop (swapBytes x.swap ((waiting e x.fn 0).1.take n).flatten) ∈ d.out ∧ ({ d with fns := [], helm := {}, coll := {}, ledger := {}, pair := {}, counters := {}, tm := {}, dma := {}, cistern := {}, out := [] } : Dev) = { now t s with fns := [], helm := {}, coll := {}, ledger := {}, pair := {}, counters := {}, tm := {}, dma := {}, cistern := {}, out := [] }))

-- DMA rings -----------------------------------------------------------------------------------------------------------------------------------

/-- dma.ring enables a ring that is disabled, on an enabled completion queue of its function, or disables one with a ticket: at once where
nothing is in progress and nothing waits, and with a descriptor in progress it is STOPPING. dma.cq enables a completion queue, or disables
one that no ring uses. dma.punt names the ring of a range of punt reasons. No other ring or queue changes, and the frames name every part of
the device that these commands can change.

RING_DOORBELL sets TAIL of a ring of the function that rings it, and wakes a parked engine whose END has been cleared; on a disabled ring it
only sets DB_IGNORED. CQ_ARM_WRITE: ARM set while entries wait sends the message at once, and else stays set. CQ_SIGNAL: an armed queue
whose time has come sends its message. FUNCTION_LEVEL_RESET disables the function's rings and completion queues and clears its mailboxes,
and no other's. The frames name every part of the device that these events can change. -/
def Obligations.DmaAndRingRegistersComplete : Prop :=
  ((∀ (s : State) (c : Cmd) (reread : Option (List Byte)), let q := c.req; let r := u16 q 0; let x := ringOf s.dev r; let y := cqOf s.dev (u8 q 6)
      let fn := boxFn s.dev c.box
      Takes s c 16 → r ≤ 2047 → u8 q 3 ≤ 7 → u8 q 2 ≤ 3 → (u8 q 2 = 3 ↔ 1024 ≤ r) → 6 ≤ u8 q 4 → u8 q 4 ≤ 16 → u8 q 5 ≤ 3 → u8 q 6 ≤ 63 → u8 q 7 ≠ 0 →
      u64 q 8 % 64 = 0 →
      (bitOf (u8 q 3) 0 = true → x.state = 0 → y.enabled = true → y.fn = fn →
        ∃ d, exec (.dmaRing c reread) s = .next { s with dev := d } ∧ Answers d c stOk 8 []
          ∧ ringOf d r = { fn, kind := u8 q 2, state := 1, noSnoop := bitOf (u8 q 3) 1, relaxed := bitOf (u8 q 3) 2, sizeLog := u8 q 4, swap := u8 q 5,
                           cq := u8 q 6, weight := u8 q 7, base := u64 q 8, dbIgnored := x.dbIgnored, hostError := x.hostError }
          ∧ (∀ k, k ≠ r → ringOf d k = ringOf s.dev k) ∧ ({ d with boxes := [], fns := [], helm := {}, counters := {}, dma := {}, out := [] } : Dev) = { now c.t s with boxes := [], fns := [], helm := {}, counters := {}, dma := {}, out := [] })
      ∧ (bitOf (u8 q 3) 0 = false → x.state = 1 → x.fn = fn → x.started = [] → ringAvail x = 0 → s.dev.helm.open_.length < 1024 →
        ∃ d, exec (.dmaRing c reread) s = .next { s with dev := d } ∧ Answers d c stPending 8 (le 2 0 ++ le 4 s.dev.helm.nextTicket)
          ∧ (ringOf d r).state = 0 ∧ (∀ k, k ≠ r → ringOf d k = ringOf s.dev k) ∧ ({ d with boxes := [], fns := [], helm := {}, counters := {}, dma := {}, out := [] } : Dev) = { now c.t s with boxes := [], fns := [], helm := {}, counters := {}, dma := {}, out := [] })
      ∧ (bitOf (u8 q 3) 0 = false → (x.state = 1 ∨ x.state = 3) → x.fn = fn → x.started ≠ [] → s.dev.helm.open_.length < 1024 →
        ∃ d, exec (.dmaRing c reread) s = .next { s with dev := d } ∧ Answers d c stPending 8 (le 2 0 ++ le 4 s.dev.helm.nextTicket)
          ∧ ringOf d r = { x with state := 5, ticket := some s.dev.helm.nextTicket, parkedStop := x.state == 3, held := false }
          ∧ (∀ k, k ≠ r → ringOf d k = ringOf s.dev k) ∧ ({ d with boxes := [], fns := [], helm := {}, counters := {}, dma := {}, out := [] } : Dev) = { now c.t s with boxes := [], fns := [], helm := {}, counters := {}, dma := {}, out := [] }))
    ∧ (∀ (s : State) (c : Cmd), let q := c.req; let n := u8 q 0; let fn := boxFn s.dev c.box
        Takes s c 24 → n ≤ 63 → 6 ≤ u8 q 2 → u8 q 2 ≤ 16 → u8 q 3 = 0 → 1 ≤ u16 q 4 → u16 q 4 ≤ 1024 → u16 q 6 = 0 → u32 q 8 ≤ 1000000 → u32 q 12 = 0 →
        u64 q 16 % 64 = 0 →
        (u8 q 1 = 1 → (cqOf s.dev n).enabled = false →
          ∃ d, exec (.dmaCq c) s = .next { s with dev := d } ∧ Answers d c stOk 4 []
            ∧ cqOf d n = { fn, enabled := true, sizeLog := u8 q 2, coCount := u16 q 4, coNs := u32 q 8, base := u64 q 16 }
            ∧ (∀ k, k ≠ n → cqOf d k = cqOf s.dev k) ∧ d.dma = { s.dev.dma with cqs := d.dma.cqs } ∧ ({ d with boxes := [], dma := {}, out := [] } : Dev) = { now c.t s with boxes := [], dma := {}, out := [] })
        ∧ (u8 q 1 = 0 → (cqOf s.dev n).fn = fn → (∀ e ∈ s.dev.dma.rings, e.2.state = 0 ∨ e.2.cq ≠ n) →
          ∃ d, exec (.dmaCq c) s = .next { s with dev := d } ∧ Answers d c stOk 4 [] ∧ cqOf d n = { cqOf s.dev n with enabled := false, arm := false }
            ∧ (∀ k, k ≠ n → cqOf d k = cqOf s.dev k) ∧ d.dma = { s.dev.dma with cqs := d.dma.cqs } ∧ ({ d with boxes := [], dma := {}, out := [] } : Dev) = { now c.t s with boxes := [], dma := {}, out := [] }))
    ∧ (∀ (s : State) (c : Cmd), let q := c.req; let x := ringOf s.dev (u16 q 4)
        Takes s c 8 → u16 q 0 ≤ u16 q 2 → u16 q 6 = 0 →
        (u16 q 4 = 0xFFFF ∨ u16 q 4 < 1024 ∧ x.kind = 1 ∧ (x.state = 1 ∨ x.state = 3) ∧ x.fn = boxFn s.dev c.box) →
        ∃ d, exec (.dmaPunt c) s = .next { s with dev := d } ∧ Answers d c stOk 4 []
          ∧ (∀ k, puntRing d k = if u16 q 0 ≤ k ∧ k ≤ u16 q 2 then ringName (u16 q 4) else puntRing s.dev k)
          ∧ d.dma = { s.dev.dma with punt := d.dma.punt } ∧ ({ d with boxes := [], dma := {}, out := [] } : Dev) = { now c.t s with boxes := [], dma := {}, out := [] }))
  ∧ ((∀ (s : State) (t fn ring tail : Nat) (b : List Byte), let x := ringOf s.dev ring
      ring < 2048 → x.fn = fn → (x.state = 1 ∨ x.state = 3) → x.started = [] →
      ∃ d, exec (.ringDoorbell t fn ring tail (some b)) s = .next { s with dev := d } ∧ (ringOf d ring).tail = tail % 65536 % ringSize x
        ∧ ringOf d ring = { x with tail := tail % 65536 % ringSize x, state := if x.state = 3 ∧ bitOf (u32 b 0) 0 = true then 3 else 1 }
        ∧ (∀ k, k ≠ ring → ringOf d k = ringOf s.dev k) ∧ ({ d with dma := {} } : Dev) = { now t s with dma := {} })
    ∧ (∀ (s : State) (t fn ring tail : Nat) (reread : Option (List Byte)), let x := ringOf s.dev ring
        ring < 2048 → (x.state = 0 ∨ x.state = 5 ∧ x.fn = fn) →
        ∃ d, exec (.ringDoorbell t fn ring tail reread) s = .next { s with dev := d } ∧ ringOf d ring = { x with dbIgnored := true }
          ∧ (∀ k, k ≠ ring → ringOf d k = ringOf s.dev k) ∧ ({ d with dma := {} } : Dev) = { now t s with dma := {} })
    ∧ (∀ (s : State) (t fn cq : Nat) (v : BitVec 32), let x := cqOf s.dev cq
        cq < 64 → x.fn = fn → x.enabled = true → bitOf v.toNat 0 = true →
        ∃ d, exec (.cqArmWrite t fn cq v) s = .next { s with dev := d }
          ∧ (x.tail ≠ x.head → d.out = .msix fn (64 + cq) :: s.dev.out ∧ (cqOf d cq).arm = false ∧ (cqOf d cq).since = 0)
          ∧ (x.tail = x.head → cqDue (now t s) x = false → d.out = s.dev.out ∧ (cqOf d cq).arm = true)
          ∧ (∀ k, k ≠ cq → cqOf d k = cqOf s.dev k) ∧ ({ d with dma := {}, out := [] } : Dev) = { now t s with dma := {}, out := [] })
    ∧ (∀ (s : State) (t cq : Nat), let x := cqOf s.dev cq
        x.enabled = true → x.arm = true → cqDue (now t s) x = true →
        ∃ d, exec (.cqSignal t cq) s = .next { s with dev := d } ∧ d.out = .msix x.fn (64 + cq) :: s.dev.out
          ∧ cqOf d cq = { x with arm := false, since := 0 } ∧ (∀ k, k ≠ cq → cqOf d k = cqOf s.dev k) ∧ ({ d with dma := {}, out := [] } : Dev) = { now t s with dma := {}, out := [] })
    ∧ (∀ (s : State) (t fn : Nat) (reading : List Nat),
        ∃ d, exec (.functionLevelReset t fn reading) s = .next { s with dev := d }
          ∧ (∀ r, (ringOf s.dev r).fn = fn → (ringOf d r).state = 0 ∧ (ringOf d r).started = [])
          ∧ (∀ q, (cqOf s.dev q).fn = fn → (cqOf d q).enabled = false)
          ∧ (∀ q, (cqOf s.dev q).fn ≠ fn → cqOf d q = cqOf s.dev q) ∧ (∀ r, (ringOf s.dev r).fn ≠ fn → ringOf d r = ringOf s.dev r)
          ∧ (∀ m, boxFn s.dev m = fn → boxOf d m = {}) ∧ (∀ m, boxFn s.dev m ≠ fn → boxOf d m = boxOf s.dev m)
          ∧ ({ d with boxes := [], fns := [], helm := {}, ledger := {}, counters := {}, masters := [], dma := {} } : Dev) = { now t s with boxes := [], fns := [], helm := {}, ledger := {}, counters := {}, masters := [], dma := {} }))

/-- An engine whose turn it is, and that can start its ring's descriptor, packs records (RECORD_FILL), gathers elements (GATHER_DESCRIPTOR),
delivers a punt (PUNT_DELIVERY) or injects a frame into a pipeline or a queue (INJECT_FRAME): its data go to host memory, or the frame into
the device, and HEAD moves on. RECORD_PARTIAL_TIMEOUT: a buffer whose oldest record has waited 100 µs completes with FLAGS 2. The frames
name every part of the device that these events can change. -/
def Obligations.RingEventsComplete : Prop :=  (∀ (s : State) (t ring src : Nat) (b : List Byte), let x := ringOf s.dev ring
    let e := if src = 0 then storeGaps s.dev.ledger.exported (now t s) else now t s
    let n := min (waiting e x.fn src).1.length (u32 b 4 / recordSize src)
    sourceOfRing s.dev ring = some src → x.kind = 0 → ringReady s.dev ring = true → x.started = [] → (waiting s.dev x.fn src).1 ≠ [] →
    (src ≤ 1 → ledgerHeld s.dev = false ∧ islandAwake s.dev 0x4E = true) → outOfTurn (now t s) ring = false →
    descOk x b = true → recordSize src ≤ u32 b 4 →
    ∃ d, exec (.recordFill t ring (some b) none) s = .next { s with dev := d } ∧ (ringOf d ring).head = (x.head + 1) % ringSize x
      ∧ Emission.hostWrite x.fn (u64 b 8) x.relaxed x.noSnoop (swapBytes x.swap ((waiting e x.fn src).1.take n).flatten) ∈ d.out ∧ ({ d with fns := [], helm := {}, coll := {}, ledger := {}, pair := {}, counters := {}, tm := {}, dma := {}, cistern := {}, out := [] } : Dev) = { now t s with fns := [], helm := {}, coll := {}, ledger := {}, pair := {}, counters := {}, tm := {}, dma := {}, cistern := {}, out := [] })
  ∧ (∀ (s : State) (t ring : Nat) (b : Started) (reread : Option (List Byte)), let x := ringOf s.dev ring; let q := cqOf s.dev x.cq
      x.started = [b] → x.kind = 0 → 0 < b.records → b.oldest + 1600000 ≤ (now t s).clock → b.result = none →
      ∃ d, exec (.recordPartialTimeout t ring reread) s = .next { s with dev := d } ∧ (ringOf d ring).started = []
        ∧ (b.noCq = false → Emission.hostWrite q.fn (q.base + 16 * q.tail) false false
            (le 2 (ring + 32768 * q.phase) ++ le 1 0 ++ le 1 2 ++ le 2 b.index ++ le 2 b.records ++ le 8 b.detail) ∈ d.out) ∧ ({ d with fns := [], helm := {}, coll := {}, ledger := {}, counters := {}, dma := {}, out := [] } : Dev) = { now t s with fns := [], helm := {}, coll := {}, ledger := {}, counters := {}, dma := {}, out := [] })
  ∧ (∀ (s : State) (t ring : Nat) (b ix : List Byte), let x := ringOf s.dev ring
      x.kind = 2 → ringReady s.dev ring = true → outOfTurn (now t s) ring = false → descOk x b = true → u64 b 16 % 4 = 0 → u8 b 24 ≤ 2 → leAt b 25 3 = 0 →
      (u8 b 24 = 2 → islandAwake s.dev 0x4E = true ∧ ∀ a ∈ spillReads s.dev (u32 b 28) ix (u32 b 4), channelsTrain s.dev a 64 = false) →
      ∃ d, exec (.gatherDescriptor t ring (some b) (some ix) none) s = .next { s with dev := d } ∧ (ringOf d ring).head = (x.head + 1) % ringSize x
        ∧ Emission.hostWrite x.fn (u64 b 8) x.relaxed x.noSnoop (swapBytes x.swap (gather (now t s) (u8 b 24) (u32 b 28) ix (u32 b 4)).1) ∈ d.out
        ∧ ({ d with fns := [], helm := {}, coll := {}, counters := {}, dma := {}, cistern := {}, out := [] } : Dev) = { now t s with fns := [], helm := {}, coll := {}, counters := {}, dma := {}, cistern := {}, out := [] })
  ∧ (∀ (s : State) (t r : Nat) (bytes b : List Byte) (rest : List (Nat × List Byte)), let x := ringOf s.dev r
      s.dev.dma.punts = (r, bytes) :: rest → ringReady s.dev r = true → outOfTurn (now t s) r = false → x.kind = 1 → descOk x b = true → 32 ≤ u32 b 4 →
      ∃ d, exec (.puntDelivery t (some b) none) s = .next { s with dev := d } ∧ d.dma.punts = rest ∧ (ringOf d r).head = (x.head + 1) % ringSize x
        ∧ Emission.hostWrite x.fn (u64 b 8) x.relaxed x.noSnoop (swapBytes x.swap (bytes.take (min (u32 b 4) bytes.length))) ∈ d.out ∧ ({ d with fns := [], helm := {}, coll := {}, counters := {}, dma := {}, out := [] } : Dev) = { now t s with fns := [], helm := {}, coll := {}, counters := {}, dma := {}, out := [] })
  ∧ (∀ (s : State) (t ring : Nat) (b raw : List Byte), let x := ringOf s.dev ring; let f := fun (d : Dev) => frameOf d s.dev.nextFrame
      let bytes := padFrame (swapBytes x.swap (padTo (u32 b 4) raw)); let port := u16 b 18; let q := (localQueue s.dev port (u16 b 20)).1
      x.kind = 3 → ringReady s.dev ring = true → descOk x b = true → injectOk s.dev b (u32 b 4) = true →
      (u8 b 16 = 0 → ∃ d, exec (.injectFrame t ring (some b) (some raw) none) s = .next { s with dev := d } ∧ d.nextFrame = s.dev.nextFrame + 1
        ∧ (f d).port = port ∧ (f d).bytes = bytes ∧ (f d).injected = some (ring, x.head)
        ∧ (f d).fcs = crc32 (f d).bytes ∧ (f d).stamp = stampAt (now t s) (0x40 + basinOf port) 0 ∧ ({ d with fns := [], helm := {}, coll := {}, ledger := {}, counters := {}, tm := {}, frames := [], copies := [], nextFrame := 0, nextCopy := 0, release := {}, dma := {}, out := [] } : Dev) = { now t s with fns := [], helm := {}, coll := {}, ledger := {}, counters := {}, tm := {}, frames := [], copies := [], nextFrame := 0, nextCopy := 0, release := {}, dma := {}, out := [] })
      ∧ (u8 b 16 = 1 → (portOf s.dev port).state = 4 → bytes.length + 4 ≤ (portOf s.dev port).mtu →
        (admitPart (now t s) { port := port } q false).isSome = true →
        ∃ d, exec (.injectFrame t ring (some b) (some raw) none) s = .next { s with dev := d } ∧ (copyOf d s.dev.nextCopy).out = bytes
          ∧ (copyOf d s.dev.nextCopy).port = port ∧ s.dev.nextCopy ∈ (queueOf d q).copies ∧ ({ d with fns := [], helm := {}, coll := {}, ledger := {}, counters := {}, tm := {}, frames := [], copies := [], nextFrame := 0, nextCopy := 0, release := {}, dma := {}, out := [] } : Dev) = { now t s with fns := [], helm := {}, coll := {}, ledger := {}, counters := {}, tm := {}, frames := [], copies := [], nextFrame := 0, nextCopy := 0, release := {}, dma := {}, out := [] }))

-- Counters ------------------------------------------------------------------------------------------------------------------------------------

/-- counter.program puts its run among those that wait for their boundary, with a ticket. counter.snapshot joins the snapshots that wait, with a
ticket, and no counter and no shadow changes; with RECOVER it is of the run that the shadow holds. counter.window sets a Port's window from
the next whole window on, or takes it away; what becomes of the window's older settings is the model's choice (log 115). The frames name
every part of the device that these commands can change.

COUNTER_EPOCH_BOUNDARY: a program whose boundary has come takes effect, its counter starting at 0 and no other changing (but for that of an
event record which its ticket's completion loses); and the first snapshot that waits captures its run, where its boundary has come, as reads
of this bank cycle see it, and with CLEAR reads of the run then see 0. WINDOW_CLOSE: a window's end writes its four pairs, zeros where the
Port is not UP. COUNTER_READ: a read of an even counter answers it and latches the odd one beside it, and one of a high half answers the
latch. The frames name every part of the device that these events can change. -/
def Obligations.CountersComplete : Prop :=
  ((∀ (s : State) (c : Cmd) (scope : Nat) (bytes : Bool), let q := c.req; let first := u32 q 0; let n := u32 q 4; let k := if u8 q 11 = 1 then n / 2 else n
      let prog : Prog := { event := u16 q 8, inst := if u16 q 8 = 0 then 0 else u32 q 12, bytes := u8 q 10 == 1, chain := u8 q 11 == 1 }
      let p : PendProg := { boundary := nextBoundary (now c.t s) first 16000, runFirst := first, runCount := n, prog, ticket := some s.dev.helm.nextTicket }
      Takes s c 16 → eventScope (u16 q 8) = some (scope, bytes) → 1 ≤ n → n ≤ 65536 → first + n ≤ 1048576 → u8 q 10 ≤ 1 → u8 q 11 ≤ 1 →
      (u8 q 11 = 1 → first % 2 = 0 ∧ n % 2 = 0) → (u8 q 10 = 1 → bytes = true) → (u16 q 8 ≠ 0 → u32 q 12 + k ≤ scope) → inWindow s.dev first n = false →
      s.dev.helm.open_.length < 1024 →
      ∃ d, exec (.counterProgram c) s = .next { s with dev := d } ∧ Answers d c stPending 8 (le 2 0 ++ le 4 s.dev.helm.nextTicket)
        ∧ d.counters = { s.dev.counters with pending := s.dev.counters.pending ++ [p] } ∧ ({ d with boxes := [], helm := {}, counters := {}, out := [] } : Dev) = { now c.t s with boxes := [], helm := {}, counters := {}, out := [] })
    ∧ (∀ (s : State) (c : Cmd), let q := c.req
        let k := if bitOf (u8 q 16) 1 then (s.dev.counters.shadow.map (·.2.1.length)).getD (u32 q 4) else u32 q 4
        let n : Snap := { first := u32 q 0, count := k, offset := u64 q 8, clear := bitOf (u8 q 16) 0, recover := bitOf (u8 q 16) 1,
                          ticket := some s.dev.helm.nextTicket, due := nextBoundary (now c.t s) 0 1,
                          boundary := if bitOf (u8 q 16) 1 then s.dev.counters.shadow.map (·.2.2) else none }
        Takes s c 20 → 1 ≤ u32 q 4 → u32 q 0 + u32 q 4 ≤ 1048576 → u64 q 8 % 64 = 0 → u8 q 16 ≤ 3 → leAt q 17 3 = 0 →
        (bitOf (u8 q 16) 1 = true → s.dev.counters.shadow.isSome = true) →
        u64 q 8 + 4 * k ≤ spillBytes s.dev → opVerdict s.dev 0x0F 0 = stOk → s.dev.helm.open_.length < 1024 →
        ∃ d, exec (.counterSnapshot c) s = .next { s with dev := d } ∧ Answers d c stPending 8 (le 2 0 ++ le 4 s.dev.helm.nextTicket)
          ∧ d.counters = { s.dev.counters with snaps := s.dev.counters.snaps ++ [n] } ∧ ({ d with boxes := [], helm := {}, counters := {}, steward := {}, out := [] } : Dev) = { now c.t s with boxes := [], helm := {}, counters := {}, steward := {}, out := [] })
    ∧ (∀ (s : State) (c : Cmd), let q := c.req; let port := u16 q 0; let dir := u8 q 2; let len := u32 q 4; let subs := u16 q 8; let base := u32 q 12
        let others := s.dev.counters.windows.filter fun w => !(w.port == port && w.dir == dir)
        Takes s c 16 → portUnused s.dev port = false → dir ≤ 1 → u16 q 10 = 0 → 1 ≤ len → len ≤ 1000000 → 1 ≤ subs → subs ≤ 1024 → len * 1000 % subs = 0 →
        64 ≤ len * 1000 / subs → base % 8 = 0 → base + 8 ≤ 1048576 →
        (u8 q 3 = 1 → (∀ w ∈ others, w.base ≠ base) →
          ∃ d w, exec (.counterWindow c) s = .next { s with dev := d } ∧ Answers d c stOk 4 []
            ∧ d.counters.windows = outgoing port dir base w.from_ s.dev.counters.windows ++ [w] ∧ w.port = port ∧ w.until_ = none ∧ w.counts = []
            ∧ w.dir = dir ∧ w.length = len ∧ w.subs = subs ∧ w.base = base ∧ w.from_ % (len * 16000) = 0 ∧ bankTicks (now c.t s) base ≤ w.from_
            ∧ w.from_ < bankTicks (now c.t s) base + len * 16000
            ∧ d.counters = { s.dev.counters with windows := d.counters.windows, pending := d.counters.pending } ∧ ({ d with boxes := [], counters := {}, out := [] } : Dev) = { now c.t s with boxes := [], counters := {}, out := [] })
        ∧ (u8 q 3 = 0 → ∃ d, exec (.counterWindow c) s = .next { s with dev := d } ∧ Answers d c stOk 4 []
            ∧ d.counters.windows = (if s.dev.counters.windows.any (fun w => w.port == port && w.dir == dir && w.until_.isNone) then others
                else s.dev.counters.windows)
            ∧ d.counters = { s.dev.counters with windows := d.counters.windows, pending := d.counters.pending } ∧ ({ d with boxes := [], counters := {}, out := [] } : Dev) = { now c.t s with boxes := [], counters := {}, out := [] })))
  ∧ ((∀ (s : State) (t : Nat) (p : PendProg), s.dev.counters.pending = [p] → p.boundary ≤ bankTicks (now t s) p.runFirst → p.runCount = 1 →
      p.prog.chain = false → p.runFirst % 2 = 0 → s.dev.counters.snaps = [] →
      (p.ticket = none ∨ ∀ k ∈ s.dev.helm.open_, let x := fnOf s.dev k.fn; x.evRing.isSome = true ∧ x.evLost = 0 ∧ x.evq.length < 4096) →
      ∃ d, exec (.counterEpochBoundary t) s = .next { s with dev := d } ∧ d.counters.pending = [] ∧ progOf d p.runFirst = p.prog
        ∧ counterWord d p.runFirst = 0 ∧ counterSeen d p.runFirst = 0 ∧ (∀ k, k ≠ p.runFirst → k ≠ p.runFirst + 1 → counterWord d k = counterWord s.dev k) ∧ ({ d with fns := [], helm := {}, counters := {} } : Dev) = { now t s with fns := [], helm := {}, counters := {} })
    ∧ (∀ (s : State) (t : Nat) (n : Snap) (rest : List Snap), let at_ := bankTicks (now t s) 0 / 65536 * 65536
        s.dev.counters.pending = [] → s.dev.counters.snaps = n :: rest → n.boundary = none → n.due ≤ at_ →
        ∃ d, exec (.counterEpochBoundary t) s = .next { s with dev := d } ∧ d.counters.snaps = { n with boundary := some at_ } :: rest
          ∧ d.counters.shadow = some (n.first, (List.range n.count).map (fun k => counterSeen (now t s) (n.first + k)), at_)
          ∧ (n.clear = false → d.counters.values = s.dev.counters.values)
          ∧ (n.clear = true → ∀ k < n.count, counterSeen d (n.first + k) = 0) ∧ ({ d with counters := {} } : Dev) = { now t s with counters := {} })
    ∧ (∀ (s : State) (t port dir : Nat) (w : Window), let len := w.length * 16000; let end_ := windowEnd (now t s) w
        let mine := if (portOf s.dev port).state = 4 then w.counts.filter fun e => e.1 == end_ - len else []
        let word := fun (d : Dev) (k : Nat) => counterWord d (w.base + 2 * k) + 2 ^ 32 * counterWord d (w.base + 2 * k + 1)
        (s.dev.counters.windows.filter fun w => w.port == port && w.dir == dir) = [w] → w.from_ + len ≤ end_ →
        ∃ d, exec (.windowClose t port dir) s = .next { s with dev := d } ∧ word d 0 = (mine.foldl (fun a e => a + e.2.2.1) 0) % 2 ^ 64
          ∧ word d 1 = (mine.foldl (fun a e => a + e.2.2.2) 0) % 2 ^ 64 ∧ word d 2 = (mine.foldl (fun a e => max a e.2.2.1) 0) % 2 ^ 64
          ∧ word d 3 = end_ % 2 ^ 64 ∧ ({ d with counters := {} } : Dev) = { now t s with counters := {} })
    ∧ (∀ (s : State) (t fn off : Nat), let n := off / 4
        off % 4 = 0 → (functions s.dev).contains fn = true →
        ∃ d, exec (.counterRead t fn off 4) s = .next { s with dev := d }
          ∧ (n % 2 = 0 → d.out = .readData fn off (le 4 (counterSeen (now t s) n)) :: s.dev.out
              ∧ (fnOf d fn).pairLatch = counterSeen (now t s) (n + 1))
          ∧ (n % 2 = 1 → isHighHalf s.dev n = true → d.out = .readData fn off (le 4 (fnOf s.dev fn).pairLatch) :: s.dev.out)
          ∧ (n % 2 = 1 → isHighHalf s.dev n = false → d.out = .readData fn off (le 4 (counterSeen (now t s) n)) :: s.dev.out)
          ∧ (∀ k, k ≠ fn → fnOf d k = fnOf s.dev k) ∧ ({ d with fns := [], out := [] } : Dev) = { now t s with fns := [], out := [] }))

-- The frame's way -------------------------------------------------------------------------------------------------------------------------------

/-- FRAME_ARRIVAL: a frame at a receiving Port is stamped there and is the Port's frame in reception. PARSE_WALK: its walk is of its Basin's
current generation, once its Basin is awake. ENQUEUE decides its copies once. RECIRCULATION: 40 ns after its lookup a frame enters its
second pass, and the copies of its first are void. CONFIRMATION of a whole frame with a good FCS and no failing deferred check commits it,
and a guarded one takes its stream's next sequence; one with a bad FCS fails, and guarded delivery and the ledger stay as they were. The
frames name every part of the device that these events can change. -/
def Obligations.FramePathComplete : Prop :=  (∀ (s : State) (t port fcs : Nat) (bytes : List Byte), let x := portOf s.dev port; let st := stampAt (now t s) (nozzleOf port) (captureTerm x)
    receives (now t s) port = true →
    ∃ d, exec (.frameArrival t port bytes fcs) s = .next { s with dev := d } ∧ d.nextFrame = s.dev.nextFrame + 1
      ∧ frameOf d s.dev.nextFrame = { port, stamp := st, cap := (((st.ticks + inDelay x : Nat) : Int) + x.planeOffset).toNat, bytes, fcs := fcs % 2 ^ 32,
                                      arrived := (now t s).clock, lag := inDelay x + 40,
                                      capAt := ((((now t s).clock + inDelay x : Nat) : Int) + x.planeOffset).toNat, detHeader := s.dev.spec.detHeader, specOff := s.dev.spec.off }
      ∧ portOf d port = { x with receiving := some s.dev.nextFrame } ∧ (∀ i, i ≠ s.dev.nextFrame → frameOf d i = frameOf s.dev i)
      ∧ (∀ k, k ≠ port → portOf d k = portOf s.dev k) ∧ ({ d with frames := [], nextFrame := 0, ports := [], power := {} } : Dev) = { now t s with frames := [], nextFrame := 0, ports := [], power := {} })
  ∧ (∀ (s : State) (t i early : Nat) (parity : List Nat), let f := frameOf s.dev i
      hasFrame s.dev i = true → f.state = 0 → (f.pass = 2 → f.again = true) → islandAwake s.dev (0x40 + basinOf f.port) = true →
      ∃ d, exec (.parseWalk t i early parity) s = .next { s with dev := d } ∧ (frameOf d i).state = 1
        ∧ (frameOf d i).gen = (if f.pass = 2 then f.gen else basinCurrent (now t s) (basinOf f.port)) ∧ (∀ k, k ≠ i → frameOf d k = frameOf s.dev k)
        ∧ ({ d with coll := {}, frames := [], steward := {}, tables := {} } : Dev) = { now t s with coll := {}, frames := [], steward := {}, tables := {} })
  ∧ (∀ (s : State) (t i : Nat), let f := frameOf s.dev i
      hasFrame s.dev i = true → f.state = 1 → f.enqueued = false → f.again = false → f.doomed = none →
      ∃ d, exec (.enqueue t i) s = .next { s with dev := d } ∧ (frameOf d i).enqueued = true ∧ ({ d with coll := {}, ledger := {}, counters := {}, tm := {}, frames := [], copies := [], nextCopy := 0, release := {}, out := [] } : Dev) = { now t s with coll := {}, ledger := {}, counters := {}, tm := {}, frames := [], copies := [], nextCopy := 0, release := {}, out := [] })
  ∧ (∀ (s : State) (t i a : Nat), let f := frameOf s.dev i
      hasFrame s.dev i = true → f.state = 1 → f.pass = 1 → f.again = true → f.lookedAt = some a → a + 640 ≤ (now t s).clock →
      ∃ d, exec (.recirculation t i) s = .next { s with dev := d } ∧ frameOf d i = secondPass (now t s) f ∧ (∀ c ∈ f.copies, (copyOf d c).void = true)
        ∧ (∀ k, k ≠ i → frameOf d k = frameOf s.dev k) ∧ ({ d with frames := [], copies := [] } : Dev) = { now t s with frames := [], copies := [] })
  ∧ (∀ (s : State) (t i : Nat) (reread : Option (List Byte)), let f := frameOf s.dev i
      hasFrame s.dev i = true → f.state = 1 → f.doomed = none → received (now t s) f = f.bytes.length + 4 → f.again = false → f.injected = none →
      f.bytes.length + 4 ≤ (portOf s.dev f.port).mtu →
      (crc32 f.bytes = f.fcs → 60 ≤ f.bytes.length → f.enqueued = true → deferred f = none →
        ∃ d, exec (.confirmation t i false false reread) s = .next { s with dev := d } ∧ (hasFrame d i = true → (frameOf d i).state = 2)
          ∧ (∀ st, f.stream = some st → f.refused = false → f.drop = none → (streamOf d st).next = ((streamOf s.dev st).next + 1) % 2 ^ 32)
          ∧ ({ d with fns := [], helm := {}, coll := {}, guard := {}, ptp := {}, ledger := {}, pair := {}, counters := {}, tm := {}, frames := [], copies := [], nextCopy := 0, release := {}, dma := {}, cistern := {}, tables := {}, out := [] } : Dev) = { now t s with fns := [], helm := {}, coll := {}, guard := {}, ptp := {}, ledger := {}, pair := {}, counters := {}, tm := {}, frames := [], copies := [], nextCopy := 0, release := {}, dma := {}, cistern := {}, tables := {}, out := [] })
      ∧ (crc32 f.bytes ≠ f.fcs →
        ∃ d, exec (.confirmation t i false false reread) s = .next { s with dev := d } ∧ (hasFrame d i = true → (frameOf d i).state = 3 ∧ (frameOf d i).seq = none)
          ∧ d.guard = s.dev.guard ∧ d.ledger = s.dev.ledger ∧ ({ d with fns := [], helm := {}, coll := {}, guard := {}, ptp := {}, ledger := {}, pair := {}, counters := {}, tm := {}, frames := [], copies := [], nextCopy := 0, release := {}, dma := {}, cistern := {}, tables := {}, out := [] } : Dev) = { now t s with fns := [], helm := {}, coll := {}, guard := {}, ptp := {}, ledger := {}, pair := {}, counters := {}, tm := {}, frames := [], copies := [], nextCopy := 0, release := {}, dma := {}, cistern := {}, tables := {}, out := [] }))

-- Pairs: the Tether -------------------------------------------------------------------------------------------------------------------------------

/-- What a unit of a Pair sends on its Tether, each message under its kind's next number. TETHER_LINK_UP and HELLO_SEND: a HELLO.
HEARTBEAT_SEND: a HEARTBEAT. SENT_REPORT_SEND: a report of up to 512 of the slots that changed, while the last-sent table is open.
FINAL_REPORT_SEND: the FINAL report that a freeze owes. HEALTH_SEND: the health record, after which the counts of its period start again,
and a condition of GOOD that fails then fails in the new period. TETHER_RETRANSMIT: every kept message that is 10 µs old is sent anew under
its number. The layouts of bodies that the spec leaves open are the model's (log 16). The frames name every part of the device that these
events can change. -/
def Obligations.TetherSendsComplete : Prop :=  (∀ (s : State) (t : Nat), ∃ d, exec (.tetherLinkUp t) s = .next { s with dev := d } ∧ d.pair.pcsUp = true
    ∧ (s.dev.pair.mode = 1 → d.out = .tether 0x20 (tget 0 s.dev.pair.msgSeq 0x20) (tetherTicks (now t s)) (helloBody s.dev) :: s.dev.out) ∧ ({ d with coll := {}, pair := {}, out := [] } : Dev) = { now t s with coll := {}, pair := {}, out := [] })
  ∧ (∀ (s : State) (t : Nat), s.dev.pair.mode = 1 → s.dev.pair.pcsUp = true → s.dev.pair.tetherUp = false →
      ∃ d, exec (.helloSend t) s = .next { s with dev := d }
        ∧ d.out = .tether 0x20 (tget 0 s.dev.pair.msgSeq 0x20) (tetherTicks (now t s)) (helloBody s.dev) :: s.dev.out
        ∧ ({ d with pair := {}, out := [] } : Dev) = { now t s with pair := {}, out := [] })
  ∧ (∀ (s : State) (t : Nat), s.dev.pair.mode = 1 → s.dev.pair.tetherUp = true →
      ∃ d, exec (.heartbeatSend t) s = .next { s with dev := d }
        ∧ d.out = .tether 0x21 (tget 0 s.dev.pair.msgSeq 0x21) (tetherTicks (now t s)) (heartbeatBody (now t s)) :: s.dev.out
        ∧ tget 0 d.pair.msgSeq 0x21 = (tget 0 s.dev.pair.msgSeq 0x21 + 1) % 2 ^ 32
        ∧ ({ d with pair := {}, out := [] } : Dev) = { now t s with pair := {}, out := [] })
  ∧ (∀ (s : State) (t : Nat), s.dev.pair.mode = 1 → s.dev.pair.tetherUp = true → s.dev.pair.role ≤ 1 → s.dev.guard.closed = false →
      ∃ d r, exec (.sentReportSend t) s = .next { s with dev := d } ∧ d.pair.reports.head? = some r ∧ r.num = s.dev.pair.nextReport ∧ r.final = false
        ∧ r.entries.map (·.1) = s.dev.guard.changed.take 512 ∧ d.guard.changed = s.dev.guard.changed.drop 512
        ∧ d.pair.nextReport = (s.dev.pair.nextReport + 1) % 2 ^ 32 ∧ ({ d with guard := {}, pair := {}, out := [] } : Dev) = { now t s with guard := {}, pair := {}, out := [] })
  ∧ (∀ (s : State) (t : Nat), s.dev.pair.mode = 1 → s.dev.pair.tetherUp = true → s.dev.guard.finalDue = true →
      (s.dev.pair.role ≠ 1 ∨ s.dev.guard.closed = true ∨ s.dev.pair.planned = none) →
      ∃ d r, exec (.finalReportSend t) s = .next { s with dev := d } ∧ d.pair.reports.head? = some r ∧ r.final = true ∧ d.guard.finalDue = false
        ∧ d.guard.finalSent = true ∧ d.pair.role = s.dev.pair.role ∧ ({ d with pair := {}, guard := {}, out := [] } : Dev) = { now t s with pair := {}, guard := {}, out := [] })
  ∧ (∀ (s : State) (t corrected uncorrectable : Nat), let e := if uncorrectable = 0 then now t s else noteBad (now t s)
      let b := healthBytes (goodNow e) corrected uncorrectable e
      s.dev.pair.mode = 1 → s.dev.pair.tetherUp = true →
      ∃ d, exec (.healthSend t corrected uncorrectable) s = .next { s with dev := d }
        ∧ d.out = .tether 0x26 (tget 0 s.dev.pair.msgSeq 0x26) (tetherTicks (now t s)) b :: s.dev.out
        ∧ d.pair.testsRun = 0 ∧ d.pair.testsFailed = 0 ∧ d.pair.scrubCorr = 0 ∧ d.pair.scrubUncorr = 0 ∧ d.pair.periodDisputes = 0
        ∧ d.pair.bad = !goodNow { e with pair := { e.pair with bad := false } }
        ∧ d.pair.healthOut = (if s.dev.pair.healthRing.isSome then s.dev.pair.healthOut ++ [b] else s.dev.pair.healthOut) ∧ ({ d with pair := {}, out := [] } : Dev) = { now t s with pair := {}, out := [] })
  ∧ (∀ (s : State) (t : Nat), s.dev.pair.tetherUp = true →
      ∃ d, exec (.tetherRetransmit t) s = .next { s with dev := d }
        ∧ d.pair.unacked = s.dev.pair.unacked.map (fun u => if u.sentAt + 160000 ≤ (now t s).clock then { u with sentAt := (now t s).clock } else u)
        ∧ d.out = (s.dev.pair.unacked.filter fun u => decide (u.sentAt + 160000 ≤ (now t s).clock)).foldl
            (fun o u => (if u.subtype = 0x27 then .snapshot u.seq (tetherTicks (now t s)) (snapshotOf (now t s))
              else .tether u.subtype u.seq (tetherTicks (now t s)) u.body) :: o) s.dev.out
        ∧ d.pair = { s.dev.pair with unacked := d.pair.unacked } ∧ ({ d with pair := {}, out := [] } : Dev) = { now t s with pair := {}, out := [] })

/-- What a unit of a Pair takes from its Tether. HELLO_RECEIVE pairs, or refuses for the first cause of R301's table. TETHER_ECHO: the latency
measured. HEARTBEAT_RECEIVE: a SOLO unit becomes ACTIVE beside a STANDBY, and an ACTIVE one SOLO beside a FENCED partner. SENT_RECEIVE: a
unit that does not send takes a slot's newer last-sent value. RECEIPT_RECEIVE: a receipt is kept. DISPUTE_RECEIVE: what the partner settled
is kept. MIRROR_RECEIVE, for a digest that comes in order: it is published and acknowledged. CONTROL_RECEIVE, for an acknowledgement, a
request for a report, and a request to align streams: what is kept for the first goes, the second is done and acknowledged, and the third
notes which streams have diverged (log 100). HEALTH_RECEIVE: the partner's record. SNAPSHOT_RECEIVE: the tables are written and the message
is acknowledged. A message whose frame fails its FCS is discarded and counted (that HELLO and SNAPSHOT are not among them is log 16's). The
layouts of bodies that the spec leaves open are the model's (log 16). The frames name every part of the device that these events can change. -/
def Obligations.TetherReceivesComplete : Prop :=  (∀ (s : State) (t latency : Nat) (body : List Byte), s.dev.pair.mode = 1 → s.dev.pair.pcsUp = true → s.dev.pair.tetherUp = false →
    ∃ d, exec (.helloReceive t body latency) s = .next { s with dev := d } ∧ d.pair.tetherUp = (refusal s.dev body latency == 0)
      ∧ d.pair.refused = refusal s.dev body latency ∧ (refusal s.dev body latency = 0 → d.pair.handshake = true ∧ d.pair.hbAt = some (now t s).clock)
      ∧ ({ d with fns := [], helm := {}, guard := {}, ledger := {}, pair := {}, counters := {}, frames := [], copies := [], ports := [], out := [] } : Dev) = { now t s with fns := [], helm := {}, guard := {}, ledger := {}, pair := {}, counters := {}, frames := [], copies := [], ports := [], out := [] })
  ∧ (∀ (s : State) (t latency : Nat), s.dev.pair.pcsUp = true →
      ∃ d, exec (.tetherEcho t latency) s = .next { s with dev := d } ∧ d.pair = { s.dev.pair with latency := min latency 0xFFFF }
        ∧ ({ d with pair := {} } : Dev) = { now t s with pair := {} })
  ∧ (∀ (s : State) (t : Nat) (msg : TMsg), msg.fcs = false →
      ∀ i ∈ [Instr.heartbeatReceive t msg, .sentReceive t msg, .receiptReceive t msg, .disputeReceive t msg, .mirrorReceive t msg, .controlReceive t msg,
             .healthReceive t msg],
        exec i s = .next { s with dev := { now t s with pair := { s.dev.pair with fcsErrors := s.dev.pair.fcsErrors + 1 } } })
  ∧ (∀ (s : State) (t : Nat) (msg : TMsg), msg.fcs = true → s.dev.pair.mode = 1 → s.dev.pair.tetherUp = true → s.dev.pair.partnerLate = false →
      (s.dev.pair.role = 0 → beAt msg.body 0 1 = 2 →
        ∃ d, exec (.heartbeatReceive t msg) s = .next { s with dev := d } ∧ d.pair.role = 1 ∧ d.pair.lastCause = 17 ∧ d.pair.hbAt = some (now t s).clock
          ∧ d.pair.partnerRole = 2 ∧ ({ d with fns := [], helm := {}, guard := {}, ledger := {}, pair := {}, counters := {}, tm := {}, frames := [], copies := [], nextFrame := 0, nextCopy := 0, ports := [], release := {}, steward := {}, cascade := {}, tables := {}, out := [] } : Dev) = { now t s with fns := [], helm := {}, guard := {}, ledger := {}, pair := {}, counters := {}, tm := {}, frames := [], copies := [], nextFrame := 0, nextCopy := 0, ports := [], release := {}, steward := {}, cascade := {}, tables := {}, out := [] })
      ∧ (s.dev.pair.role = 1 → beAt msg.body 0 1 = 4 →
        ∃ d, exec (.heartbeatReceive t msg) s = .next { s with dev := d } ∧ d.pair.role = 0 ∧ d.pair.lastCause = 14
          ∧ ({ d with fns := [], helm := {}, guard := {}, ledger := {}, pair := {}, counters := {}, tm := {}, frames := [], copies := [], nextFrame := 0, nextCopy := 0, ports := [], release := {}, steward := {}, cascade := {}, tables := {}, out := [] } : Dev) = { now t s with fns := [], helm := {}, guard := {}, ledger := {}, pair := {}, counters := {}, tm := {}, frames := [], copies := [], nextFrame := 0, nextCopy := 0, ports := [], release := {}, steward := {}, cascade := {}, tables := {}, out := [] }))
  ∧ (∀ (s : State) (t k n : Nat) (msg : TMsg), msg.fcs = true → s.dev.pair.mode = 1 → s.dev.pair.tetherUp = true → 2 ≤ s.dev.pair.role → 5 ≤ msg.body.length →
      sentEntries msg.body = [(k, n)] → k < 2 ^ 18 →
      ∃ d, exec (.sentReceive t msg) s = .next { s with dev := d }
        ∧ ((streamOf d (k / 4)).slots[k % 4]?).map (·.lastSent)
          = ((streamOf s.dev (k / 4)).slots[k % 4]?).map (fun x => if seqAfter n x.lastSent then n else x.lastSent)
        ∧ (∀ j, j ≠ k / 4 → streamOf d j = streamOf s.dev j) ∧ ({ d with guard := {}, pair := {}, out := [] } : Dev) = { now t s with guard := {}, pair := {}, out := [] })
  ∧ (∀ (s : State) (t : Nat) (msg : TMsg) (r : Receipt), msg.fcs = true → s.dev.pair.mode = 1 → s.dev.pair.tetherUp = true →
      receiptEntries msg.body (now t s).clock = [r] →
      ∃ d, exec (.receiptReceive t msg) s = .next { s with dev := d } ∧ r ∈ d.pair.receipts ∧ d.pair.role = s.dev.pair.role
        ∧ ({ d with guard := {}, ledger := {}, pair := {}, counters := {}, frames := [], copies := [] } : Dev) = { now t s with guard := {}, ledger := {}, pair := {}, counters := {}, frames := [], copies := [] })
  ∧ (∀ (s : State) (t : Nat) (msg : TMsg), msg.fcs = true → s.dev.pair.mode = 1 → s.dev.pair.tetherUp = true →
      ∃ d, exec (.disputeReceive t msg) s = .next { s with dev := d }
        ∧ d.pair.theirSettled = (beAt msg.body 0 2, beAt msg.body 2 4, beAt msg.body 6 1 != 0 && beAt msg.body 7 1 != 0) :: s.dev.pair.theirSettled.take 63
        ∧ ({ d with fns := [], helm := {}, guard := {}, ledger := {}, pair := {}, counters := {}, frames := [], copies := [], ports := [] } : Dev) = { now t s with fns := [], helm := {}, guard := {}, ledger := {}, pair := {}, counters := {}, frames := [], copies := [], ports := [] })
  ∧ (∀ (s : State) (t : Nat) (msg : TMsg), let q := msg.body.drop 10
      msg.fcs = true → s.dev.pair.mode = 1 → s.dev.pair.tetherUp = true → sendingUnit s.dev = false → s.dev.helm.state = 1 → s.dev.pair.mirrorIn = [] →
      s.dev.pair.mirrorPart = [] →
      msg.seq = s.dev.pair.mirrorNext → s.dev.pair.mirrorNext < 2 ^ 32 → beAt msg.body 0 2 = 0x0C04 →
      ∃ d, exec (.mirrorReceive t msg) s = .next { s with dev := d } ∧ d.pair.mirrorNext = (msg.seq + 1) % 2 ^ 32
        ∧ d.pair.digestsA = (if u8 q 0 = 0 then (slice q 4 32 :: s.dev.pair.digestsA).take 4 else s.dev.pair.digestsA)
        ∧ d.pair.digestsB = (if u8 q 0 = 0 then s.dev.pair.digestsB else (slice q 4 32 :: s.dev.pair.digestsB).take 4)
        ∧ d.out = .tether 0x28 (tget 0 s.dev.pair.msgSeq 0x28) (tetherTicks (now t s)) (controlBody 0x24 msg.seq) :: s.dev.out ∧ ({ d with pair := {}, out := [] } : Dev) = { now t s with pair := {}, out := [] })
  ∧ (∀ (s : State) (t : Nat) (msg : TMsg), let what := beAt msg.body 0 2; let arg := beAt msg.body 2 4
      msg.fcs = true → s.dev.pair.mode = 1 → s.dev.pair.tetherUp = true →
      (0x20 ≤ what → ∃ d, exec (.controlReceive t msg) s = .next { s with dev := d }
        ∧ d.pair.unacked = s.dev.pair.unacked.filter (fun u => !(u.subtype == what && u.seq == arg)) ∧ ({ d with fns := [], helm := {}, pair := {}, counters := {}, steward := {}, out := [] } : Dev) = { now t s with fns := [], helm := {}, pair := {}, counters := {}, steward := {}, out := [] })
      ∧ (what = 3 → s.dev.pair.role ≤ 1 → s.dev.helm.state = 1 → s.dev.pair.controlSeen.contains msg.seq = false →
        ∃ d, exec (.controlReceive t msg) s = .next { s with dev := d } ∧ d.pair.controlSeen = msg.seq :: s.dev.pair.controlSeen.take 63
          ∧ d.pair.healing = s.dev.guard.streams.filterMap (fun e => if e.2.diverged then some e.1 else none)
          ∧ d.out = .tether 0x28 (tget 0 s.dev.pair.msgSeq 0x28) (tetherTicks (now t s)) (controlBody 0x28 msg.seq) :: s.dev.out ∧ ({ d with pair := {}, out := [] } : Dev) = { now t s with pair := {}, out := [] })
      ∧ (what = 4 → s.dev.pair.controlSeen.contains msg.seq = false →
        ∃ d, exec (.controlReceive t msg) s = .next { s with dev := d } ∧ d.pair.controlSeen = msg.seq :: s.dev.pair.controlSeen.take 63
          ∧ d.out.head? = some (.tether 0x28 (tget 0 s.dev.pair.msgSeq 0x28) (tetherTicks (now t s)) (controlBody 0x28 msg.seq)) ∧ ({ d with pair := {}, out := [] } : Dev) = { now t s with pair := {}, out := [] }))
  ∧ (∀ (s : State) (t : Nat) (msg : TMsg), msg.fcs = true → s.dev.pair.mode = 1 → s.dev.pair.tetherUp = true →
      ∃ d, exec (.healthReceive t msg) s = .next { s with dev := d } ∧ d.pair = { s.dev.pair with partnerHealth := padTo 64 msg.body }
        ∧ ({ d with pair := {} } : Dev) = { now t s with pair := {} })
  ∧ (∀ (s : State) (t seq : Nat) (data : Snapshot) (tk : Option Nat) (again : Bool), s.dev.pair.mode = 1 → s.dev.pair.tetherUp = true →
      s.dev.pair.resync = some (0, tk, again) → s.dev.pair.role = 3 → s.dev.pair.sync = 1 → s.dev.helm.state = 1 →
      ∃ d, exec (.snapshotReceive t seq data) s = .next { s with dev := d } ∧ d.tables.current = data.current ∧ d.tables.defs = data.defs
        ∧ d.tables.em = data.em ∧ d.tables.mcast = data.mcast ∧ d.pair.role = 3
        ∧ Emission.tether 0x28 (tget 0 s.dev.pair.msgSeq 0x28) (tetherTicks (now t s)) (controlBody 0x27 seq) ∈ d.out ∧ ({ d with fns := [], helm := {}, guard := {}, pair := {}, counters := {}, tm := {}, copies := [], release := {}, steward := {}, tables := {}, out := [] } : Dev) = { now t s with fns := [], helm := {}, guard := {}, pair := {}, counters := {}, tm := {}, copies := [], release := {}, steward := {}, tables := {}, out := [] })

/-- TETHER_LINK_DOWN: the PCS and the Tether are down. HEARTBEAT_TIMEOUT: while the Pulse shows ALIVE a STANDBY goes STALE, but for one that is
about to take over, and an ACTIVE suspends its acceptance. CONTACT_LOST: an ACTIVE goes on as SOLO where the Witness lets it, and else
freezes and is FENCED. SENT_REPORT_TIMEOUT and MIRROR_TIMEOUT: the STANDBY goes STALE. DISPUTE_WINDOW_CLOSE: up to four frames of the oldest
closed window are given to the Steward, and the rest of that window are only counted. PULSE_PATTERN: SAFE or LEAVING triggers a STANDBY's
takeover, and leaves an ACTIVE SOLO. PULSE_TIMEOUT: no pattern for 4 µs. WITNESS_VERDICT and WITNESS_ABSENT set and take away the verdict of
WITNESS_IN. TEST_HEADER counts. The frames name every part of the device that these events can change. -/
def Obligations.PairContactEventsComplete : Prop :=  (∀ (s : State) (t lane : Nat), s.dev.pair.pcsUp = true → ∃ d, exec (.tetherLinkDown t lane) s = .next { s with dev := d } ∧ d.pair.pcsUp = false
    ∧ d.pair.tetherUp = false ∧ ({ d with fns := [], helm := {}, coll := {}, guard := {}, ledger := {}, pair := {}, counters := {}, frames := [], copies := [], ports := [] } : Dev) = { now t s with fns := [], helm := {}, coll := {}, guard := {}, ledger := {}, pair := {}, counters := {}, frames := [], copies := [], ports := [] })
  ∧ (∀ (s : State) (t : Nat), s.dev.pair.tetherUp = true → s.dev.pair.pcsUp = true → hasHeartbeat (now t s) = false →
      ∃ d, exec (.heartbeatTimeout t) s = .next { s with dev := d } ∧ d.pair.tetherUp = false ∧ d.pair.pcsUp = true
        ∧ (s.dev.pair.mode = 1 → s.dev.pair.pulse = some 0 → s.dev.pair.role = 2 → takesOver s.dev = false → d.pair.role = 3 ∧ d.pair.lastCause = 10)
        ∧ (s.dev.pair.mode = 1 → s.dev.pair.pulse = some 0 → s.dev.pair.role = 1 → d.pair.role = 1 ∧ d.pair.promiseSuspended = true)
        ∧ ({ d with fns := [], helm := {}, guard := {}, ledger := {}, pair := {}, counters := {}, frames := [], copies := [], ports := [] } : Dev) = { now t s with fns := [], helm := {}, guard := {}, ledger := {}, pair := {}, counters := {}, frames := [], copies := [], ports := [] })
  ∧ (∀ (s : State) (t : Nat), s.dev.pair.mode = 1 → s.dev.pair.contact = true → contactLost (now t s) = true → s.dev.pair.role = 1 →
      (maySend (now t s) = true → ∃ d, exec (.contactLost t) s = .next { s with dev := d } ∧ d.pair.role = 0 ∧ d.pair.lastCause = 16
          ∧ ({ d with fns := [], helm := {}, guard := {}, ledger := {}, pair := {}, counters := {}, tm := {}, frames := [], copies := [], ports := [], release := {}, out := [] } : Dev) = { now t s with fns := [], helm := {}, guard := {}, ledger := {}, pair := {}, counters := {}, tm := {}, frames := [], copies := [], ports := [], release := {}, out := [] })
      ∧ (maySend (now t s) = false → ∃ d, exec (.contactLost t) s = .next { s with dev := d } ∧ d.pair.role = 4 ∧ d.pair.lastCause = 15
          ∧ d.guard.frozen = true ∧ ({ d with fns := [], helm := {}, guard := {}, ledger := {}, pair := {}, counters := {}, tm := {}, frames := [], copies := [], ports := [], release := {}, out := [] } : Dev) = { now t s with fns := [], helm := {}, guard := {}, ledger := {}, pair := {}, counters := {}, tm := {}, frames := [], copies := [], ports := [], release := {}, out := [] }))
  ∧ (∀ (s : State) (t : Nat), ((s.dev.pair.missing ++ s.dev.pair.partialAt).any fun e => decide (32000 ≤ (now t s).clock - e.2)) = true → s.dev.pair.mode = 1 → s.dev.pair.role = 2 →
      ∃ d, exec (.sentReportTimeout t) s = .next { s with dev := d } ∧ d.pair.role = 3 ∧ d.pair.lastCause = 10 ∧ d.pair.missing = [] ∧ d.pair.partialAt = []
        ∧ ({ d with fns := [], helm := {}, guard := {}, ledger := {}, pair := {}, counters := {}, frames := [], copies := [], ports := [] } : Dev) = { now t s with fns := [], helm := {}, guard := {}, ledger := {}, pair := {}, counters := {}, frames := [], copies := [], ports := [] })
  ∧ (∀ (s : State) (t : Nat), s.dev.pair.mode = 1 → s.dev.pair.role = 2 →
      (s.dev.pair.mirrorAt.any fun e => decide (160000000 ≤ (now t s).clock - e.2)) = true →
      ∃ d, exec (.mirrorTimeout t) s = .next { s with dev := d } ∧ d.pair.role = 3 ∧ d.pair.lastCause = 10 ∧ ({ d with fns := [], helm := {}, guard := {}, ledger := {}, pair := {}, counters := {}, frames := [], copies := [], ports := [] } : Dev) = { now t s with fns := [], helm := {}, guard := {}, ledger := {}, pair := {}, counters := {}, frames := [], copies := [], ports := [] })
  ∧ (∀ (s : State) (t : Nat) (w : Dispute) (ws : List Dispute), let due := (w :: ws).filter fun x => x.window == w.window
      s.dev.pair.disputed = w :: ws → w.window < tetherTicks (now t s) / 4096 → opVerdict s.dev 0x10 0 = stOk →
      ∃ d, exec (.disputeWindowClose t) s = .next { s with dev := d } ∧ d.pair.disputed = (w :: ws).filter (fun x => x.window != w.window)
        ∧ d.steward.ops = s.dev.steward.ops ++ [{ id := s.dev.steward.nextOp, code := 0x10, req := (due.take 4).flatMap disputeBytes }]
        ∧ ({ d with pair := {}, steward := {} } : Dev) = { now t s with pair := {}, steward := {} })
  ∧ (∀ (s : State) (t pattern : Nat), pattern ≤ 2 →
      ∃ d, exec (.pulsePattern t pattern) s = .next { s with dev := d } ∧ d.pair.pulse = some pattern ∧ d.pair.pulseAt = (now t s).clock
        ∧ (s.dev.pair.mode = 1 → pattern ≠ 0 → s.dev.pair.pulse ≠ some pattern → s.dev.pair.role = 2 → s.dev.pair.trigger = none →
            d.pair.trigger = some ((now t s).clock, 7, false))
        ∧ (s.dev.pair.mode = 1 → pattern ≠ 0 → s.dev.pair.pulse ≠ some pattern → s.dev.pair.role = 1 → d.pair.role = 0 ∧ d.pair.lastCause = 14)
        ∧ ({ d with fns := [], helm := {}, coll := {}, guard := {}, ledger := {}, pair := {}, counters := {}, frames := [], copies := [], ports := [] } : Dev) = { now t s with fns := [], helm := {}, coll := {}, guard := {}, ledger := {}, pair := {}, counters := {}, frames := [], copies := [], ports := [] })
  ∧ (∀ (s : State) (t : Nat), s.dev.pair.pulse.isSome = true → s.dev.pair.pulseAt + 64000 ≤ (now t s).clock →
      ∃ d, exec (.pulseTimeout t) s = .next { s with dev := d } ∧ d.pair.pulse = none ∧ d.pair.role = s.dev.pair.role ∧ ({ d with fns := [], coll := {}, pair := {}, counters := {} } : Dev) = { now t s with fns := [], coll := {}, pair := {}, counters := {} })
  ∧ (∀ (s : State) (t : Nat) (grant : Bool), ∃ d, exec (.witnessVerdict t grant) s = .next { s with dev := d }
      ∧ d.pair = { s.dev.pair with witnessIn := some grant } ∧ ({ d with pair := {} } : Dev) = { now t s with pair := {} })
  ∧ (∀ (s : State) (t : Nat), ∃ d, exec (.witnessAbsent t) s = .next { s with dev := d } ∧ d.pair.witnessIn = none
      ∧ ({ d with pair := {} } : Dev) = { now t s with pair := {} })
  ∧ (∀ (s : State) (t basin : Nat) (good : Bool), ∃ d, exec (.testHeader t basin good) s = .next { s with dev := d }
      ∧ d.pair.testsRun = s.dev.pair.testsRun + 1 ∧ d.pair.testsFailed = s.dev.pair.testsFailed + b2n (!good)
      ∧ ({ d with pair := {} } : Dev) = { now t s with pair := {} })

/-- START_WAIT_EXPIRY: a FENCED unit that the Witness lets send becomes SOLO. TAKEOVER_DECISION: a STANDBY becomes SOLO once the FINAL report is
there, and is FENCED where contact is lost and the Witness denies it. PLANNED_SWAP_BEAT: at its beat, with no guarded copy being sent, the
ACTIVE is STANDBY and has sent its FINAL report. REVERTIVE_SWAP: a preferred STANDBY asks for the swap back. RESYNC_START: a STALE unit asks
for a resynchronisation. STREAM_ALIGN_TIMEOUT: 10 µs on, every stream with slots has its cut. SYNCHRONOUS: with every stream aligned the
STALE unit is STANDBY. The frames name every part of the device that these events can change. -/
def Obligations.PairRoleEventsComplete : Prop :=  (∀ (s : State) (t : Nat), s.dev.pair.mode = 1 → s.dev.pair.role = 4 → s.dev.guard.cause = 0 → contactLost (now t s) = true →
    s.dev.pair.noContactSince + s.dev.pair.startWait * 16000000000 ≤ (now t s).clock → maySend (now t s) = true →
    ∃ d, exec (.startWaitExpiry t) s = .next { s with dev := d } ∧ d.pair.role = 0 ∧ d.pair.lastCause = 3 ∧ d.guard.frozen = false
      ∧ ({ d with fns := [], helm := {}, guard := {}, ledger := {}, pair := {}, counters := {}, tm := {}, frames := [], copies := [], nextFrame := 0, nextCopy := 0, ports := [], release := {} } : Dev) = { now t s with fns := [], helm := {}, guard := {}, ledger := {}, pair := {}, counters := {}, tm := {}, frames := [], copies := [], nextFrame := 0, nextCopy := 0, ports := [], release := {} })
  ∧ (∀ (s : State) (t a : Nat), s.dev.pair.trigger = some (a, 7, true) → s.dev.pair.role = 2 →
      ∃ d, exec (.takeoverDecision t) s = .next { s with dev := d } ∧ d.pair.role = 0 ∧ d.pair.lastCause = 7 ∧ d.pair.trigger = none ∧ d.guard.frozen = false
        ∧ ({ d with fns := [], helm := {}, guard := {}, ledger := {}, pair := {}, counters := {}, tm := {}, frames := [], copies := [], nextFrame := 0, nextCopy := 0, ports := [], release := {}, steward := {}, cascade := {}, tables := {}, out := [] } : Dev) = { now t s with fns := [], helm := {}, guard := {}, ledger := {}, pair := {}, counters := {}, tm := {}, frames := [], copies := [], nextFrame := 0, nextCopy := 0, ports := [], release := {}, steward := {}, cascade := {}, tables := {}, out := [] })
  ∧ (∀ (s : State) (t a : Nat) (final : Bool), s.dev.pair.trigger = some (a, 8, final) → s.dev.pair.role = 2 → contactLost (now t s) = true →
      maySend (now t s) = false →
      ∃ d, exec (.takeoverDecision t) s = .next { s with dev := d } ∧ d.pair.role = 4 ∧ d.pair.lastCause = 9 ∧ d.pair.trigger = none ∧ ({ d with fns := [], helm := {}, guard := {}, ledger := {}, pair := {}, counters := {}, tm := {}, frames := [], copies := [], nextFrame := 0, nextCopy := 0, ports := [], release := {}, steward := {}, cascade := {}, tables := {}, out := [] } : Dev) = { now t s with fns := [], helm := {}, guard := {}, ledger := {}, pair := {}, counters := {}, tm := {}, frames := [], copies := [], nextFrame := 0, nextCopy := 0, ports := [], release := {}, steward := {}, cascade := {}, tables := {}, out := [] })
  ∧ (∀ (s : State) (t beat : Nat) (tk : Option Nat), s.dev.pair.planned = some (beat, tk) → s.dev.pair.role = 1 → s.dev.pair.tetherUp = true →
      s.dev.guard.frozen = false → beat ≤ coreTicks (now t s).time.west / 4096 → (∀ i ∈ transmitting s.dev, (copyOf s.dev i).slot = none) →
      ∃ d, exec (.plannedSwapBeat t) s = .next { s with dev := d } ∧ d.pair.role = 2 ∧ d.pair.lastCause = 13 ∧ d.pair.plannedSent = true
        ∧ d.guard.finalSent = true ∧ ({ d with fns := [], helm := {}, guard := {}, ledger := {}, pair := {}, counters := {}, frames := [], copies := [], ports := [], out := [] } : Dev) = { now t s with fns := [], helm := {}, guard := {}, ledger := {}, pair := {}, counters := {}, frames := [], copies := [], ports := [], out := [] })
  ∧ (∀ (s : State) (t : Nat), let p := s.dev.pair
      p.mode = 1 → p.revertive = true → p.rolePref = true → p.role = 2 → p.partnerRole = 1 → p.tetherUp = true → p.planned = none → p.resync = none →
      p.sending = false → p.goodSince + p.holdOff * 16000000000 ≤ (now t s).clock → (∀ e ∈ s.dev.guard.streams, e.2.diverged = false) →
      ∃ d, exec (.revertiveSwap t) s = .next { s with dev := d } ∧ d.pair.planned = some (0, none)
        ∧ d.out = .tether 0x28 (tget 0 p.msgSeq 0x28) (tetherTicks (now t s)) (controlBody 1 0) :: s.dev.out ∧ ({ d with pair := {}, out := [] } : Dev) = { now t s with pair := {}, out := [] })
  ∧ (∀ (s : State) (t : Nat), s.dev.pair.mode = 1 → s.dev.pair.role = 3 → s.dev.pair.autoResync = true → s.dev.pair.tetherUp = true →
      hasHeartbeat (now t s) = true → s.dev.pair.resync = none → s.dev.guard.cause = 0 → causeCleared (now t s) = true → s.dev.helm.state = 1 →
      ∃ d, exec (.resyncStart t) s = .next { s with dev := d } ∧ d.pair.resync = some (0, none, false) ∧ d.pair.sync = 1
        ∧ d.out = .tether 0x28 (tget 0 s.dev.pair.msgSeq 0x28) (tetherTicks (now t s)) (controlBody 2 0) :: s.dev.out ∧ ({ d with guard := {}, pair := {}, out := [] } : Dev) = { now t s with guard := {}, pair := {}, out := [] })
  ∧ (∀ (s : State) (t a : Nat), s.dev.pair.alignAt = some a → s.dev.pair.role = 3 → s.dev.pair.sync = 2 → a + 160000 ≤ (now t s).clock →
      ∃ d, exec (.streamAlignTimeout t) s = .next { s with dev := d } ∧ (∀ e ∈ d.guard.streams, e.2.slots = [] ∨ e.2.cut.isSome = true)
        ∧ d.pair = { s.dev.pair with recent := d.pair.recent }
        ∧ (∀ x ∈ d.pair.recent, x ∈ s.dev.pair.recent ∧ ∀ e ∈ s.dev.guard.streams, e.1 = x.stream → e.2.slots = [] ∨ e.2.cut.isSome = true)
        ∧ ({ d with guard := {}, pair := {} } : Dev) = { now t s with guard := {}, pair := {} })
  ∧ (∀ (s : State) (t scope : Nat) (tk : Option Nat) (again : Bool), s.dev.pair.resync = some (scope, tk, again) → s.dev.pair.mode = 1 → s.dev.pair.role = 3 →
      s.dev.pair.sync = 2 → s.dev.guard.cause = 0 → s.dev.pair.tetherUp = true → allAligned s.dev = true →
      ∃ d, exec (.synchronous t) s = .next { s with dev := d } ∧ d.pair.role = 2 ∧ d.pair.lastCause = 6 ∧ d.pair.sync = 3 ∧ d.pair.resync = none
        ∧ d.guard.frozen = false ∧ ({ d with fns := [], helm := {}, guard := {}, ledger := {}, pair := {}, counters := {}, frames := [], copies := [], ports := [] } : Dev) = { now t s with fns := [], helm := {}, guard := {}, ledger := {}, pair := {}, counters := {}, frames := [], copies := [], ports := [] })

/-- pair.configure sets every setting, and a change of MODE waits for a unit out of contact; into solo mode the role is SOLO, and into pair mode
it stays as it is (log 46). pair.status answers the state of the Pair and changes nothing. pair.takeover on the ACTIVE fixes a planned
swap's beat, 34 beats ahead (log 33), or forces a STALE or FENCED unit without contact to SOLO. pair.digest publishes a digest. pair.resync
begins a resynchronisation of a STALE unit, with a ticket. The frames name every part of the device that these commands can change. -/
def Obligations.PairCommandsComplete : Prop :=  (∀ (s : State) (c : Cmd), let q := c.req; let p := s.dev.pair
    Takes s c 16 → u8 q 4 = p.mode → u8 q 4 ≤ 1 → u8 q 5 ≤ 2 → u8 q 6 ≤ 2 → u8 q 7 ≤ 3 → u16 q 8 ≤ 3600 → u16 q 10 ≤ 600 →
    nameable s.dev (boxFn s.dev c.box) (u16 q 12) p.healthRing = true → u16 q 14 = 0 → (u32 q 0 = p.pairId ∧ u8 q 5 = p.downstream ∨ pairIdle (now c.t s) = true) →
    let y : Pair := { p with pairId := u32 q 0, downstream := u8 q 5, witness := u8 q 6, revertive := bitOf (u8 q 7) 0, autoResync := bitOf (u8 q 7) 1,
                             holdOff := if u16 q 8 = 0 then 60 else u16 q 8, startWait := if u16 q 10 = 0 then 10 else u16 q 10,
                             healthRing := ringName (u16 q 12) }
    ∃ d, exec (.pairConfigure c) s = .next { s with dev := d } ∧ Answers d c stOk 4 [] ∧ d.pair = y
      ∧ ({ d with pair := {}, boxes := [], out := [] } : Dev) = { now c.t s with pair := {}, boxes := [], out := [] })
  ∧ (∀ (s : State) (c : Cmd), let q := c.req; let p := s.dev.pair
      Takes s c 16 → u8 q 4 ≠ p.mode → u8 q 4 ≤ 1 → u8 q 5 ≤ 2 → u8 q 6 ≤ 2 → u8 q 7 ≤ 3 → u16 q 8 ≤ 3600 → u16 q 10 ≤ 600 →
      nameable s.dev (boxFn s.dev c.box) (u16 q 12) p.healthRing = true → u16 q 14 = 0 → pairIdle (now c.t s) = true →
      ∃ d, exec (.pairConfigure c) s = .next { s with dev := d } ∧ Answers d c stOk 4 [] ∧ d.pair.mode = u8 q 4
        ∧ d.pair.pairId = u32 q 0 ∧ d.pair.downstream = u8 q 5 ∧ d.pair.witness = u8 q 6 ∧ d.pair.revertive = bitOf (u8 q 7) 0
        ∧ d.pair.autoResync = bitOf (u8 q 7) 1 ∧ d.pair.holdOff = (if u16 q 8 = 0 then 60 else u16 q 8)
        ∧ d.pair.startWait = (if u16 q 10 = 0 then 10 else u16 q 10) ∧ d.pair.healthRing = ringName (u16 q 12)
        ∧ d.pair.role = (if u8 q 4 = 0 then 0 else p.role) ∧ ({ d with boxes := [], guard := {}, pair := {}, ports := [], out := [] } : Dev) = { now c.t s with boxes := [], guard := {}, pair := {}, ports := [], out := [] })
  ∧ (∀ (s : State) (c : Cmd), let p := s.dev.pair; let w := witnessVerdict (now c.t s)
      Takes s c 4 → u32 c.req 0 = 0 →
      ∃ d, exec (.pairStatus c) s = .next { s with dev := d }
        ∧ Answers d c stOk 36 (le 1 p.role ++ le 1 p.partnerRole ++ le 1 (unitNo s.dev)
            ++ le 1 (b2n p.tetherUp + 2 * b2n p.pulse.isSome + 4 * b2n w.isSome + 8 * b2n (w.getD false)) ++ le 1 (acceptCond s.dev) ++ le 1 p.sync
            ++ le 2 p.latency ++ le 2 p.lastCause ++ le 4 ((s.dev.guard.streams.filter fun (_, x) => x.diverged).length) ++ le 8 p.disputes
            ++ stampBytes p.roleSince)
        ∧ ({ d with boxes := [], out := [] } : Dev) = { now c.t s with boxes := [], out := [] })
  ∧ (∀ (s : State) (c : Cmd), Takes s c 4 → leAt c.req 1 3 = 0 → s.dev.pair.mode = 1 →
      (u8 c.req 0 = 0 → s.dev.pair.tetherUp = true → s.dev.pair.role = 1 → s.dev.pair.partnerRole = 2 → s.dev.pair.planned = none →
        s.dev.helm.open_.length < 1024 →
        ∃ d, exec (.pairTakeover c) s = .next { s with dev := d } ∧ Answers d c stPending 8 (le 2 0 ++ le 4 s.dev.helm.nextTicket)
          ∧ d.pair.planned = some (coreTicks (now c.t s).time.west / 4096 + 34, some s.dev.helm.nextTicket) ∧ d.pair.role = 1 ∧ ({ d with boxes := [], fns := [], helm := {}, guard := {}, ledger := {}, pair := {}, counters := {}, tm := {}, frames := [], copies := [], nextFrame := 0, nextCopy := 0, ports := [], release := {}, out := [] } : Dev) = { now c.t s with boxes := [], fns := [], helm := {}, guard := {}, ledger := {}, pair := {}, counters := {}, tm := {}, frames := [], copies := [], nextFrame := 0, nextCopy := 0, ports := [], release := {}, out := [] })
      ∧ (u8 c.req 0 = 1 → s.dev.pair.role = 3 → hasHeartbeat (now c.t s) = false → s.dev.pair.pulse = none → s.dev.guard.cause = 0 →
        ∃ d, exec (.pairTakeover c) s = .next { s with dev := d } ∧ (boxOf d c.box).status = stOk ∧ d.pair.role = 0 ∧ d.pair.lastCause = 21
          ∧ d.guard.frozen = false ∧ ({ d with boxes := [], fns := [], helm := {}, guard := {}, ledger := {}, pair := {}, counters := {}, tm := {}, frames := [], copies := [], nextFrame := 0, nextCopy := 0, ports := [], release := {}, out := [] } : Dev) = { now c.t s with boxes := [], fns := [], helm := {}, guard := {}, ledger := {}, pair := {}, counters := {}, tm := {}, frames := [], copies := [], nextFrame := 0, nextCopy := 0, ports := [], release := {}, out := [] })
      ∧ (u8 c.req 0 = 1 → s.dev.pair.role = 4 → hasHeartbeat (now c.t s) = false → s.dev.pair.pulse = none → s.dev.guard.cause = 0 →
        ∃ d, exec (.pairTakeover c) s = .next { s with dev := d } ∧ (boxOf d c.box).status = stOk ∧ d.pair.role = 0 ∧ d.pair.lastCause = 4
          ∧ d.guard.frozen = false ∧ ({ d with boxes := [], fns := [], helm := {}, guard := {}, ledger := {}, pair := {}, counters := {}, tm := {}, frames := [], copies := [], nextFrame := 0, nextCopy := 0, ports := [], release := {}, out := [] } : Dev) = { now c.t s with boxes := [], fns := [], helm := {}, guard := {}, ledger := {}, pair := {}, counters := {}, tm := {}, frames := [], copies := [], nextFrame := 0, nextCopy := 0, ports := [], release := {}, out := [] }))
  ∧ (∀ (s : State) (c : Cmd), Takes s c 36 → sendingUnit s.dev = true → u8 c.req 0 ≤ 1 → leAt c.req 1 3 = 0 →
      ∃ d, exec (.pairDigest c) s = .next { s with dev := d } ∧ Answers d c stOk 4 []
        ∧ d.pair.digestsA = (if u8 c.req 0 = 0 then (slice c.req 4 32 :: s.dev.pair.digestsA).take 4 else s.dev.pair.digestsA)
        ∧ d.pair.digestsB = (if u8 c.req 0 = 1 then (slice c.req 4 32 :: s.dev.pair.digestsB).take 4 else s.dev.pair.digestsB)
        ∧ ({ d with boxes := [], pair := {}, out := [] } : Dev) = { now c.t s with boxes := [], pair := {}, out := [] })
  ∧ (∀ (s : State) (c : Cmd), Takes s c 4 → u8 c.req 0 ≤ 1 → leAt c.req 1 3 = 0 → s.dev.pair.mode = 1 → s.dev.pair.role = 3 →
      s.dev.pair.tetherUp = true → s.dev.pair.resync = none → s.dev.helm.open_.length < 1024 →
      ∃ d, exec (.pairResync c) s = .next { s with dev := d } ∧ Answers d c stPending 8 (le 2 0 ++ le 4 s.dev.helm.nextTicket)
        ∧ d.pair.resync = some (u8 c.req 0, some s.dev.helm.nextTicket, false) ∧ d.pair.sync = (if u8 c.req 0 = 0 then 1 else 2) ∧ d.pair.role = 3
        ∧ ({ d with boxes := [], fns := [], helm := {}, guard := {}, ledger := {}, pair := {}, counters := {}, frames := [], copies := [], ports := [], out := [] } : Dev) = { now c.t s with boxes := [], fns := [], helm := {}, guard := {}, ledger := {}, pair := {}, counters := {}, frames := [], copies := [], ports := [], out := [] })

-- The Cistern -----------------------------------------------------------------------------------------------------------------------------------

/-- cistern.regions keeps a layout for the next cold reset, and turns one away that breaks its rules. cistern.status answers the layout in
force, the channels, and the scrub, and changes nothing. cistern.fence gives the Steward a fence, with a ticket. cistern.retrain gives it a
training of one channel, with a ticket, and is turned away beside another of that channel, for a channel that does not exist, and in solo
mode while a stream is guarded. The frames name every part of the device that these commands can change. -/
def Obligations.CisternCommandsComplete : Prop :=  (∀ (s : State) (c : Cmd), let q := c.req; let r := u32 q 0; let l := u32 q 4; let p := u32 q 8
    Takes s c 16 → r % 64 = 0 → l % 64 = 0 → p % 64 = 0 → 1024 ≤ r → 128 ≤ l → u32 q 12 = 0 → r + l + p + 1024 ≤ 52416 →
    ∃ d, exec (.cisternRegions c) s = .next { s with dev := d } ∧ Answers d c stOk 4 []
      ∧ d.cistern = { s.dev.cistern with nextLayout := (r, l, p) }
      ∧ ({ d with cistern := {}, boxes := [], out := [] } : Dev) = { now c.t s with cistern := {}, boxes := [], out := [] })
  ∧ (∀ (s : State) (c : Cmd), let q := c.req
      Takes s c 16 → (u32 q 0 % 64 ≠ 0 ∨ u32 q 4 % 64 ≠ 0 ∨ u32 q 8 % 64 ≠ 0 ∨ u32 q 0 < 1024 ∨ u32 q 4 < 128 ∨ 52416 < u32 q 0 + u32 q 4 + u32 q 8 + 1024
        ∨ u32 q 12 ≠ 0) →
      ∃ d, exec (.cisternRegions c) s = .next { s with dev := d } ∧ Answers d c stRange 4 []
        ∧ ({ d with boxes := [], out := [] } : Dev) = { now c.t s with boxes := [], out := [] })
  ∧ (∀ (s : State) (c : Cmd), Takes s c 4 → u32 c.req 0 = 0 →
      ∃ d, exec (.cisternStatus c) s = .next { s with dev := d } ∧ (boxOf d c.box).state = 2 ∧ (boxOf d c.box).status = stOk
        ∧ slice (boxOf d c.box).respArea 4 12 = le 4 s.dev.cistern.layout.1 ++ le 4 s.dev.cistern.layout.2.1 ++ le 4 s.dev.cistern.layout.2.2
        ∧ (∀ k, k < 16 → bitOf (u16 (boxOf d c.box).respArea 2) k = (chanOf s.dev k).inService
            ∧ slice (boxOf d c.box).respArea (24 + 8 * k) 8
              = le 1 (chanOf s.dev k).band ++ le 1 (chanOf s.dev k).owed ++ le 2 (chanOf s.dev k).forced ++ le 2 (chanOf s.dev k).corrected
                ++ le 2 (chanOf s.dev k).uncorrectable)
        ∧ slice (boxOf d c.box).respArea 16 8 = le 4 (archiveMib s.dev.cistern.layout) ++ le 4 (keptSegments s.dev)
        ∧ slice (boxOf d c.box).respArea 152 20 = le 8 s.dev.cistern.scrubPass ++ stampBytes s.dev.cistern.scrubSince
        ∧ ({ d with boxes := [], out := [] } : Dev) = { now c.t s with boxes := [], out := [] })
  ∧ (∀ (s : State) (c : Cmd), Takes s c 4 → u8 c.req 0 ≤ 63 → leAt c.req 1 3 = 0 → opVerdict s.dev 0x12 0 = stOk → s.dev.helm.open_.length < 1024 →
      ∃ d, exec (.cisternFence c) s = .next { s with dev := d } ∧ Answers d c stPending 8 (le 2 0 ++ le 4 s.dev.helm.nextTicket)
        ∧ d.steward.ops = s.dev.steward.ops ++
            [{ id := s.dev.steward.nextOp, code := 0x12, ticket := s.dev.helm.nextTicket, fn := boxFn s.dev c.box, req := c.req
               host := le 8 (now c.t s).clock }]
        ∧ ({ d with helm := {}, steward := {}, boxes := [], out := [] } : Dev) = { now c.t s with helm := {}, steward := {}, boxes := [], out := [] })
  ∧ (∀ (s : State) (c : Cmd), Takes s c 1 → u8 c.req 0 ≤ 15 → (unitOf s.dev 72).step = 0 →
      (s.dev.pair.mode = 0 → ∀ e ∈ s.dev.guard.streams, e.2.slots = []) →
      (opVerdict s.dev 0x0B (u8 c.req 0 + 1) = stOk → s.dev.helm.open_.length < 1024 →
        ∃ d, exec (.cisternRetrain c) s = .next { s with dev := d } ∧ Answers d c stPending 8 (le 2 0 ++ le 4 s.dev.helm.nextTicket)
          ∧ d.cistern = { s.dev.cistern with retrained := true }
          ∧ d.steward.ops = s.dev.steward.ops ++
              [{ id := s.dev.steward.nextOp, code := 0x0B, ticket := s.dev.helm.nextTicket, fn := boxFn s.dev c.box, req := c.req, key := u8 c.req 0 + 1 }]
          ∧ ({ d with boxes := [], helm := {}, cistern := {}, steward := {}, out := [] } : Dev) = { now c.t s with boxes := [], helm := {}, cistern := {}, steward := {}, out := [] })
      ∧ (opVerdict s.dev 0x0B (u8 c.req 0 + 1) = stConflict →
          ∃ d, exec (.cisternRetrain c) s = .next { s with dev := d } ∧ (boxOf d c.box).status = stConflict
            ∧ ({ d with boxes := [], out := [] } : Dev) = { now c.t s with boxes := [], out := [] }))
  ∧ (∀ (s : State) (c : Cmd), Takes s c 1 → 15 < u8 c.req 0 → ∃ d, exec (.cisternRetrain c) s = .next { s with dev := d } ∧ (boxOf d c.box).status = stRange
      ∧ ({ d with boxes := [], out := [] } : Dev) = { now c.t s with boxes := [], out := [] })
  ∧ (∀ (s : State) (c : Cmd), Takes s c 1 → u8 c.req 0 ≤ 15 → s.dev.pair.mode = 0 → (∃ e ∈ s.dev.guard.streams, e.2.slots ≠ []) →
      ∃ d, exec (.cisternRetrain c) s = .next { s with dev := d } ∧ (boxOf d c.box).status = stConflict
        ∧ ({ d with boxes := [], out := [] } : Dev) = { now c.t s with boxes := [], out := [] })

/-- FENCE_HOLDS: the fence ends once no write that it waits for is open, and waits until then. TRAINING_DONE, of a channel that trains, where no
training operation of the channel waits for it: the channel is in service, or out of it and reported; a verification that has failed for the
first time is tried once more, and a channel that nothing trains is left as it is. REFRESH_INTERVAL takes off the slots that have completed,
and counts a boundary where tREFI of the band has passed; MR4_READ follows the higher of two ranks' rates by one band, no sooner than 16 µs
after the reading before; both force a batch above the limit, on every channel in service whatever its counts. OSCILLATOR_READ keeps what
was read. PATROL_SCRUB_TIMER: what the scrub corrected last is written back, it reads on, counts the words it corrects and those it loses,
and ends its pass with the usable space, but where it does not run to its end at once, or behind a training, it becomes an operation, and in
self-refresh nothing is scrubbed; a READY Helm reloads a lost word of the archive from flash (log 116). The frames name every part of the
device that these events can change. -/
def Obligations.CisternEventsComplete : Prop :=  (∀ (s : State) (t op : Nat) (o : Op), opOf s.dev op = some o → o.code = 0x12 → o.state ≠ 0 →
    (writesOpen s.dev (u8 o.req 0) (u64 o.host 0) = false →
      ∃ d, exec (.fenceHolds t op) s = .next { s with dev := d } ∧ d.steward.ops = s.dev.steward.ops.filter (fun x => x.id != op)
        ∧ (o.ack = none → o.own = false → o.ticket = 0 → s.dev.cascade.pushWait = [] → ({ d with steward := {} } : Dev) = { now t s with steward := {} })
        ∧ ({ d with fns := [], helm := {}, pair := {}, counters := {}, steward := {}, cascade := {}, out := [] } : Dev) = { now t s with fns := [], helm := {}, pair := {}, counters := {}, steward := {}, cascade := {}, out := [] })
    ∧ (writesOpen s.dev (u8 o.req 0) (u64 o.host 0) = true → exec (.fenceHolds t op) s = .next { s with dev := now t s }))
  ∧ (∀ (s : State) (t channel : Nat) (ok : Bool), let x := chanOf s.dev channel
      channel < 16 → x.trains = true → (s.dev.steward.ops.find? fun o => o.code == 0x0B && o.state != 0 && o.key == channel + 1) = none →
      ((x.verifying = false ∨ x.retried = true ∨ ok = true) →
        ∃ d, exec (.trainingDone t channel ok) s = .next { s with dev := d } ∧ (chanOf d channel).inService = ok ∧ (chanOf d channel).training = false
          ∧ (chanOf d channel).failed = !ok
          ∧ (∀ k, k ≠ channel → chanOf d k = chanOf s.dev k) ∧ ((tget [] d.coll.present (0x900 + channel)).contains 0x1F) = !ok
          ∧ (ok = true → d.guard = s.dev.guard) ∧ ({ d with freeIdx := 0, fns := [], helm := {}, coll := {}, guard := {}, ledger := {}, pair := {}, counters := {}, tm := {}, frames := [], copies := [], ports := [], release := {}, cistern := {}, steward := {}, cascade := {}, out := [] } : Dev) = { now t s with freeIdx := 0, fns := [], helm := {}, coll := {}, guard := {}, ledger := {}, pair := {}, counters := {}, tm := {}, frames := [], copies := [], ports := [], release := {}, cistern := {}, steward := {}, cascade := {}, out := [] }
          ∧ ((x.verifying = false ∨ ok = true) → (∀ o ∈ s.dev.steward.ops, o.code = 0x0B → o.key ≠ 0) → ({ d with freeIdx := 0, cistern := {}, coll := {}, guard := {} } : Dev) = { now t s with freeIdx := 0, cistern := {}, coll := {}, guard := {} }))
      ∧ (x.verifying = true → x.retried = false → ok = false →
        ∃ d, exec (.trainingDone t channel ok) s = .next { s with dev := d } ∧ chanOf d channel = { x with retried := true }
          ∧ (∀ k, k ≠ channel → chanOf d k = chanOf s.dev k) ∧ ({ d with cistern := {} } : Dev) = { now t s with cistern := {} }))
  ∧ (∀ (s : State) (t channel : Nat) (ok : Bool), (16 ≤ channel ∨ (chanOf s.dev channel).trains = false) →
      exec (.trainingDone t channel ok) s = .next { s with dev := now t s })
  ∧ (∀ (s : State) (t channel slots : Nat), let x := chanOf s.dev channel; let limit := if x.band = 0 then 8 else if x.band = 1 then 4 else 2
      let next := x.intervalAt + 16 * (if x.band = 0 then 3906 else if x.band = 1 then 1953 else 977)
      channel < 16 → x.inService = true → s.dev.cistern.selfRefresh = false →
      ∃ d, exec (.refreshInterval t channel slots) s = .next { s with dev := d }
        ∧ (next ≤ (now t s).clock → chanOf d channel = { x with
            owed := min limit (x.owed - slots + 1), intervalAt := next
            forced := if limit < x.owed - slots + 1 then min 0xFFFF (x.forced + 1) else x.forced })
        ∧ ((now t s).clock < next → chanOf d channel = { x with owed := x.owed - slots })
        ∧ (∀ k, k ≠ channel → chanOf d k = chanOf s.dev k) ∧ ({ d with cistern := {} } : Dev) = { now t s with cistern := {} })
  ∧ (∀ (s : State) (t channel : Nat) (rates : Nat × Nat), let x := chanOf s.dev channel; let rate := max rates.1 rates.2
      let band := if x.band < min rate 2 then x.band + 1 else if min rate 2 < x.band then x.band - 1 else x.band
      let limit := if band = 0 then 8 else if band = 1 then 4 else 2
      channel < 16 → x.inService = true → s.dev.cistern.selfRefresh = false → (∀ a, x.mr4At = some a → a + 256000 ≤ (now t s).clock) →
      ∃ d, exec (.mr4Read t channel rates) s = .next { s with dev := d }
        ∧ chanOf d channel = { x with
            band, mr4 := rates, mr4At := some (now t s).clock, owed := min limit x.owed
            forced := if limit < x.owed then min 0xFFFF (x.forced + 1) else x.forced
            intervalAt := if band = x.band then x.intervalAt else (now t s).clock + batchTicks (x.owed - limit) }
        ∧ ((tget [] d.coll.present (0x900 + channel)).contains 0x20) = decide (2 ≤ rate)
        ∧ (∀ k, k ≠ channel → chanOf d k = chanOf s.dev k)
        ∧ ({ d with cistern := {}, coll := {} } : Dev) = { now t s with cistern := {}, coll := {} })
  ∧ (∀ (s : State) (t channel a : Nat) (rates : Nat × Nat), (chanOf s.dev channel).mr4At = some a → (now t s).clock < a + 256000 →
      exec (.mr4Read t channel rates) s = .next { s with dev := now t s })
  ∧ (∀ (s : State) (t channel dqi dqo : Nat), channel < 16 → (chanOf s.dev channel).inService = true →
      ∃ d, exec (.oscillatorRead t channel dqi dqo) s = .next { s with dev := d } ∧ chanOf d channel = { chanOf s.dev channel with oscillators := (dqi, dqo) }
        ∧ (∀ k, k ≠ channel → chanOf d k = chanOf s.dev k) ∧ ({ d with cistern := {} } : Dev) = { now t s with cistern := {} })
  ∧ (∀ (s : State) (t groups : Nat) (data check : List (Nat × Nat)), let n := flipBits (storedFlips data check) (now t s); let first := s.dev.cistern.scrubAt
      let back := { n.cistern with flips := n.cistern.flips.filter fun e => !s.dev.cistern.scrubBack.contains e.1 }
      let read := (back.flips.filter fun e => decide (16 * first ≤ e.1) && decide (e.1 < 16 * (first + groups))).map (·.1)
      let lost := read.filter fun w => (back.wordRead w).isNone
      let mended := read.filter fun w => (back.wordRead w).isSome && decide (onesIn (tget 0 back.flips w) ≤ 2)
      let ends := storageGroups ≤ first + groups
      s.dev.cistern.selfRefresh = false → (∀ o ∈ s.dev.steward.ops, o.code ≠ 0x0B) →
      ∃ d, exec (.patrolScrubTimer t groups data check true) s = .next { s with dev := d }
        ∧ (ends → d.cistern.scrubAt = 0 ∧ d.cistern.scrubPass = s.dev.cistern.scrubPass + 1)
        ∧ (¬ends → d.cistern.scrubAt = first + groups ∧ d.cistern.scrubPass = s.dev.cistern.scrubPass)
        ∧ (ends ∨ s.dev.cistern.scrubPass = 0 ∧ first = 0 → d.cistern.scrubSince = helmStamp (now t s))
        ∧ (¬(ends ∨ s.dev.cistern.scrubPass = 0 ∧ first = 0) → d.cistern.scrubSince = s.dev.cistern.scrubSince)
        ∧ d.cistern.mem = s.dev.cistern.mem
        ∧ ((s.dev.helm.state = 1 → ∀ w ∈ lost, inArchive s.dev (8 * w) = false) →
            d.cistern.flips = back.flips ∧ d.cistern.scrubBack = mended ∧ (∀ w ∈ lost, w ∈ d.cistern.badWords)
            ∧ d.pair.scrubCorr = s.dev.pair.scrubCorr + mended.length ∧ d.pair.scrubUncorr = s.dev.pair.scrubUncorr + lost.length)
        ∧ (∀ w, read = [w] → lost = [w] → s.dev.helm.state = 1 → inArchive s.dev (8 * w) = true → tget 0 d.cistern.flips w = 0)
        ∧ ({ d with coll := {}, guard := {}, pair := {}, cistern := {}, steward := {} } : Dev) = { now t s with coll := {}, guard := {}, pair := {}, cistern := {}, steward := {} })
  ∧ (∀ (s : State) (t groups : Nat) (data check : List (Nat × Nat)) (toEnd : Bool), s.dev.cistern.selfRefresh = false →
      (toEnd = false ∨ ∃ o ∈ s.dev.steward.ops, o.code = 0x0B) →
      opVerdict s.dev 0x0C 0 = stOk →
      ∃ d, exec (.patrolScrubTimer t groups data check toEnd) s = .next { s with dev := d } ∧ d.cistern = (flipBits (storedFlips data check) (now t s)).cistern
        ∧ d.steward = { s.dev.steward with
            ops := s.dev.steward.ops ++ [{ id := s.dev.steward.nextOp, code := 0x0C, req := le 4 groups }], nextOp := s.dev.steward.nextOp + 1 }
        ∧ ({ d with cistern := {}, steward := {} } : Dev) = { now t s with cistern := {}, steward := {} })
  ∧ (∀ (s : State) (t groups : Nat) (data check : List (Nat × Nat)) (toEnd : Bool), s.dev.cistern.selfRefresh = true →
      exec (.patrolScrubTimer t groups data check toEnd) s = .next { s with dev := flipBits (storedFlips data check) (now t s) })

-- The Steward -----------------------------------------------------------------------------------------------------------------------------------

/-- steward.ops answers the Steward's state and its first 64 operations and changes nothing. steward.abort registers an abort on a routine that
runs, ends one that is queued without effect, is denied to an operation past its point or one that cannot be aborted, and is turned away for
a ticket that no operation has. The frames name every part of the device that these commands can change.

STEWARD_OP_START: a ready operation enters its routine, whose first PC the spec does not give (log 45), or, as one that waits for something
outside the Steward, runs to its wait: a fence, a channel's training, and a swap whose beat, chosen anew where it is less than 16 beats
ahead of the PUSH (log 33), the Basins have; a swap of an INCOMPLETE generation ends with ST_CONFLICT (log 33), a scrub runs to its end, and
one behind another waits. STEWARD_RESUME: a yielded routine comes back with its registers and its wait, and a running one that has to gives
the Steward up to it. Both where no operation of a higher class is ready (log 116). STEWARD_WAIT_END: a wait ends when what it waits for has
come, and a Cistern read that cannot be returned leaves an abort pending. POLL_OVERDUE: a 49th word without a safe point is reported, and is
a safe point with an abort pending. The frames name every part of the device that these events can change. -/
def Obligations.StewardComplete : Prop :=
  ((∀ (s : State) (c : Cmd), Takes s c 4 → u32 c.req 0 = 0 →
      ∃ d, exec (.stewardOps c) s = .next { s with dev := d } ∧ Answers d c stOk 1040
          (le 2 (min 64 s.dev.steward.ops.length) ++ le 4 Config.romId.toNat ++ le 4 s.dev.steward.patchId ++ le 1 s.dev.steward.patchState
            ++ le 1 (s.dev.steward.matches_.filter fun e => bitOf e.2 23).length ++ le 2 s.dev.steward.tokens.length
            ++ (s.dev.steward.ops.take 64).flatMap (opEntry s.dev))
        ∧ ({ d with boxes := [], out := [] } : Dev) = { now c.t s with boxes := [], out := [] })
    ∧ (∀ (s : State) (c : Cmd) (o : Op), Takes s c 8 → u32 c.req 4 = 0 → u32 c.req 0 ≠ 0 →
        (s.dev.steward.ops.find? fun o => o.ticket == u32 c.req 0) = some o →
        (opAbortable o.code = true → o.past = false → o.state = 1 → s.dev.steward.safe = false →
          ∃ d, exec (.stewardAbort c) s = .next { s with dev := d } ∧ Answers d c stOk 4 []
            ∧ d.steward = { s.dev.steward with ops := s.dev.steward.ops.map fun x => if x.id = o.id then { x with aborting := true } else x }
            ∧ ({ d with steward := {}, boxes := [], out := [] } : Dev) = { now c.t s with steward := {}, boxes := [], out := [] })
        ∧ (opAbortable o.code = true → o.past = false → o.state = 0 → (o.code = 9 ∨ o.code = 0x12) → o.ack = none → o.own = false →
          ∃ d, exec (.stewardAbort c) s = .next { s with dev := d } ∧ Answers d c stOk 4 []
            ∧ d.steward.ops = s.dev.steward.ops.filter (fun x => x.id != o.id) ∧ d.tables = s.dev.tables ∧ ({ d with boxes := [], fns := [], helm := {}, pair := {}, counters := {}, steward := {}, cascade := {}, tables := {}, out := [] } : Dev) = { now c.t s with boxes := [], fns := [], helm := {}, pair := {}, counters := {}, steward := {}, cascade := {}, tables := {}, out := [] })
        ∧ (opAbortable o.code = false ∨ o.past = true →
          ∃ d, exec (.stewardAbort c) s = .next { s with dev := d } ∧ Answers d c stDenied 4 []
            ∧ ({ d with boxes := [], out := [] } : Dev) = { now c.t s with boxes := [], out := [] }))
    ∧ (∀ (s : State) (c : Cmd), Takes s c 8 → (∀ o ∈ s.dev.steward.ops, o.ticket ≠ u32 c.req 0) →
        ∃ d, exec (.stewardAbort c) s = .next { s with dev := d } ∧ Answers d c stRange 4 []
          ∧ ({ d with boxes := [], out := [] } : Dev) = { now c.t s with boxes := [], out := [] }))
  ∧ ((∀ (s : State) (t op : Nat) (o : Op), opOf s.dev op = some o → o.state = 0 → blocker s.dev o = none → opReady (now t s) o = true → outranked (now t s) o = false → runningOp s.dev = none →
      (o.code ≠ 6 → o.code ≠ 0x0B →
        ∃ d ws p f, exec (.stewardOpStart t op false) s = .next { s with dev := d } ∧ runningOp d = some { o with state := 1, plan := ws, planned := p, found := f }
          ∧ (o.code ≠ 1 → ws = o.plan ∧ p = o.planned ∧ f = o.found) ∧ (o.code = 1 → o.opcode ≠ 0 → f = some (tget [] s.dev.tables.em (o.key - 1))) ∧ d.steward.words = 0
          ∧ d.steward.waiting = (0, 0, 0) ∧ d.steward.pc < 0x4000 ∧ mreg d 62 = BitVec.ofNat 64 (o.ticket + o.code * 2 ^ 32)
          ∧ (∀ r, r ≠ 62 → mreg d r = mreg s.dev r) ∧ ({ d with steward := {}, freeIdx := 0 } : Dev) = { now t s with steward := {}, freeIdx := 0 })
      ∧ (o.code = 0x12 → ∃ d, exec (.stewardOpStart t op true) s = .next { s with dev := d } ∧ opOf d op = some { o with state := 2 }
          ∧ ({ d with steward := {} } : Dev) = { now t s with steward := {} })
      ∧ (o.code = 0x0B → ∃ d, exec (.stewardOpStart t op true) s = .next { s with dev := d } ∧ opOf d op = some { o with state := 2 }
          ∧ (o.key ≠ 0 → chanOf d (o.key - 1) = { chanOf s.dev (o.key - 1) with inService := false, training := true })
          ∧ (∀ k, k + 1 ≠ o.key → chanOf d k = chanOf s.dev k) ∧ ({ d with steward := {}, cistern := {} } : Dev) = { now t s with steward := {}, cistern := {} })
      ∧ (o.code = 6 → (genOf s.dev (inactive s.dev)).incomplete = false →
          let late := o.own = true ∧ pushTargets s.dev ≠ [] ∧ o.beat < beatNow (now t s) + 17
          ∃ d b, exec (.stewardOpStart t op true) s = .next { s with dev := d } ∧ (late → b = beatNow (now t s) + 17) ∧ (¬late → b = o.beat)
            ∧ opOf d op = some { o with state := 2, past := true, beat := b }
            ∧ d.tables = { s.dev.tables with swap := s.dev.tables.swap.map fun x => { x with pushed := true, beat := b } }
            ∧ (¬late → ({ d with steward := {}, tables := {}, cascade := {}, out := [] } : Dev) = { now t s with steward := {}, tables := {}, cascade := {}, out := [] }) ∧ ({ d with freeIdx := 0, fns := [], helm := {}, coll := {}, guard := {}, time := {}, ledger := {}, pair := {}, counters := {}, tm := {}, frames := [], copies := [], nextFrame := 0, nextCopy := 0, ports := [], release := {}, cistern := {}, steward := {}, cascade := {}, tables := {}, out := [] } : Dev) = { now t s with freeIdx := 0, fns := [], helm := {}, coll := {}, guard := {}, time := {}, ledger := {}, pair := {}, counters := {}, tm := {}, frames := [], copies := [], nextFrame := 0, nextCopy := 0, ports := [], release := {}, cistern := {}, steward := {}, cascade := {}, tables := {}, out := [] })
      ∧ (o.code = 6 → (genOf s.dev (inactive s.dev)).incomplete = true → ∀ toEnd,
          ∃ d, exec (.stewardOpStart t op toEnd) s = .next { s with dev := d } ∧ d.tables = { s.dev.tables with swap := none }
            ∧ d.steward.ops = s.dev.steward.ops.filter (fun x => x.id != op)
            ∧ (∀ x : DoneTicket, o.ticket ≠ 0 → s.dev.helm.open_ = [{ num := o.ticket, fn := o.fn }] →
              o.ack = none → s.dev.pair.unacked = [] → d.helm.done.head? = some x →
              x.num = o.ticket ∧ x.bytes.take 2 = le 2 stConflict) ∧ ({ d with freeIdx := 0, fns := [], helm := {}, coll := {}, guard := {}, time := {}, ledger := {}, pair := {}, counters := {}, tm := {}, frames := [], copies := [], nextFrame := 0, nextCopy := 0, ports := [], release := {}, cistern := {}, steward := {}, cascade := {}, tables := {}, out := [] } : Dev) = { now t s with freeIdx := 0, fns := [], helm := {}, coll := {}, guard := {}, time := {}, ledger := {}, pair := {}, counters := {}, tm := {}, frames := [], copies := [], nextFrame := 0, nextCopy := 0, ports := [], release := {}, cistern := {}, steward := {}, cascade := {}, tables := {}, out := [] })
      ∧ (o.code = 0x0C → ∃ d, exec (.stewardOpStart t op true) s = .next { s with dev := d } ∧ d.steward.ops = s.dev.steward.ops.filter (fun x => x.id != op)
          ∧ d.cistern = (scrubGroups (u32 o.req 0 - o.step) (now t s)).cistern ∧ ({ d with freeIdx := 0, fns := [], helm := {}, coll := {}, guard := {}, time := {}, ledger := {}, pair := {}, counters := {}, tm := {}, frames := [], copies := [], nextFrame := 0, nextCopy := 0, ports := [], release := {}, cistern := {}, steward := {}, cascade := {}, tables := {}, out := [] } : Dev) = { now t s with freeIdx := 0, fns := [], helm := {}, coll := {}, guard := {}, time := {}, ledger := {}, pair := {}, counters := {}, tm := {}, frames := [], copies := [], nextFrame := 0, nextCopy := 0, ports := [], release := {}, cistern := {}, steward := {}, cascade := {}, tables := {}, out := [] }))
    ∧ (∀ (s : State) (t op : Nat) (o b : Op), opOf s.dev op = some o → blocker s.dev o = some b → ∀ toEnd,
        exec (.stewardOpStart t op toEnd) s = .next { s with dev := now t s })
    ∧ (∀ (s : State) (t op : Nat) (o : Op) (k : Token), s.dev.steward.tokens.find? (fun k => k.op == op) = some k → runningOp s.dev = none →
        opOf s.dev op = some o → outranked (now t s) o = false →
        ∃ d, exec (.stewardResume t op) s = .next { s with dev := d } ∧ opOf d op = some { o with state := 1 } ∧ d.steward.pc = k.pc
          ∧ d.steward.tokens = s.dev.steward.tokens.filter (fun x => x.op != op) ∧ (∀ n v, k.saved = [(n, v)] → tget 0 d.steward.regs n = v)
          ∧ d.steward.waiting = k.waiting ∧ d.steward.issued = k.issued ∧ d.steward.crossing = k.crossing ∧ d.steward.live = (k.first, k.count)
          ∧ ({ d with steward := {} } : Dev) = { now t s with steward := {} })
    ∧ (∀ (s : State) (t op : Nat) (o r : Op) (k : Token), s.dev.steward.tokens.find? (fun k => k.op == op) = some k → runningOp s.dev = some r → r.id ≠ op →
        opOf s.dev op = some o → outranked (now t s) o = false →
        (yieldsTo (now t s) r o = true →
          ∃ d, exec (.stewardResume t op) s = .next { s with dev := d } ∧ opOf d op = some { o with state := 1 } ∧ d.steward.pc = k.pc
            ∧ (opOf d r.id).map (·.state) = some 2
            ∧ d.steward.tokens = (s.dev.steward.tokens.filter fun x => x.op != op) ++ [tokenOf (now t s) r]
            ∧ ({ d with steward := {} } : Dev) = { now t s with steward := {} })
        ∧ (yieldsTo (now t s) r o = false → exec (.stewardResume t op) s = .next { s with dev := now t s }))
    ∧ (∀ (s : State) (t : Nat) (o : Op), runningOp s.dev = some o →
        (s.dev.steward.waiting.1 = 1 → ∃ d, exec (.stewardWaitEnd t) s = .next { s with dev := d }
          ∧ d = { now t s with steward := { s.dev.steward with waiting := (0, 0, 0), crossing := 0 } })
        ∧ (s.dev.steward.waiting.1 = 2 → s.dev.steward.issued = [] → ∃ d, exec (.stewardWaitEnd t) s = .next { s with dev := d }
          ∧ d = { now t s with steward := { s.dev.steward with waiting := (0, 0, 0) } })
        ∧ (∀ (a : BitVec 6) (b : List Byte), s.dev.steward.waiting.1 = 2 → s.dev.steward.issued = [(a.toNat, some b)] →
            ∃ d, exec (.stewardWaitEnd t) s = .next { s with dev := d } ∧ d.steward.waiting = (0, 0, 0) ∧ d.steward.issued = []
              ∧ (∀ k, k < 8 → a + BitVec.ofNat 6 k ≠ 0 → mreg d (a + BitVec.ofNat 6 k) = BitVec.ofNat 64 (leAt b (8 * k) 8))
              ∧ (∀ r, (∀ k, k < 8 → r ≠ a + BitVec.ofNat 6 k) → mreg d r = mreg s.dev r)
              ∧ ({ d with steward := {} } : Dev) = { now t s with steward := {} })
        ∧ (∀ n, s.dev.steward.waiting.1 = 2 → s.dev.steward.issued = [(n, none)] → opAbortable o.code = true → o.past = false → o.state = 1 →
            ∃ d, exec (.stewardWaitEnd t) s = .next { s with dev := d } ∧ d.steward.waiting = (0, 0, 0) ∧ d.steward.issued = []
              ∧ opOf d o.id = (opOf s.dev o.id).map (fun x => { x with aborting := true, state := 3 }) ∧ d.steward.pc = (mreg s.dev 60).toNat % 2 ^ 15
              ∧ mreg d = mreg s.dev ∧ ({ d with steward := {} } : Dev) = { now t s with steward := {} })
        ∧ (∀ x, (s.dev.steward.waiting = (3, 2, x) ∧ x ≤ (now t s).clock ∨ s.dev.steward.waiting = (3, 0, x) ∧ x ≤ beatNow (now t s)
            ∨ s.dev.steward.waiting = (3, 1, x) ∧ inFlight s.dev x = 0) → ∃ d, exec (.stewardWaitEnd t) s = .next { s with dev := d }
          ∧ d = { now t s with steward := { s.dev.steward with waiting := (0, 0, 0) } })
        ∧ (∀ x, s.dev.steward.waiting = (3, 2, x) → (now t s).clock < x → exec (.stewardWaitEnd t) s = .next { s with dev := now t s }))
    ∧ (∀ (s : State) (t : Nat) (o : Op), runningOp s.dev = some o → 48 ≤ s.dev.steward.words → s.dev.steward.waiting.1 = 0 → o.state = 1 →
        let r := modOp o.id (fun x => { x with aborting := true }) (report 0xA00 0x24 s.dev.steward.pc (now t s)); let e := stepWork r
        ∃ d, exec (.pollOverdue t) s = .next { s with dev := d }
          ∧ opOf d o.id = (opOf e o.id).map (fun x => { x with state := 3 }) ∧ d.steward.waiting = (0, 0, 0)
          ∧ d.steward.pc = (mreg e 60).toNat % 2 ^ 15 ∧ d.steward.words = 0 ∧ d.steward.safe = true ∧ d.steward.regs = e.steward.regs
          ∧ ({ d with steward := {} } : Dev) = { e with steward := {} }
          ∧ (unitOfWork { o with aborting := true } r = none →
              opOf d o.id = (opOf s.dev o.id).map (fun x => { x with aborting := true, state := 3 })
              ∧ d.steward.pc = (mreg s.dev 60).toNat % 2 ^ 15
              ∧ (tget {} d.coll.reporters 0xA00).queue.length + (tget {} d.coll.reporters 0xA00).dropped
                = (tget {} s.dev.coll.reporters 0xA00).queue.length + (tget {} s.dev.coll.reporters 0xA00).dropped + 1
              ∧ ({ d with steward := {}, coll := {} } : Dev) = { now t s with steward := {}, coll := {} })
          ∧ ({ d with coll := {}, guard := {}, pair := {}, counters := {}, tm := {}, frames := [], copies := [], nextFrame := 0, nextCopy := 0, cistern := {}, steward := {}, tables := {} } : Dev) = { now t s with coll := {}, guard := {}, pair := {}, counters := {}, tm := {}, frames := [], copies := [], nextFrame := 0, nextCopy := 0, cistern := {}, steward := {}, tables := {} }))

-- Microwords ------------------------------------------------------------------------------------------------------------------------------------

/-- Each word that computes completes: NOP changes no register, MOV, ADD, SUB, AND, OR, XOR, SHL, SHR, LDI, ADDI, SHLI and CRC write mA, which
m0 ignores, CMP and CMPI write Z and N in m61, where C is open (log 45), and SHA writes four registers (their order is the model's, log 45).
The spec names two values of CRC's field C, and with another the result is open (log 45). The PC goes to the next word, and nothing but the
microregisters is otherwise changed. -/
def Obligations.MicroArithmeticCompletes : Prop :=  ∀ (s : State) (t : Nat) (a b c : BitVec 6) (imm : BitVec 12), let m := mreg s.dev; let n := now t s
    (AtWord n .nop → ∃ d, exec (.nop t true) s = .next { s with dev := d } ∧ mreg d = m ∧ MovedOn t s d (fetchAt s.dev + 1))
    ∧ (AtWord n (.mov a b) → ∃ d, exec (.mov t a b true) s = .next { s with dev := d } ∧ WroteA t s d a (m b))
    ∧ (AtWord n (.add a b c) → ∃ d, exec (.add t a b c true) s = .next { s with dev := d } ∧ WroteA t s d a (m b + m c))
    ∧ (AtWord n (.sub a b c) → ∃ d, exec (.sub t a b c true) s = .next { s with dev := d } ∧ WroteA t s d a (m b - m c))
    ∧ (AtWord n (.and a b c) → ∃ d, exec (.and t a b c true) s = .next { s with dev := d } ∧ WroteA t s d a (m b &&& m c))
    ∧ (AtWord n (.or a b c) → ∃ d, exec (.or t a b c true) s = .next { s with dev := d } ∧ WroteA t s d a (m b ||| m c))
    ∧ (AtWord n (.xor a b c) → ∃ d, exec (.xor t a b c true) s = .next { s with dev := d } ∧ WroteA t s d a (m b ^^^ m c))
    ∧ (AtWord n (.shl a b c) → ∃ d, exec (.shl t a b c true) s = .next { s with dev := d } ∧ WroteA t s d a (m b <<< (m c &&& 63)))
    ∧ (AtWord n (.shr a b c) → ∃ d, exec (.shr t a b c true) s = .next { s with dev := d } ∧ WroteA t s d a (m b >>> (m c &&& 63)))
    ∧ (AtWord n (.ldi a imm) → ∃ d, exec (.ldi t a imm true) s = .next { s with dev := d } ∧ WroteA t s d a (imm.setWidth 64))
    ∧ (AtWord n (.addi a imm) → ∃ d, exec (.addi t a imm true) s = .next { s with dev := d } ∧ WroteA t s d a (m a + imm.signExtend 64))
    ∧ (AtWord n (.shli a imm) → ∃ d, exec (.shli t a imm true) s = .next { s with dev := d } ∧ WroteA t s d a ((m a <<< 12) ||| imm.setWidth 64))
    ∧ (AtWord n (.crc a b 0) → ∃ d, exec (.crc t a b 0 true) s = .next { s with dev := d } ∧ WroteA t s d a (BitVec.ofNat 64 (crcRun polyCast ((m a).toNat % 2 ^ 32) (le 8 (m b).toNat))))
    ∧ (AtWord n (.crc a b 1) → ∃ d, exec (.crc t a b 1 true) s = .next { s with dev := d } ∧ WroteA t s d a (BitVec.ofNat 64 (crcRun polyIeee ((m a).toNat % 2 ^ 32) (le 8 (m b).toNat))))
    ∧ (AtWord n (.crc a b c) → 2 ≤ c.toNat → ∃ v, ∃ d, exec (.crc t a b c true) s = .next { s with dev := d } ∧ WroteA t s d a v)
    ∧ (AtWord n (.cmp b c) → ∃ d, exec (.cmp t b c true) s = .next { s with dev := d } ∧ MovedOn t s d (fetchAt s.dev + 1)
        ∧ flagZ d = (m b == m c) ∧ flagN d = (m b - m c).msb ∧ (mreg d 61).toNat < 8 ∧ (∀ r, r ≠ 61 → mreg d r = m r))
    ∧ (AtWord n (.cmpi a imm) → ∃ d, exec (.cmpi t a imm true) s = .next { s with dev := d } ∧ MovedOn t s d (fetchAt s.dev + 1)
        ∧ flagZ d = (m a == imm.setWidth 64) ∧ flagN d = (m a - imm.setWidth 64).msb ∧ (mreg d 61).toNat < 8 ∧ (∀ r, r ≠ 61 → mreg d r = m r))
    ∧ (AtWord n (.sha a b) →
        ∃ d, exec (.sha t a b true) s = .next { s with dev := d } ∧ MovedOn t s d (fetchAt s.dev + 1)
          ∧ (let x := shaCompress ((mregs s.dev a 4).flatMap fun x => [x.toNat / 2 ^ 32, x.toNat % 2 ^ 32]) ((mregs s.dev b 8).flatMap fun x => be 8 x.toNat)
             ∀ k, k < 4 → a + BitVec.ofNat 6 k ≠ 0 → mreg d (a + BitVec.ofNat 6 k) = BitVec.ofNat 64 (x.getD (2 * k) 0 * 2 ^ 32 + x.getD (2 * k + 1) 0))
          ∧ (∀ r, (∀ k, k < 4 → r ≠ a + BitVec.ofNat 6 k) → mreg d r = m r))

/-- BR, JMP, CALL and RET move the PC, CALL writes m63, UNDO writes m60, and TOKEN names the live registers. Every word that fails parity, a BR
with a condition above 6, a TOKEN with a count of 0 or above 16 and an EVWAIT with a selector above 2 end the operation there, and are
reported; a word that asks something of an island that sleeps, or of a channel that trains, has not been sent so far. A NOP that is the 49th
word without a safe point does what POLL_OVERDUE does, and one while the routine waits, or has to yield, does nothing. The frames name every
part of the device that these words can change. -/
def Obligations.MicroControlCompletes : Prop :=  ∀ (s : State) (t : Nat) (a b : BitVec 6) (imm : BitVec 12), let m := mreg s.dev; let at_ := fetchAt s.dev; let n := now t s
    let rel := ((at_ : Int) + imm.toInt + 2 ^ 15).toNat
    (AtWord n (.br a imm) → a.toNat ≤ 6 →
      ∃ d, exec (.br t a imm true) s = .next { s with dev := d } ∧ mreg d = m
        ∧ (let z := (m 61).getLsbD 0; let n := (m 61).getLsbD 1; let c := (m 61).getLsbD 2
           MovedOn t s d (if ([true, z, !z, n, !n, c, !c].getD a.toNat false) = true then rel else at_ + 1)))
    ∧ (AtWord n (.jmp b) → ∃ d, exec (.jmp t b true) s = .next { s with dev := d } ∧ mreg d = m ∧ MovedOn t s d (m b).toNat)
    ∧ (AtWord n (.call b) → ∃ d, exec (.call t b true) s = .next { s with dev := d } ∧ mreg d 63 = BitVec.ofNat 64 (at_ + 1)
        ∧ (∀ r, r ≠ 63 → mreg d r = m r) ∧ MovedOn t s d (m b).toNat)
    ∧ (AtWord n .ret → ∃ d, exec (.ret t true) s = .next { s with dev := d } ∧ mreg d = m ∧ MovedOn t s d (m 63).toNat)
    ∧ (AtWord n (.undo imm) → ∃ d, exec (.undo t imm true) s = .next { s with dev := d } ∧ WroteA t s d 60 (BitVec.ofNat 64 (rel % 2 ^ 15)))
    ∧ (AtWord n (.token imm) → 1 ≤ imm.toNat / 64 → imm.toNat / 64 ≤ 16 →
        ∃ d, exec (.token t imm true) s = .next { s with dev := d } ∧ mreg d = m ∧ d.steward.live = (imm.toNat % 64, imm.toNat / 64)
          ∧ d.steward.pc = at_ + 1 ∧ ({ d with steward := {} } : Dev) = { now t s with steward := {} })
    ∧ (∀ (o : Op) (c : BitVec 6) (i : Instr), runningOp s.dev = some o → s.dev.steward.waiting.1 = 0 → mustYield n o = false →
        ((∀ k, i = .trd k a b c false → islandAwake s.dev (0x40 + (m c).toNat % 8) = true)
          ∧ (∀ k, i = .twr k a b c false → maskAwake s.dev ((m c).toNat / 256 % 256) = true)
          ∧ (∀ k, (i = .crd k a b false ∨ i = .cwr k a b false) → islandAwake s.dev 0x4E = true ∧ channelsTrain s.dev (m b).toNat 64 = false)) →
        (IsWord t a b c imm false i ∨ (AtWord n (.br a imm) ∧ i = .br t a imm true ∧ 7 ≤ a.toNat)
          ∨ (AtWord n (.token imm) ∧ i = .token t imm true ∧ (imm.toNat / 64 = 0 ∨ 17 ≤ imm.toNat / 64))
          ∨ (AtWord n (.evwait a imm) ∧ i = .evwait t a imm true ∧ 3 ≤ imm.toNat / 256)) →
        (o.code = 9 ∨ o.code = 0x0C ∨ o.code = 0x12) → o.ack = none →
        ∃ d, exec i s = .next { s with dev := d } ∧ d.steward.ops = s.dev.steward.ops.filter (fun x => x.id != o.id)
          ∧ (tget {} d.coll.reporters 0xA00).queue.length + (tget {} d.coll.reporters 0xA00).dropped
            = (tget {} s.dev.coll.reporters 0xA00).queue.length + (tget {} s.dev.coll.reporters 0xA00).dropped + 1 ∧ ({ d with fns := [], helm := {}, coll := {}, guard := {}, pair := {}, counters := {}, tm := {}, frames := [], copies := [], nextFrame := 0, nextCopy := 0, cistern := {}, steward := {}, cascade := {}, tables := {}, out := [] } : Dev) = { now t s with fns := [], helm := {}, coll := {}, guard := {}, pair := {}, counters := {}, tm := {}, frames := [], copies := [], nextFrame := 0, nextCopy := 0, cistern := {}, steward := {}, cascade := {}, tables := {}, out := [] })
    ∧ (∀ (o : Op), runningOp s.dev = some o → s.dev.steward.waiting.1 = 0 → mustYield n o = false → microAt s.dev = some .nop → 48 ≤ s.dev.steward.words →
        exec (.nop t true) s = exec (.pollOverdue t) s)
    ∧ (∀ (o : Op), runningOp s.dev = some o → (s.dev.steward.waiting.1 ≠ 0 ∨ mustYield n o = true) → exec (.nop t true) s = .next { s with dev := n })

/-- TRD writes mA with a table's word in a Basin, that of TWR where it wrote one; the spec gives no layout of those addresses, and where the
model's, after R504's, names no word, the value is open (log 22); a word that cannot be used leaves an abort pending, where the operation
may take one. TWR writes its word in every Basin of the mask, RRD and RWR a register, whose contents are open until written (log 22). CRD
issues a read of 64 bytes, whose words are counted and reported as they are read. CWR changes exactly the 64 bytes it writes, and none where
a channel is out of service, which is reported. RELOOK writes mA with the decision digest of the frame at a Hold address, and with an open
one where the model knows no frame there (log 22). Words that ask something of an island that sleeps, or of a channel that trains, wait. The
PC goes to the next word, and the frames name every part of the device that these words can change. -/
def Obligations.MicroMemoryCompletes : Prop :=  ∀ (s : State) (t : Nat) (a b c : BitVec 6), let m := mreg s.dev; let n := now t s; let space := (m c).toNat / 16 % 16; let basin := (m c).toNat % 8
    let k := fun basin => rawKey basin space (m b).toNat; let at_ := (m b).toNat
    (AtWord n (.trd a b c) → islandAwake s.dev (0x40 + basin) = true →
      (∀ v, tget none s.dev.steward.rawWords (k basin) = some v → tableWord n basin space at_ = some v.toNat)
      ∧ (∀ x, tableWord n basin space at_ = some x → wordUnusable n basin space at_ x = false →
          ∃ d, exec (.trd t a b c true) s = .next { s with dev := d } ∧ WroteA t s d a (BitVec.ofNat 64 x))
      ∧ (∀ x (o : Op), runningOp s.dev = some o → tableWord n basin space at_ = some x → wordUnusable n basin space at_ x = true →
          ∃ d, exec (.trd t a b c true) s = .next { s with dev := d } ∧ (∀ r, mreg d r = if r = a ∧ r ≠ 0 then BitVec.ofNat 64 x else m r)
            ∧ d.steward.pc = fetchAt s.dev + 1
            ∧ d.steward.ops = (if opAbortable o.code = true ∧ o.past = false ∧ o.code ≠ 0x0A then
                s.dev.steward.ops.map fun y => if y.id = o.id then { y with aborting := true } else y else s.dev.steward.ops)
            ∧ ({ d with steward := {} } : Dev) = { n with steward := {} })
      ∧ (tableWord n basin space at_ = none → ∃ v, ∃ d, exec (.trd t a b c true) s = .next { s with dev := d } ∧ WroteA t s d a v))
    ∧ (islandAwake s.dev (0x40 + basin) = false → exec (.trd t a b c true) s = .next { s with dev := n })
    ∧ (maskAwake s.dev ((m c).toNat / 256 % 256) = false → exec (.twr t a b c true) s = .next { s with dev := n })
    ∧ (islandAwake s.dev 0x4E = false ∨ channelsTrain s.dev at_ 64 = true →
        exec (.crd t a b true) s = .next { s with dev := n } ∧ exec (.cwr t a b true) s = .next { s with dev := n })
    ∧ (AtWord n (.twr a b c) → maskAwake s.dev ((m c).toNat / 256 % 256) = true →
        ∃ d, exec (.twr t a b c true) s = .next { s with dev := d } ∧ mreg d = m ∧ d.steward.pc = fetchAt s.dev + 1
          ∧ d.steward.crossing = s.dev.steward.crossing + 1
          ∧ (∀ n, n < 8 → tget none d.steward.rawWords (k n) = if bitOf (m c).toNat (8 + n) = true ∧ (unitOf s.dev (64 + n)).step ≠ 5 then some (m a) else tget none s.dev.steward.rawWords (k n))
          ∧ (∀ j, (∀ n, n < 8 → j ≠ k n) → tget none d.steward.rawWords j = tget none s.dev.steward.rawWords j)
          ∧ ({ d with steward := {} } : Dev) = { now t s with steward := {} })
    ∧ (AtWord n (.crd a b) → islandAwake s.dev 0x4E = true → channelsTrain s.dev at_ 64 = false →
        ∃ d, exec (.crd t a b true) s = .next { s with dev := d } ∧ mreg d = m ∧ d.steward.pc = fetchAt s.dev + 1
          ∧ d.steward.issued = s.dev.steward.issued ++ [(a.toNat, if memGood s.dev at_ 64 then some (memBytes s.dev at_ 64) else none)]
          ∧ (memGood s.dev at_ 64 = true → (∀ w, tget 0 s.dev.cistern.flips w = 0) →
              memBytes s.dev at_ 64 = (List.range 64).map fun j => tget 0 s.dev.cistern.mem (at_ + j))
          ∧ d.cistern.mem = s.dev.cistern.mem ∧ d.cistern.channels = (noteRead at_ 64 n).cistern.channels ∧ d.coll = (noteRead at_ 64 n).coll
          ∧ ({ d with steward := {}, cistern := {}, coll := {} } : Dev) = { now t s with steward := {}, cistern := {}, coll := {} })
    ∧ (AtWord n (.cwr a b) → islandAwake s.dev 0x4E = true → channelsTrain s.dev at_ 64 = false → storable s.dev at_ 64 = false →
        ∃ d, exec (.cwr t a b true) s = .next { s with dev := d } ∧ mreg d = m ∧ d.steward.pc = fetchAt s.dev + 1 ∧ d.cistern.mem = s.dev.cistern.mem
          ∧ d.coll = (report 0x910 0x04 0 n).coll ∧ ({ d with steward := {}, cistern := {}, coll := {} } : Dev) = { now t s with steward := {}, cistern := {}, coll := {} })
    ∧ (AtWord n (.cwr a b) → islandAwake s.dev 0x4E = true → channelsTrain s.dev at_ 64 = false → storable s.dev at_ 64 = true →
        ∃ d, exec (.cwr t a b true) s = .next { s with dev := d } ∧ mreg d = m ∧ d.steward.pc = fetchAt s.dev + 1
          ∧ (∀ n j, n < 8 → j < 8 → tget 0 d.cistern.mem ((m b).toNat + 8 * n + j) = BitVec.ofNat 8 ((m (a + BitVec.ofNat 6 n)).toNat / 256 ^ j))
          ∧ (∀ x, x < (m b).toNat ∨ (m b).toNat + 64 ≤ x → tget 0 d.cistern.mem x = tget 0 s.dev.cistern.mem x)
          ∧ d.cistern.channels = s.dev.cistern.channels
          ∧ ({ d with steward := {}, cistern := {} } : Dev) = { now t s with steward := {}, cistern := {} })
    ∧ (AtWord n (.rrd a b) → ∀ x, tget none s.dev.steward.rawRegs (m b).toNat = x →
        (∀ v, x = some v → ∃ d, exec (.rrd t a b true) s = .next { s with dev := d } ∧ WroteA t s d a v) ∧ (x = none → ∃ v, ∃ d, exec (.rrd t a b true) s = .next { s with dev := d } ∧ WroteA t s d a v))
    ∧ (AtWord n (.rwr a b) →
        ∃ d, exec (.rwr t a b true) s = .next { s with dev := d } ∧ mreg d = m ∧ d.steward.pc = fetchAt s.dev + 1
          ∧ (∀ j, tget none d.steward.rawRegs j = if j = (m b).toNat then some (m a) else tget none s.dev.steward.rawRegs j)
          ∧ ({ d with steward := {} } : Dev) = { now t s with steward := {} })
    ∧ (AtWord n (.relook a b c) →
        (∀ e x, heldAt s.dev (m b) = some e → relookIn n e.1 e.2 ((m c).toNat % 2) = some x →
          ∃ d, exec (.relook t a b c true) s = .next { s with dev := d } ∧ WroteA t s d a (BitVec.ofNat 64 x))
        ∧ ((∀ e, heldAt s.dev (m b) = some e → relookIn n e.1 e.2 ((m c).toNat % 2) = none) → ∃ v, v.toNat < 2 ^ 32 ∧ ∃ d, exec (.relook t a b c true) s = .next { s with dev := d } ∧ WroteA t s d a v))

/-- TWAIT, CWAIT, EVWAIT and POLL complete: the routine stands at a safe point, and waits for what the word names, a beat, a generation's
frames, or a delay; a pending abort takes it to its undo entry, and one more unit of its operation's work has been done (log 9). FAULT
reports. DONE ends the operation: with ST_FAULT on its undo path or with an abort registered, with the status it names, and with ST_OK. The
frames name every part of the device that these words can change. -/
def Obligations.MicroWaitsComplete : Prop :=  ∀ (s : State) (t : Nat) (a : BitVec 6) (imm : BitVec 12) (o : Op), let m := mreg s.dev; let at_ := fetchAt s.dev; let n := now t s
    let st := if o.state = 3 ∨ o.aborting = true then stFault else imm.toNat
    runningOp s.dev = some o →
    (AtWord n .twait → ∃ d, exec (.twait t true) s = .next { s with dev := d } ∧ Waits t s d o (1, 0, 0))
    ∧ (AtWord n .cwait → ∃ d, exec (.cwait t true) s = .next { s with dev := d } ∧ Waits t s d o (2, 0, 0))
    ∧ (AtWord n (.evwait a imm) → imm.toNat / 256 = 0 →
        ∃ d, exec (.evwait t a imm true) s = .next { s with dev := d } ∧ Waits t s d o (3, 0, (m a).toNat))
    ∧ (AtWord n (.evwait a imm) → imm.toNat / 256 = 1 →
        ∃ d, exec (.evwait t a imm true) s = .next { s with dev := d } ∧ Waits t s d o (3, 1, imm.toNat % 2))
    ∧ (AtWord n (.evwait a imm) → imm.toNat / 256 = 2 →
        ∃ d, exec (.evwait t a imm true) s = .next { s with dev := d } ∧ Waits t s d o (3, 2, (now t s).clock + (m a).toNat))
    ∧ (AtWord n .poll → ∃ d, exec (.poll t true) s = .next { s with dev := d } ∧ Waits t s d o s.dev.steward.waiting)
    ∧ (AtWord n (.fault a imm) →
        ∃ d, exec (.fault t a imm true) s = .next { s with dev := d } ∧ mreg d = m ∧ d.steward.pc = at_ + 1
          ∧ ((tget {} s.dev.coll.reporters 0xA00).queue.length < 16 → (tget {} d.coll.reporters 0xA00).queue
              = (tget {} s.dev.coll.reporters 0xA00).queue ++ [faultWord 0xA00 (imm.toNat % 64) (m a).toNat])
          ∧ ({ d with steward := {}, coll := {} } : Dev) = { now t s with steward := {}, coll := {} })
    ∧ (AtWord n (.done a imm) → s.dev.pair.mirrorIn = [] →
        ((o.state = 3 ∨ o.aborting = true) ∧ (o.code = 9 ∨ o.code = 0x12) ∨ o.state = 1 ∧ o.aborting = false ∧ (imm ≠ 0 ∨ o.code = 0x12)) →
        ∃ d, exec (.done t a imm true) s = .next { s with dev := d } ∧ d.steward.ops = s.dev.steward.ops.filter (fun x => x.id != o.id)
          ∧ mreg d = m ∧ (∀ x : DoneTicket, o.ticket ≠ 0 → o.opcode ≠ 0x0602 → o.code ≠ 6 → o.code ≠ 7 → s.dev.helm.open_ = [{ num := o.ticket, fn := o.fn }] →
            o.ack = none → o.own = false → s.dev.pair.unacked = [] → d.helm.done.head? = some x →
            x.num = o.ticket ∧ x.bytes.take 2 = le 2 st) ∧ ({ d with fns := [], helm := {}, coll := {}, guard := {}, time := {}, ledger := {}, pair := {}, counters := {}, tm := {}, frames := [], copies := [], nextFrame := 0, nextCopy := 0, ports := [], release := {}, cistern := {}, steward := {}, cascade := {}, tables := {}, out := [] } : Dev) = { now t s with fns := [], helm := {}, coll := {}, guard := {}, time := {}, ledger := {}, pair := {}, counters := {}, tm := {}, frames := [], copies := [], nextFrame := 0, nextCopy := 0, ports := [], release := {}, cistern := {}, steward := {}, cascade := {}, tables := {}, out := [] })

/-- Every microword, with every operand at every value its fields can hold, is read back from its 24 bits as it was written. -/
def Obligations.MicroRoundTrip : Prop := ∀ m : Micro, decodeMicro (encodeMicro m) = some m

/-- Words written out bit by bit from the encoding, and the opcodes 0x23 to 0x3F, which are invalid whatever their other fields. -/
def Obligations.MicroWordsDecode : Prop :=  decodeMicro 0b000001_000101_000110_000000#24 = some (.mov 5 6)
  ∧ decodeMicro 0b000010_000001_000010_000011#24 = some (.add 1 2 3)
  ∧ decodeMicro 0b000011_111111_000010_100000#24 = some (.sub 63 2 32)
  ∧ decodeMicro 0b001010_000111_100000000001#24 = some (.ldi 7 0x801)
  ∧ decodeMicro 0b001110_000010_111111111110#24 = some (.br 2 0xFFE)
  ∧ decodeMicro 0b010000_000000_001001_000000#24 = some (.call 9)
  ∧ decodeMicro 0b010100_000100_000101_000110#24 = some (.twr 4 5 6)
  ∧ decodeMicro 0b011101_000011_001000000000#24 = some (.evwait 3 0x200)
  ∧ decodeMicro 0b100001_001000_000000010110#24 = some (.done 8 0x016)
  ∧ decodeMicro 0b100010_000000_000000100010#24 = some (.fault 0 0x022)
  ∧ ∀ (op a b c : BitVec 6), 0x23 ≤ op.toNat → decodeMicro (op ++ a ++ b ++ c) = none

-- Cascades --------------------------------------------------------------------------------------------------------------------------------------

/-- cascade.configure sets every setting, leaves behind what belongs to the old role or Cascade (log 62), and is turned away while members are
joined, or this worker is, and the role or the CASCADE_ID would change. cascade.allow sets the list, and a closed manager keeps the members
that it names. cascade.status answers the Cascade's state and changes nothing. cascade.expel takes the units of one member out and bars
their serials. cascade.resync waits for the member's next STATUS, with a ticket. The last two are turned away where no member has the
number. The frames name every part of the device that these commands can change. -/
def Obligations.CascadeCommandsComplete : Prop :=  (∀ (s : State) (c : Cmd), let q := c.req; let x := s.dev.cascade; let fn := boxFn s.dev c.box
    let moves := u8 q 4 ≠ x.role ∨ u32 q 0 ≠ x.cascadeId
    let y := if moves then { x with
        own := none, answered := none, contactAt := none, unacked := [], routes := [], links := [], joinParts := [], pushWait := [], pushPart := [] } else x
    Takes s c 48 → u32 q 0 ≠ 0 → u8 q 4 ≤ 2 → u8 q 5 ≤ 7 → 1 ≤ u8 q 6 → u8 q 6 ≤ 7 → u8 q 7 = 0 → u32 q 12 = 0 → nameable s.dev fn (u16 q 8) x.noteRing = true →
    nameable s.dev fn (u16 q 10) x.linkRing = true → (u16 q 8 ≠ u16 q 10 ∨ u16 q 8 = 0xFFFF) →
    ((moves → x.members = [] ∧ joinedWorker s.dev = false) →
      ∃ d, exec (.cascadeConfigure c) s = .next { s with dev := d } ∧ Answers d c stOk 4 []
        ∧ d.cascade = { y with cascadeId := u32 q 0, role := u8 q 4, push := bitOf (u8 q 5) 0, open_ := bitOf (u8 q 5) 1, witness := bitOf (u8 q 5) 2,
                               maxHops := u8 q 6, noteRing := ringName (u16 q 8), linkRing := ringName (u16 q 10), rootHash := slice q 16 32, expelled := [] }
        ∧ ({ d with cascade := {}, boxes := [], out := [] } : Dev) = { now c.t s with cascade := {}, boxes := [], out := [] })
    ∧ ((x.members ≠ [] ∨ joinedWorker s.dev = true) → moves →
      ∃ d, exec (.cascadeConfigure c) s = .next { s with dev := d } ∧ Answers d c stConflict 4 []
        ∧ ({ d with boxes := [], out := [] } : Dev) = { now c.t s with boxes := [], out := [] }))
  ∧ (∀ (s : State) (c : Cmd), let q := c.req; let n := u8 q 0; let es := (List.range n).map fun k => (slice q (4 + 20 * k) 16, u8 q (20 + 20 * k))
      Takes s c 4 → n ≤ 63 → leAt q 1 3 = 0 → 4 + 20 * n ≤ q.length → (∀ k, k < n → u8 q (20 + 20 * k) ≤ 63 ∧ leAt q (21 + 20 * k) 3 = 0) →
      (∀ j k, j < k → k < n → u8 q (20 + 20 * j) = u8 q (20 + 20 * k) → u8 q (20 + 20 * k) = 0) →
      ∃ d, exec (.cascadeAllow c) s = .next { s with dev := d } ∧ Answers d c stOk 4 [] ∧ d.cascade.allow = es
        ∧ (s.dev.cascade.open_ = true → d.cascade = { s.dev.cascade with allow := es, expelled := [] })
        ∧ (s.dev.cascade.open_ = false → ∀ m ∈ d.cascade.members, ∃ e ∈ es, e.1 = m.serial) ∧ ({ d with boxes := [], fns := [], helm := {}, counters := {}, cascade := {}, out := [] } : Dev) = { now c.t s with boxes := [], fns := [], helm := {}, counters := {}, cascade := {}, out := [] })
  ∧ (∀ (s : State) (c : Cmd), let x := s.dev.cascade
      Takes s c 4 → u32 c.req 0 = 0 → ∃ d, exec (.cascadeStatus c) s = .next { s with dev := d }
        ∧ Answers d c stOk 40 (le 1 x.role ++ le 1 (if x.role = 1 then 0 else if x.role = 0 then 0xFF else x.own.getD 0xFF)
            ++ le 1 (((beatsInUse s.dev).bind (·.hops)).getD 0xFF) ++ le 3 0
            ++ le 8 (joinedBits s.dev fun _ => true) ++ le 8 (joinedBits s.dev fun m => m.outOfStep) ++ le 8 x.nextLink ++ le 8 x.swapLate)
        ∧ ({ d with boxes := [], out := [] } : Dev) = { now c.t s with boxes := [], out := [] })
  ∧ (∀ (s : State) (c : Cmd), Takes s c 4 → leAt c.req 1 3 = 0 →
      ((∃ m ∈ s.dev.cascade.members, m.num = u8 c.req 0) →
        ∃ d, exec (.cascadeExpel c) s = .next { s with dev := d } ∧ Answers d c stOk 4 []
          ∧ (∀ m ∈ s.dev.cascade.members, if m.num = u8 c.req 0 then m ∉ d.cascade.members ∧ m.serial ∈ d.cascade.expelled else m ∈ d.cascade.members)
          ∧ ({ d with boxes := [], fns := [], helm := {}, counters := {}, cascade := {}, out := [] } : Dev) = { now c.t s with boxes := [], fns := [], helm := {}, counters := {}, cascade := {}, out := [] })
      ∧ ((∀ m ∈ s.dev.cascade.members, m.num ≠ u8 c.req 0) →
          (∃ d, exec (.cascadeExpel c) s = .next { s with dev := d } ∧ Answers d c stRange 4 []
            ∧ ({ d with boxes := [], out := [] } : Dev) = { now c.t s with boxes := [], out := [] })
          ∧ ∃ d, exec (.cascadeResync c) s = .next { s with dev := d } ∧ Answers d c stRange 8 []
            ∧ ({ d with boxes := [], out := [] } : Dev) = { now c.t s with boxes := [], out := [] })
      ∧ (∀ m, (s.dev.cascade.members.filter fun m => m.num == u8 c.req 0) = [m] → s.dev.helm.open_.length < 1024 →
          ∃ d, exec (.cascadeResync c) s = .next { s with dev := d } ∧ Answers d c stPending 8 (le 2 0 ++ le 4 s.dev.helm.nextTicket)
            ∧ d.cascade = { s.dev.cascade with resyncs := s.dev.cascade.resyncs ++ [(m.num * 256 + m.unit, s.dev.helm.nextTicket)] }
            ∧ ({ d with boxes := [], helm := {}, cascade := {}, out := [] } : Dev) = { now c.t s with boxes := [], helm := {}, cascade := {}, out := [] }))

/-- DISCOVER_SEND: a manager sends DISCOVER with a fresh nonce, a free value (log 7). DISCOVER_RECEIVE: a worker that is no member answers with
JOIN, in two fragments, and relays with one more hop; a DISCOVER of another CASCADE_ID is answered only. JOIN_RECEIVE: the manager keeps the
first fragment, and with the second takes a valid JOIN and answers ACCEPT, or refuses it for the first cause that holds, of which the last
clause on it says when. ACCEPT_RECEIVE and REFUSE_RECEIVE, of whatever Cascade: the worker is a member, or is not. LEAVE_RECEIVE,
MEMBER_TIMEOUT and MANAGER_TIMEOUT end a membership, and every table of a worker stays. The layouts of bodies that the spec leaves open are
the model's (log 16). The frames name every part of the device that these events can change. -/
def Obligations.CascadeMembershipCompletes : Prop :=  (∀ (s : State) (t : Nat), manages s.dev = true → s.dev.helm.state = 1 →
    ∃ d m, exec (.discoverSend t) s = .next { s with dev := d } ∧ m.subtype = 0x42 ∧ d.cascade.nonce.length = 16
      ∧ m.body = (List.range 16).map Config.serial ++ d.cascade.nonce ++ be 1 s.dev.cascade.maxHops ++ be 1 0
      ∧ d.out = ((fabricPorts s.dev).map fun p => Emission.cascade p m).reverse ++ s.dev.out ∧ d.cascade.members = s.dev.cascade.members
      ∧ ({ d with freeIdx := 0, cascade := {}, out := [] } : Dev) = { now t s with freeIdx := 0, cascade := {}, out := [] })
  ∧ (∀ (s : State) (t port : Nat) (msg : CMsg), Hears s.dev port msg → s.dev.cascade.role = 2 → s.dev.helm.state = 1 → upstreamPort s.dev = some port →
      (s.dev.cascade.own = none →
        ∃ d m n nonce, exec (.discoverReceive t port msg) s = .next { s with dev := d }
          ∧ d.out = .cascade port n :: .cascade port m :: (((fabricPorts s.dev).filter (· != port)).map fun p =>
              Emission.cascade p { msg with body := msg.body.take 33 ++ be 1 (beAt msg.body 33 1 + 1) }).reverse ++ s.dev.out
          ∧ m.subtype = 0x43 ∧ m.dst = 0 ∧ m.src = 0xFF ∧ n.subtype = 0x43 ∧ n.dst = 0 ∧ n.src = 0xFF
          ∧ m.body.take 17 = be 1 0 ++ (List.range 16).map Config.serial ∧ n.body.take 17 = be 1 1 ++ (List.range 16).map Config.serial
          ∧ (List.range 16).map Config.serial ++ m.body.drop 17 ++ n.body.drop 17 = joinBody s.dev (beAt msg.body 33 1) (slice msg.body 16 16) nonce
          ∧ m.body.length ≤ 1480 ∧ d.cascade.nonce = nonce ∧ nonce.length = 16
          ∧ d.cascade.answered = some (msg.body.take 16, slice msg.body 16 16) ∧ d.cascade.contactAt = some (now t s).clock
          ∧ ({ d with freeIdx := 0, cascade := {}, out := [] } : Dev) = { now t s with freeIdx := 0, cascade := {}, out := [] })
      ∧ (s.dev.cascade.own.isSome = true →
        ∃ d, exec (.discoverReceive t port msg) s = .next { s with dev := d } ∧ d.cascade = { s.dev.cascade with contactAt := some (now t s).clock }
          ∧ d.out = (((fabricPorts s.dev).filter (· != port)).map fun p =>
              Emission.cascade p { msg with body := msg.body.take 33 ++ be 1 (beAt msg.body 33 1 + 1) }).reverse ++ s.dev.out
          ∧ ({ d with cascade := {}, out := [] } : Dev) = { now t s with cascade := {}, out := [] }))
  ∧ (∀ (s : State) (t port : Nat) (msg : CMsg), Hears s.dev port { msg with cascadeId := s.dev.cascade.cascadeId } → msg.cascadeId ≠ s.dev.cascade.cascadeId →
      s.dev.cascade.role = 2 → s.dev.helm.state = 1 → upstreamPort s.dev = some port →
      (s.dev.cascade.own = none →
        ∃ d m n, exec (.discoverReceive t port msg) s = .next { s with dev := d } ∧ d.out = .cascade port n :: .cascade port m :: s.dev.out
          ∧ m.subtype = 0x43 ∧ n.subtype = 0x43 ∧ m.cascadeId = s.dev.cascade.cascadeId ∧ d.cascade.contactAt = s.dev.cascade.contactAt ∧ ({ d with freeIdx := 0, cascade := {}, out := [] } : Dev) = { now t s with freeIdx := 0, cascade := {}, out := [] })
      ∧ (s.dev.cascade.own.isSome = true → exec (.discoverReceive t port msg) s = .next { s with dev := now t s }))
  ∧ (∀ (s : State) (t port : Nat) (msg : CMsg) (certOk signOk : Bool), let serial := slice msg.body 1 16; let x := s.dev.cascade
      let others := x.joinParts.filter fun e => e.1 != serial
      port ∈ fabricPorts s.dev → msg.etherType = 0x88B5 → msg.version = 1 → s.dev.helm.state = 1 → manages s.dev = true →
      (beAt msg.body 0 1 = 0 → exec (.joinReceive t port msg certOk signOk) s
        = .next { s with dev := { now t s with cascade := { x with joinParts := others.take 63 ++ [(serial, msg.body.drop 17)] } } })
      ∧ (∀ e, beAt msg.body 0 1 ≠ 0 → x.joinParts.find? (fun e => e.1 == serial) = some e →
          let b := serial ++ e.2 ++ msg.body.drop 17; let whole := { msg with body := b }
          (∀ n, joinCause s.dev whole certOk signOk = 0 → assign s.dev (b.take 16) (joinPaired b) (beAt b 20 4) = some n →
            ∃ d m, exec (.joinReceive t port msg certOk signOk) s = .next { s with dev := d } ∧ d.cascade.joinParts = others
              ∧ d.cascade.members = x.members.filter (fun m => m.serial != b.take 16)
                  ++ [{ num := n, unit := beAt b 24 1, serial := b.take 16, pairId := beAt b 20 4, paired := beAt b 25 1 != 0xFF,
                        role := if beAt b 25 1 = 0xFF then 0 else beAt b 25 1, port, statusAt := (now t s).clock, heardAt := (now t s).clock }]
              ∧ d.out = .cascade port m :: s.dev.out ∧ m.subtype = 0x44 ∧ (∃ rest, m.body = be 1 n ++ b.take 16 ++ rest)
              ∧ Tells s d t 0x1001 n (n + 64 * beAt b 24 1) [] ∧ ({ d with fns := [], counters := {}, cascade := {}, out := [] } : Dev) = { now t s with fns := [], counters := {}, cascade := {}, out := [] })
          ∧ (joinCause s.dev whole certOk signOk ≠ 0 →
            ∃ d m, exec (.joinReceive t port msg certOk signOk) s = .next { s with dev := d } ∧ d.cascade.members = x.members ∧ d.cascade.joinParts = others
              ∧ d.out = .cascade port m :: s.dev.out ∧ m.subtype = 0x45 ∧ m.body = be 1 (joinCause s.dev whole certOk signOk) ++ b.take 16
              ∧ ({ d with cascade := {}, out := [] } : Dev) = { now t s with cascade := {}, out := [] })))
  ∧ (∀ (s : State) (msg : CMsg) (certOk signOk : Bool), manages s.dev = true →
      (msg.cascadeId ≠ s.dev.cascade.cascadeId → joinCause s.dev msg certOk signOk = 1)
      ∧ (msg.cascadeId = s.dev.cascade.cascadeId → joinCause s.dev msg false signOk = 2)
      ∧ (msg.cascadeId = s.dev.cascade.cascadeId → rootTrusted s.dev = true → joinCause s.dev msg true false = 3)
      ∧ (msg.cascadeId = s.dev.cascade.cascadeId → rootTrusted s.dev = true →
          (msg.body.take 16 ∈ s.dev.cascade.expelled ∨ s.dev.cascade.open_ = false ∧ ∀ e ∈ s.dev.cascade.allow, e.1 ≠ msg.body.take 16) →
          joinCause s.dev msg true true = 4)
      ∧ (msg.cascadeId = s.dev.cascade.cascadeId → rootTrusted s.dev = true → msg.body.take 16 ∉ s.dev.cascade.expelled →
          (s.dev.cascade.open_ = true ∨ ∃ e ∈ s.dev.cascade.allow, e.1 = msg.body.take 16) →
          let n := assign s.dev (msg.body.take 16) (joinPaired msg.body) (beAt msg.body 20 4); let same := slice msg.body 16 2 = [0x42, 0x30] ∧ beAt msg.body 18 2 = s.dev.helm.fwRelease
          (n = none → joinCause s.dev msg true true = 5)
          ∧ (n.isSome = true → s.dev.cascade.maxHops < beAt msg.body 26 1 → joinCause s.dev msg true true = 6)
          ∧ (n.isSome = true → beAt msg.body 26 1 ≤ s.dev.cascade.maxHops → ¬same → joinCause s.dev msg true true = 7)
          ∧ (n.isSome = true → beAt msg.body 26 1 ≤ s.dev.cascade.maxHops → same → joinCause s.dev msg true true = 0)))
  ∧ (∀ (s : State) (t port : Nat) (msg : CMsg) (certOk signOk : Bool), Hears s.dev port msg → s.dev.cascade.role = 2 → s.dev.helm.state = 1 → s.dev.cascade.answered.isSome = true →
      slice msg.body 1 16 = (List.range 16).map Config.serial →
      (certOk = true → rootTrusted s.dev = true → signOk = true →
        ∃ d, exec (.acceptReceive t port msg certOk signOk) s = .next { s with dev := d } ∧ d.cascade.own = some (beAt msg.body 0 1)
          ∧ d.cascade.answered = none ∧ d.cascade.contactAt = some (now t s).clock ∧ d.cascade.pushNext = 0 ∧ d.cascade.pushPart = []
          ∧ Tells s d t 0x1001 (beAt msg.body 0 1) (beAt msg.body 0 1 + 64 * unitNo s.dev) [] ∧ ({ d with fns := [], counters := {}, cascade := {} } : Dev) = { now t s with fns := [], counters := {}, cascade := {} })
      ∧ (certOk = false → ∃ d, exec (.acceptReceive t port msg certOk signOk) s = .next { s with dev := d }
          ∧ d.cascade = { s.dev.cascade with answered := none } ∧ Tells s d t 0x1003 0xFFFF 2 ((List.range 16).map Config.serial)
          ∧ ({ d with fns := [], counters := {}, cascade := {} } : Dev) = { now t s with fns := [], counters := {}, cascade := {} })
      ∧ (certOk = true → rootTrusted s.dev = true → signOk = false → ∃ d, exec (.acceptReceive t port msg certOk signOk) s = .next { s with dev := d }
          ∧ d.cascade = { s.dev.cascade with answered := none } ∧ Tells s d t 0x1003 0xFFFF 3 ((List.range 16).map Config.serial)
          ∧ ({ d with fns := [], counters := {}, cascade := {} } : Dev) = { now t s with fns := [], counters := {}, cascade := {} })
      ∧ ∀ id, ∃ d, exec (.refuseReceive t port { msg with cascadeId := id }) s = .next { s with dev := d } ∧ d.cascade = { s.dev.cascade with answered := none }
          ∧ Tells s d t 0x1003 0xFFFF (beAt msg.body 0 1) ((List.range 16).map Config.serial) ∧ ({ d with fns := [], counters := {}, cascade := {} } : Dev) = { now t s with fns := [], counters := {}, cascade := {} })
  ∧ (∀ (s : State) (t port : Nat) (msg : CMsg), Hears s.dev port msg →
      (manages s.dev = true →
        ∃ d, exec (.leaveReceive t port msg) s = .next { s with dev := d }
          ∧ d.cascade.members = s.dev.cascade.members.filter (fun m => !(m.num == msg.src && m.unit == msg.srcUnit)) ∧ ({ d with fns := [], helm := {}, counters := {}, cascade := {} } : Dev) = { now t s with fns := [], helm := {}, counters := {}, cascade := {} })
      ∧ (∀ n, s.dev.cascade.role = 2 → s.dev.cascade.own = some n → msg.src = 0 →
        ∃ d, exec (.leaveReceive t port msg) s = .next { s with dev := d } ∧ d.cascade = { s.dev.cascade with own := none, answered := none }
          ∧ Tells s d t 0x1002 n (n + 64 * unitNo s.dev + 256) [] ∧ ({ d with fns := [], counters := {}, cascade := {} } : Dev) = { now t s with fns := [], counters := {}, cascade := {} }))
  ∧ (∀ (s : State) (t : Nat), manages s.dev = true →
      ∃ d, exec (.memberTimeout t) s = .next { s with dev := d }
        ∧ (∀ m ∈ d.cascade.members, m ∈ s.dev.cascade.members ∧ (now t s).clock - m.statusAt < 80000000)
        ∧ (∀ m ∈ s.dev.cascade.members, (∀ g ∈ s.dev.cascade.members, g.num = m.num → g.unit = m.unit → (now t s).clock - g.statusAt < 80000000) →
            m ∈ d.cascade.members) ∧ ({ d with fns := [], helm := {}, counters := {}, cascade := {} } : Dev) = { now t s with fns := [], helm := {}, counters := {}, cascade := {} })
  ∧ (∀ (s : State) (t a : Nat), joinedWorker s.dev = true → s.dev.cascade.contactAt = some a → a + 80000000 ≤ (now t s).clock →
      ∃ d, exec (.managerTimeout t) s = .next { s with dev := d } ∧ d.cascade = { s.dev.cascade with contactAt := none, own := none, answered := none }
        ∧ Tells s d t 0x1005 0xFFFF 0 [] ∧ ({ d with fns := [], counters := {}, cascade := {} } : Dev) = { now t s with fns := [], counters := {}, cascade := {} })

/-- CASCADE_BEAT_SEND: a manager, and a worker within MAX_HOPS that uses its beats, sends one. CASCADE_BEAT_RECEIVE: a beat on a Port that a
time.source entry names gives that Port's hop count, offset and bound, and one of the Port in use may bring a pending step, which is taken
at the same beat or, with a group enabled, sends the servo back to ACQUIRING. BEAT_ECHO: every 16th beat an echo, and the link delay, half
of the round trip less the turnaround. VERDICT_SEND: every unit of a worker Pair is told whether it is granted, by what has been heard of
the units until then (log 117). VERDICT_RECEIVE: the verdict is kept. The layouts of bodies that the spec leaves open are the model's (log
16). The frames name every part of the device that these events can change. -/
def Obligations.CascadeTimeCompletes : Prop :=  (∀ (s : State) (t : Nat), let x := s.dev.cascade; let m := fun p => cascadeMsg s.dev 0x40 0xFF 0xFF (beatBody (now t s) p)
    manages s.dev = true → fabricPorts s.dev ≠ [] →
    ∃ d, exec (.cascadeBeatSend t) s = .next { s with dev := d } ∧ d.out = ((fabricPorts s.dev).map fun p => Emission.cascade p (m p)).reverse ++ s.dev.out
      ∧ d.cascade.members = x.members ∧ ({ d with cascade := {}, out := [] } : Dev) = { now t s with cascade := {}, out := [] })
  ∧ (∀ (s : State) (t h port : Nat), let x := s.dev.cascade; let m := fun p => cascadeMsg s.dev 0x40 0xFF 0xFF (beatBody (now t s) p)
      x.role = 2 → (beatsInUse s.dev).bind (·.hops) = some h → upstreamPort s.dev = some port →
      (h < x.maxHops → ∃ d, exec (.cascadeBeatSend t) s = .next { s with dev := d }
        ∧ d.out = (((fabricPorts s.dev).filter (· ≠ port)).map fun p => Emission.cascade p (m p)).reverse ++ s.dev.out
        ∧ ({ d with cascade := {}, out := [] } : Dev) = { now t s with cascade := {}, out := [] })
      ∧ (x.maxHops ≤ h → exec (.cascadeBeatSend t) s = .next { s with dev := now t s }))
  ∧ (∀ (s : State) (t port : Nat) (msg : CMsg), let b := msg.body; let x := beatLink s.dev port
      let on := (x.at_.map fun a => decide ((now t s).clock - a < 16000)).getD false
      let y : BeatLink := { beats := x.beats + 1, linkDelay := x.linkDelay, at_ := some (now t s).clock, since := if on then x.since else some (now t s).clock,
                            offset := (portTicks (now t s) port : Int) - beAt b 0 8 - x.linkDelay, hops := some (beAt b 11 1),
                            bound := some (min 0xFFFF (beAt b 9 2 + 32)) }
      Hears s.dev port msg → s.dev.cascade.role = 2 → (∃ e ∈ s.dev.time.sources, e.kind = 4 ∧ e.port = port) →
      (beAt b 12 1 ≠ 1 ∨ upstreamPort s.dev ≠ some port →
        ∃ d, exec (.cascadeBeatReceive t port msg) s = .next { s with dev := d }
          ∧ d.cascade = { s.dev.cascade with links := tput {} port y s.dev.cascade.links }
          ∧ ({ d with cascade := {} } : Dev) = { now t s with cascade := {} })
      ∧ (upstreamPort s.dev = some port → beAt b 12 1 = 1 → s.dev.time.src = 4 → s.dev.time.servo = 2 → s.dev.time.step = none → beatNow (now t s) < beAt b 21 8 →
          (groupsEnabled s.dev = false →
            ∃ d, exec (.cascadeBeatReceive t port msg) s = .next { s with dev := d }
              ∧ d.time.step = some { beat := beAt b 21 8, amount := signed 64 (beAt b 13 8), ticket := none }
              ∧ d.cascade = { s.dev.cascade with links := tput {} port y s.dev.cascade.links }
              ∧ ({ d with cascade := {}, time := {} } : Dev) = { now t s with cascade := {}, time := {} })
          ∧ (groupsEnabled s.dev = true →
            ∃ d, exec (.cascadeBeatReceive t port msg) s = .next { s with dev := d } ∧ d.time.step = none ∧ d.time.servo = 1
              ∧ d.cascade = { s.dev.cascade with links := tput {} port y s.dev.cascade.links } ∧ ({ d with fns := [], time := {}, ledger := {}, pair := {}, counters := {}, cascade := {}, out := [] } : Dev) = { now t s with fns := [], time := {}, ledger := {}, pair := {}, counters := {}, cascade := {}, out := [] })))
  ∧ (∀ (s : State) (t port : Nat) (msg : CMsg), (∀ e ∈ s.dev.time.sources, e.kind = 4 → e.port ≠ port) → Hears s.dev port msg → s.dev.cascade.role = 2 →
      exec (.cascadeBeatReceive t port msg) s = .next { s with dev := now t s })
  ∧ (∀ (s : State) (t trip : Nat), let due := s.dev.cascade.links.filter fun e => decide (16 ≤ e.2.beats) && takesBeats s.dev e.1
      s.dev.cascade.role = 2 →
      (∃ d, exec (.beatEcho t trip) s = .next { s with dev := d } ∧ ({ d with cascade := {}, out := [] } : Dev) = { now t s with cascade := {}, out := [] }
        ∧ (∀ e ∈ due, ∃ m, Emission.cascade e.1 m ∈ d.out ∧ m.subtype = 0x41 ∧ m.body = be 8 (coreTicks (now t s).time.west)))
      ∧ (due = [] → exec (.beatEcho t trip) s = .next { s with dev := now t s })
      ∧ (∀ p x, due = [(p, x)] → ∃ d m, exec (.beatEcho t trip) s = .next { s with dev := d } ∧ d.out = .cascade p m :: s.dev.out
          ∧ d.cascade.links = tput {} p { x with
              beats := x.beats - 16, linkDelay := (trip - ((now t s).clock - x.at_.getD (now t s).clock)) / 2 } s.dev.cascade.links))
  ∧ (∀ (s : State) (v : Heard) (n g : Nat), let t := v.t; let x := s.dev.cascade; let h := hearUnits v.units (now t s)
      manages s.dev = true → x.witness = true → (∃ m ∈ x.members, m.num = n ∧ m.paired = true) → grantOf h n = some g →
      ∃ d, exec (.verdictSend v) s = .next { s with dev := d } ∧ tget none d.cascade.grants n = some (g, (now t s).clock)
        ∧ (∀ m ∈ x.members, m.num = n → ∃ msg, Emission.cascade m.port msg ∈ d.out ∧ msg.subtype = 0x48 ∧ msg.dst = n ∧ msg.dstUnit = m.unit
            ∧ msg.body = be 1 (if m.unit = g then 1 else 0))
        ∧ d.cascade.members = h.cascade.members ∧ ({ d with cascade := {}, out := [] } : Dev) = { now t s with cascade := {}, out := [] })
  ∧ (∀ (d : Dev) (n : Nat), let grant := tget none d.cascade.grants n
      (∀ u, grant = none → sendingOf d n = none → (u = 0 ∨ u = 1 ∧ memberAt d n 0 = none) → (memberAt d n u).isSome = true → grantOf d n = some u)
      ∧ (∀ m, grant = none → sendingOf d n = some m → grantOf d n = some m.unit)
      ∧ (∀ g a m x, grant = some (g, a) → memberAt d n g = some m → sendingOf d n = some x →
          grantOf d n = some (if x.unit ≠ g ∧ m.heardAt + 128000 ≤ d.clock then x.unit else g)))
  ∧ (∀ (s : State) (t port : Nat) (msg : CMsg), Hears s.dev port msg → joinedWorker s.dev = true →
      ∃ d, exec (.verdictReceive t port msg) s = .next { s with dev := d }
        ∧ d = { now t s with pair := { s.dev.pair with managerVerdict := some (beAt msg.body 0 1 != 0, (now t s).clock) } })

/-- PUSH_RECEIVE: a table set is written and acknowledged, whatever PUSH before it has been lost, and one that came before is acknowledged
again. ACK_RECEIVE: what was kept for it goes. PUSH_RETRANSMIT and SEAL_NOTE_RETRANSMIT: what is 10 µs old is sent again. PUSH_ACK_TIMEOUT:
a member that has not acknowledged in 10 ms is OUT_OF_STEP. CASCADE_STATUS_SEND and CASCADE_STATUS_RECEIVE: digests are told and compared,
and where a comparison is due and they differ, the table set is pushed. SEAL_NOTE_RECEIVE: a note is taken once, and acknowledged.
CASCADE_LINK_CLOSE: a signed link over the notes. The layouts of bodies that the spec leaves open are the model's (log 16). The frames name
every part of the device that these events can change. -/
def Obligations.CascadeExchangeCompletes : Prop :=  (∀ (s : State) (t port : Nat) (msg : CMsg) (data : Option Snapshot), Hears s.dev port msg → joinedWorker s.dev = true → s.dev.cascade.push = true →
    s.dev.helm.state = 1 → sendingUnit s.dev = true →
    (∀ x, data = some x → (msg.seq = s.dev.cascade.pushNext ∨ seqAfter msg.seq s.dev.cascade.pushNext = true) →
      ∃ d, exec (.pushReceive t port msg data) s = .next { s with dev := d } ∧ d.cascade.pushNext = (msg.seq + 1) % 2 ^ 32 ∧ d.tables.current = x.current
        ∧ d.tables.defs = x.defs ∧ d.tables.em = x.em ∧ d.tables.mcast = x.mcast
        ∧ ({ d.tables.genA with zeroAt := none, roots := [] } : Gen) = { x.genA with zeroAt := none, roots := [] }
        ∧ ({ d.tables.genB with zeroAt := none, roots := [] } : Gen) = { x.genB with zeroAt := none, roots := [] }
        ∧ (∀ p, upstreamPort s.dev = some p → ∃ m, Emission.cascade p m ∈ d.out ∧ m.subtype = 0x47 ∧ m.body = be 2 0x46 ++ be 4 msg.seq)
        ∧ ({ d with steward := {}, cascade := {}, tables := {}, out := [] } : Dev) = { now t s with steward := {}, cascade := {}, tables := {}, out := [] })
    ∧ (seqAfter s.dev.cascade.pushNext msg.seq = true → msg.seq ≠ s.dev.cascade.pushNext → (data = none ∨ seqAfter msg.seq s.dev.cascade.pushNext = false) → (∀ o ∈ s.dev.steward.ops, o.ack ≠ some (1, msg.seq)) →
      ∃ d, exec (.pushReceive t port msg data) s = .next { s with dev := d } ∧ d.cascade.pushNext = s.dev.cascade.pushNext
        ∧ ({ d with cascade := {}, out := [] } : Dev) = { now t s with cascade := {}, out := [] }
        ∧ (∀ p, upstreamPort s.dev = some p → ∃ m, Emission.cascade p m ∈ d.out ∧ m.subtype = 0x47 ∧ m.body = be 2 0x46 ++ be 4 msg.seq)))
  ∧ (∀ (s : State) (t port : Nat) (msg : CMsg), let kind := beAt msg.body 0 2; let seq := beAt msg.body 2 4; let x := s.dev.cascade
      let heard := x.members.map fun m => if m.num = msg.src ∧ m.unit = msg.srcUnit then { m with heardAt := (now t s).clock } else m
      Hears s.dev port msg →
      ∃ d, exec (.ackReceive t port msg) s = .next { s with dev := d }
        ∧ (manages s.dev = true → d.cascade = { x with members := heard, unacked := x.unacked.filter fun u =>
            !(u.subtype == kind && u.seq == seq && u.member == msg.src * 256 + msg.srcUnit) })
        ∧ (manages s.dev = false → d.cascade = { x with unacked := x.unacked.filter (fun u => !(u.subtype == kind && u.seq == seq)),
                                                        contactAt := some (now t s).clock })
        ∧ ({ d with cascade := {} } : Dev) = { now t s with cascade := {} })
  ∧ (∀ (s : State) (t : Nat), (manages s.dev = false ∨ s.dev.helm.state ≠ 1) →
      exec (.pushRetransmit t) s = .next { s with dev := now t s } ∧ exec (.pushAckTimeout t) s = .next { s with dev := now t s })
  ∧ (∀ (s : State) (t : Nat), let x := s.dev.cascade
      manages s.dev = true → s.dev.helm.state = 1 →
      ∃ d, exec (.pushRetransmit t) s = .next { s with dev := d }
        ∧ d.cascade = { x with unacked := x.unacked.map fun u =>
            if u.subtype = 0x46 ∧ 160000 ≤ (now t s).clock - u.sentAt then { u with sentAt := (now t s).clock } else u }
        ∧ (∀ u ∈ x.unacked, ∀ m, u.subtype = 0x46 → 160000 ≤ (now t s).clock - u.sentAt → memberAt s.dev (u.member / 256) (u.member % 256) = some m →
            ∃ msg, msg.subtype = 0x46 ∧ msg.seq = u.seq ∧ msg.body = u.body
              ∧ (if u.body = [] then Emission.pushTables m.port msg (snapshotOf s.dev) else .cascade m.port msg) ∈ d.out)
        ∧ ({ d with cascade := {}, out := [] } : Dev) = { now t s with cascade := {}, out := [] })
  ∧ (∀ (s : State) (t : Nat), let x := s.dev.cascade
      joinedWorker s.dev = true →
      ∃ d, exec (.sealNoteRetransmit t) s = .next { s with dev := d }
        ∧ d.cascade = { x with unacked := x.unacked.map fun u =>
            if u.subtype = 0x4A ∧ 160000 ≤ (now t s).clock - u.sentAt then { u with sentAt := (now t s).clock } else u }
        ∧ (∀ u ∈ x.unacked, ∀ p, u.subtype = 0x4A → 160000 ≤ (now t s).clock - u.sentAt → upstreamPort s.dev = some p →
            ∃ msg, Emission.cascade p msg ∈ d.out ∧ msg.subtype = 0x4A ∧ msg.seq = u.seq ∧ msg.body = u.body)
        ∧ ({ d with cascade := {}, out := [] } : Dev) = { now t s with cascade := {}, out := [] })
  ∧ (∀ (s : State) (t : Nat), let x := s.dev.cascade; let late := fun (u : Unacked) => u.subtype == 0x46 && decide (160000000 ≤ (now t s).clock - u.firstAt)
      manages s.dev = true → s.dev.helm.state = 1 →
      ∃ d, exec (.pushAckTimeout t) s = .next { s with dev := d }
        ∧ d.cascade.members = x.members.map (fun m =>
            if x.unacked.any (fun u => late u && m.num == u.member / 256 && m.unit == u.member % 256) then { m with outOfStep := true } else m)
        ∧ d.cascade.unacked = x.unacked.filter (fun u => !(u.subtype == 0x46 && x.unacked.any fun v => late v && v.member == u.member))
        ∧ (∀ u, x.unacked.filter late = [u] → Tells s d t 0x1004 (u.member / 256) (u.member / 256) [])
        ∧ ({ d with fns := [], counters := {}, cascade := {} } : Dev) = { now t s with fns := [], counters := {}, cascade := {} })
  ∧ (∀ (s : State) (t p : Nat), joinedWorker s.dev = true → s.dev.helm.state = 1 → upstreamPort s.dev = some p →
      ∃ d, exec (.cascadeStatusSend t) s = .next { s with dev := d }
        ∧ d.out = .cascade p (cascadeMsg s.dev 0x49 0 0xFF
            (be 1 s.dev.pair.role ++ be 1 (b2n s.dev.cascade.push) ++ genDigest s.dev 0 ++ genDigest s.dev 1)) :: s.dev.out
        ∧ ({ d with cascade := {}, out := [] } : Dev) = { now t s with cascade := {}, out := [] })
  ∧ (∀ (s : State) (t port : Nat) (msg : CMsg) (m : Member), let key := msg.src * 256 + msg.srcUnit; let b := msg.body
      let role := if m.paired then beAt b 0 1 else 0; let sends := m.paired = false ∨ role ≤ 1
      let seen : Member := { m with statusAt := (now t s).clock, heardAt := (now t s).clock, role := role, push := beAt b 1 1 != 0,
                                    sentAt := if sends then some (now t s).clock else m.sentAt }
      Hears s.dev port msg → manages s.dev = true → s.dev.helm.state = 1 → memberAt s.dev msg.src msg.srcUnit = some m →
      ((∀ r ∈ s.dev.cascade.resyncs, r.1 ≠ key) → m.outOfStep = false →
        ∃ d, exec (.cascadeStatusReceive t port msg) s = .next { s with dev := d } ∧ memberAt d msg.src msg.srcUnit = some seen
          ∧ ({ d with cascade := {} } : Dev) = { now t s with cascade := {} })
      ∧ (slice b 2 32 = genDigest s.dev 0 → slice b 34 32 = genDigest s.dev 1 → msg.srcUnit < 256 →
          ∃ d, exec (.cascadeStatusReceive t port msg) s = .next { s with dev := d } ∧ memberAt d msg.src msg.srcUnit = some { seen with outOfStep := false }
            ∧ (∀ r ∈ d.cascade.resyncs, r.1 ≠ key) ∧ ({ d with fns := [], helm := {}, counters := {}, cascade := {}, out := [] } : Dev) = { now t s with fns := [], helm := {}, counters := {}, cascade := {}, out := [] })
      ∧ (slice b 2 32 ≠ genDigest s.dev 0 ∨ slice b 34 32 ≠ genDigest s.dev 1 → (∃ r ∈ s.dev.cascade.resyncs, r.1 = key) → beAt b 1 1 ≠ 0 → sends →
          (∀ u ∈ s.dev.cascade.unacked, u.subtype = 0x46 → u.member ≠ key) →
          ∃ d msg', exec (.cascadeStatusReceive t port msg) s = .next { s with dev := d } ∧ d.out = .pushTables m.port msg' (snapshotOf s.dev) :: s.dev.out
            ∧ msg'.subtype = 0x46 ∧ d.cascade.resyncs = s.dev.cascade.resyncs
            ∧ ({ d with cascade := {}, out := [] } : Dev) = { now t s with cascade := {}, out := [] }))
  ∧ (∀ (s : State) (t port : Nat) (msg : CMsg) (m : Member), Hears s.dev port msg → manages s.dev = true → memberAt s.dev msg.src msg.srcUnit = some m →
      ∃ d ack, exec (.sealNoteReceive t port msg) s = .next { s with dev := d } ∧ d.out = .cascade port ack :: s.dev.out ∧ ack.subtype = 0x47
        ∧ ack.body = be 2 0x4A ++ be 4 msg.seq
        ∧ d.cascade.linkNotes = (if msg.seq ∈ m.notesSeen then s.dev.cascade.linkNotes else s.dev.cascade.linkNotes ++ [padTo 48 msg.body]) ∧ ({ d with counters := {}, dma := {}, cascade := {}, out := [] } : Dev) = { now t s with counters := {}, dma := {}, cascade := {}, out := [] })
  ∧ (∀ (s : State) (t : Nat), let x := s.dev.cascade; let prev := if x.nextLink = 0 then List.replicate 32 0 else x.lastLink
      let head := le 4 0x594C4331 ++ le 2 1 ++ le 2 (if x.nextLink = 0 then 1 else 0) ++ le 8 x.nextLink ++ le 4 x.linkNotes.length
        ++ le 4 (Config.bootCount.toNat + s.dev.helm.boots) ++ stampBytes (coreStamp (now t s) false) ++ le 4 x.cascadeId ++ le 8 (joinedBits s.dev fun _ => true)
        ++ prev ++ sha256 (prev ++ x.linkNotes.flatten)
      manages s.dev = true → s.dev.dma.links.length < 65536 →
      ∃ d, exec (.cascadeLinkClose t) s = .next { s with dev := d } ∧ d.cascade = { x with nextLink := x.nextLink + 1, lastLink := sha256 head, linkNotes := [] }
        ∧ d.dma.links = (if x.linkRing = none then s.dev.dma.links
            else s.dev.dma.links ++ [(x.nextLink, head ++ be 32 (Config.signR head).toNat ++ be 32 (Config.signS head).toNat ++ List.replicate 16 0)])
        ∧ ({ d with cascade := {}, dma := {} } : Dev) = { now t s with cascade := {}, dma := {} })

-- Power, resets and bring-up --------------------------------------------------------------------------------------------------------------------

/-- power.step commands a unit's step, with a ticket, and a Basin that is commanded above Dry wakes the Cistern's own command; it is turned away
where the rules bar the step. device.reset asks for a cold or a warm reset, or starts one of a Basin or a Port with a ticket; without FORCE
it is turned away for a unit that holds a guarded Port. device.bringup, once, opens ingress and leaves bring-up's settings: the largest
memory profile takes the history and SRC_INFO away, and the counters of the default map start from 0 (log 67). The frames name every part of
the device that these commands can change. -/
def Obligations.PowerCommandsComplete : Prop :=  (∀ (s : State) (c : Cmd) (u : Nat), let q := c.req; let x := unitOf s.dev u
    Takes s c 4 → unitNamed (u8 q 0) (u8 q 1) = some u → u8 q 2 ≤ 5 → (u = 72 → u8 q 2 = 0 ∨ u8 q 2 = 4) → u8 q 3 ≤ 1 →
    (stepConflict s.dev u (u8 q 2) = false → s.dev.helm.open_.length < 1024 →
      ∃ d, exec (.powerStep c) s = .next { s with dev := d } ∧ Answers d c stPending 8 (le 2 0 ++ le 4 s.dev.helm.nextTicket)
        ∧ unitOf d u = { x with commanded := u8 q 2, autoRipple := u != 72 && u8 q 3 == 1, tickets := x.tickets ++ [s.dev.helm.nextTicket] }
        ∧ (64 ≤ u → u < 72 → u8 q 2 < 4 → (unitOf d 72).commanded = 0)
        ∧ (∀ v, v ≠ u → v ≠ 72 → unitOf d v = unitOf s.dev v) ∧ ({ d with boxes := [], helm := {}, power := {}, out := [] } : Dev) = { now c.t s with boxes := [], helm := {}, power := {}, out := [] })
    ∧ (stepConflict s.dev u (u8 q 2) = true →
        ∃ d, exec (.powerStep c) s = .next { s with dev := d } ∧ Answers d c stConflict 8 []
          ∧ ({ d with boxes := [], out := [] } : Dev) = { now c.t s with boxes := [], out := [] }))
  ∧ (∀ (s : State) (c : Cmd), let q := c.req; let i := u16 q 2; let n := s.dev.helm.nextTicket
      Takes s c 4 → u8 q 1 ≤ 1 →
      (u8 q 0 ≤ 1 → i = 0 → s.dev.power.tripAt = none → (u8 q 0 = 1 → s.dev.power.warm = false) →
        ∃ d, exec (.deviceReset c) s = .next { s with dev := d } ∧ Answers d c stOk 8 []
          ∧ d.power = { s.dev.power with asked := s.dev.power.asked ++ [(u8 q 0, (now c.t s).clock)] }
          ∧ ({ d with power := {}, boxes := [], out := [] } : Dev) = { now c.t s with power := {}, boxes := [], out := [] })
      ∧ (u8 q 0 = 2 → i ≤ 7 → guardedBasin s.dev i = false → s.dev.helm.open_.length < 1024 →
          ∃ d, exec (.deviceReset c) s = .next { s with dev := d } ∧ Answers d c stPending 8 (le 2 0 ++ le 4 n)
            ∧ d.power = { s.dev.power with resets := s.dev.power.resets ++ [(2, i, n)] } ∧ ({ d with helm := {}, power := {}, boxes := [], out := [] } : Dev) = { now c.t s with helm := {}, power := {}, boxes := [], out := [] })
      ∧ (u8 q 0 = 2 → i ≤ 7 → guardedBasin s.dev i = true → u8 q 1 = 1 → s.dev.helm.open_.length < 1024 →
          ∃ d, exec (.deviceReset c) s = .next { s with dev := d } ∧ Answers d c stPending 8 (le 2 0 ++ le 4 n)
            ∧ d.power.resets = s.dev.power.resets ++ [(2, i, n)] ∧ ({ d with boxes := [], fns := [], helm := {}, guard := {}, ledger := {}, pair := {}, counters := {}, tm := {}, frames := [], copies := [], ports := [], power := {}, release := {}, out := [] } : Dev) = { now c.t s with boxes := [], fns := [], helm := {}, guard := {}, ledger := {}, pair := {}, counters := {}, tm := {}, frames := [], copies := [], ports := [], power := {}, release := {}, out := [] })
      ∧ (u8 q 0 = 2 → i ≤ 7 → guardedBasin s.dev i = true → u8 q 1 = 0 →
          ∃ d, exec (.deviceReset c) s = .next { s with dev := d } ∧ Answers d c stConflict 8 []
            ∧ ({ d with boxes := [], out := [] } : Dev) = { now c.t s with boxes := [], out := [] })
      ∧ (u8 q 0 = 3 → portUnused s.dev i = false → (portOf s.dev i).drain = none → guardedPort s.dev i = false → s.dev.helm.open_.length < 1024 →
          ∃ d, exec (.deviceReset c) s = .next { s with dev := d } ∧ Answers d c stPending 8 (le 2 0 ++ le 4 n)
            ∧ d.power = { s.dev.power with resets := s.dev.power.resets ++ [(3, i, n)] } ∧ ({ d with helm := {}, power := {}, boxes := [], out := [] } : Dev) = { now c.t s with helm := {}, power := {}, boxes := [], out := [] })
      ∧ (u8 q 0 = 3 → portUnused s.dev i = false → (portOf s.dev i).drain = none → guardedPort s.dev i = true → u8 q 1 = 1 → s.dev.helm.open_.length < 1024 →
          ∃ d, exec (.deviceReset c) s = .next { s with dev := d } ∧ Answers d c stPending 8 (le 2 0 ++ le 4 n)
            ∧ d.power.resets = s.dev.power.resets ++ [(3, i, n)] ∧ ({ d with boxes := [], fns := [], helm := {}, guard := {}, ledger := {}, pair := {}, counters := {}, tm := {}, frames := [], copies := [], ports := [], power := {}, release := {}, out := [] } : Dev) = { now c.t s with boxes := [], fns := [], helm := {}, guard := {}, ledger := {}, pair := {}, counters := {}, tm := {}, frames := [], copies := [], ports := [], power := {}, release := {}, out := [] })
      ∧ (u8 q 0 = 3 → portUnused s.dev i = false → (portOf s.dev i).drain = none → guardedPort s.dev i = true → u8 q 1 = 0 →
          ∃ d, exec (.deviceReset c) s = .next { s with dev := d } ∧ Answers d c stConflict 8 []
            ∧ ({ d with boxes := [], out := [] } : Dev) = { now c.t s with boxes := [], out := [] }))
  ∧ (∀ (s : State) (c : Cmd), let q := c.req
      Takes s c 4 → u8 q 0 ≤ 1 → leAt q 1 3 = 0 →
      (s.dev.power.bringup = true → ∃ d, exec (.deviceBringup c) s = .next { s with dev := d } ∧ Answers d c stConflict 4 []
          ∧ ({ d with boxes := [], out := [] } : Dev) = { now c.t s with boxes := [], out := [] })
      ∧ (s.dev.power.bringup = false →
          ∃ d, exec (.deviceBringup c) s = .next { s with dev := d } ∧ Answers d c stOk 4 [] ∧ d.coll.mode = 0 ∧ d.coll.profile = u8 q 0
            ∧ (u8 q 0 = 1 → d.coll.hist = [] ∧ d.coll.histCount = 0 ∧ d.coll.info = [])
            ∧ (∀ k, inDefaultMap k = true → (∀ w ∈ s.dev.counters.windows, k < w.base ∨ w.base + 8 ≤ k) → tget 0 d.counters.values k = 0)
            ∧ d.guard.ingressOpen = true ∧ d.counters.mapped = true ∧ d.power = { s.dev.power with bringup := true }
            ∧ d.tables.puntRate = 10000 ∧ d.tables.puntBurst = 1024
            ∧ (∀ b, b < 8 → (tget {} d.tables.basins b).malformed = 2 ∧ (tget {} d.tables.basins b).truncated = 2)
            ∧ (∀ k, tget false d.coll.guard k =
                (decide (k / 256 ∈ [0x2, 0x4, 0x5, 0x6, 0x7, 0xA] ∨ k = 0x910 ∨ (0xE00 ≤ k ∧ k ≤ 0xE1F)) || tget false s.dev.coll.guard k))
            ∧ ({ d with boxes := [], coll := {}, guard := {}, counters := {}, power := {}, tables := {}, out := [] } : Dev) = { now c.t s with boxes := [], coll := {}, guard := {}, counters := {}, power := {}, tables := {}, out := [] }))

/-- COLD_RESET_START, VIN_FAIL and POWER_ON_RESET_RELEASE leave a device at its reset values but for the flash and the straps, and after a
thermal trip the rails are still to come up. WARM_RESET_START: first the freeze, and 100 µs on what the warm reset resets and what it keeps.
Both resets send vector 3 where Helm's STATE changes, and a warm one vector 1 where it ends the safe state (log 79). VIN_RISE,
REGULATOR_GROUP_UP, SERDES_CALIBRATION_DONE and PERST_DEASSERT each note what came. HELM_BOOT_DONE: Helm boots the marked bank, or the
other, or halts. PERST_ASSERT takes rings, completion queues and mailboxes. INGRESS_OPEN ends a warm reset's replay. BASIN_RESET and
PORT_RESET take what the unit holds. The frames name every part of the device that the last of these can change. -/
def Obligations.ResetsComplete : Prop :=  (∀ (s : State) (t : Nat) (pref two : Bool), resetDue (now t s) 0 = true →
    ∃ d, exec (.coldResetStart t pref two none) s = .next { s with dev := d } ∧ d.helm.state = 0 ∧ d.boxes = [] ∧ d.fns = [] ∧ d.coll = {} ∧ d.frames = [] ∧ d.copies = [] ∧ d.ports = [] ∧ d.masters = []
      ∧ d.tables = {} ∧ d.ledger = {} ∧ d.ptp = {} ∧ d.counters = {} ∧ d.tm = {} ∧ d.spec = {} ∧ d.release = {} ∧ d.dma = {} ∧ d.steward = bringupSteward
      ∧ (s.dev.helm.state ≠ 0 → ∀ f ∈ functions s.dev, Emission.msix f 3 ∈ d.out)
      ∧ d.coll.mode = 1 ∧ d.cistern.mem = [] ∧ d.guard.streams = [] ∧ d.guard.cause = 0 ∧ d.guard.ingressOpen = false ∧ d.pair.mode = 0
      ∧ d.cistern.layout = s.dev.cistern.nextLayout ∧ d.helm.boots = s.dev.helm.boots ∧ d.helm.running = s.dev.helm.marked
      ∧ d.helm.bank0 = s.dev.helm.bank0 ∧ d.helm.bank1 = s.dev.helm.bank1 ∧ d.cascade.role = s.dev.cascade.role
      ∧ (s.dev.power.tripped = false → d.helm.bifurcated = two ∧ d.pair.rolePref = pref ∧ d.power.held = false)
      ∧ (s.dev.power.tripped = true → d.power.held = true ∧ d.power.groupsUp = 1))
  ∧ (∀ (s : State) (t placed : Nat) (patch : Option (List Byte)), resetDue (now t s) 1 = true → s.dev.power.tripAt = none →
      (s.dev.power.resetFreeze = none →
        ∃ d, exec (.warmResetStart t placed patch) s = .next { s with dev := d } ∧ d.power = { s.dev.power with resetFreeze := some (now t s).clock }
          ∧ d.guard.frozen = true ∧ d.guard.suspended = true
          ∧ ({ d with power := {}, guard := {}, ledger := {}, pair := {}, counters := {}, tm := {}, frames := [], copies := [], ports := [], release := {}, out := [] } : Dev) = { now t s with power := {}, guard := {}, ledger := {}, pair := {}, counters := {}, tm := {}, frames := [], copies := [], ports := [], release := {}, out := [] })
      ∧ (∀ a, s.dev.power.resetFreeze = some a → (now t s).clock < a + 1600000 → exec (.warmResetStart t placed patch) s = .next { s with dev := now t s }))
  ∧ (∀ (s : State) (t a : Nat), resetDue (now t s) 1 = true → s.dev.power.tripAt = none → s.dev.power.resetFreeze = some a → a + 1600000 ≤ (now t s).clock →
      ∃ d, exec (.warmResetStart t 0 none) s = .next { s with dev := d } ∧ d.helm.state = 0 ∧ d.coll.mode = 3 ∧ d.frames = [] ∧ d.copies = []
        ∧ d.pair.role = (if s.dev.pair.mode = 1 then 4 else 0) ∧ d.tables.defs = s.dev.tables.defs ∧ d.tables.em = s.dev.tables.em
        ∧ d.tables.swap = none ∧ (∀ b, b < 8 → (tget {} d.tables.basins b).em = [])
        ∧ d.ledger.rehash = true ∧ d.helm.open_ = []
        ∧ d.power.ended = s.dev.power.ended ++ s.dev.helm.open_.map (·.num)
        ∧ d.steward.ops.map (·.code) = (if s.dev.pair.mode = 0 then [0x0B, 0x0E, 0x0D] else [0x0B, 0x0E])
        ∧ d.cistern.selfRefresh = true ∧ d.cistern.pasr = pasrMask s.dev
        ∧ (s.dev.helm.state ≠ 0 → ∀ f ∈ functions s.dev, Emission.msix f 3 ∈ d.out)
        ∧ (s.dev.guard.cause ≠ 0 → lastingCauses s.dev = [] → ∀ f ∈ functions s.dev, Emission.msix f 1 ∈ d.out)
        ∧ d.pair.bad = decide (s.dev.time.servo ≤ 1)
        ∧ ((∀ r ∈ s.dev.guard.retains, retainOpen r = false) →
            ∀ a, tget 0 d.cistern.mem a = if a < spillBase s.dev then tget 0 s.dev.cistern.mem a else 0)
        ∧ d.cistern.layout = s.dev.cistern.layout ∧ d.counters.progs = s.dev.counters.progs ∧ d.power.sensors = []
        ∧ (∀ k, tget [] d.coll.present k = []) ∧ d.coll.guard = s.dev.coll.guard ∧ d.time = { (now t s).time with step := none }
        ∧ d.guard.streams = s.dev.guard.streams ∧ d.boxes = [] ∧ d.pair.disputes = s.dev.pair.disputes ∧ d.cistern.scrubAt = s.dev.cistern.scrubAt
        ∧ ∀ f, (fnOf d f).evSeq = (fnOf s.dev f).evSeq)
  ∧ (∀ (s : State) (t : Nat), ∃ d, exec (.vinFail t) s = .next { s with dev := d } ∧ d.power.vin = false ∧ d.power.held = true ∧ d.power.groupsUp = 0
      ∧ d.helm.state = 0 ∧ d.cistern.mem = [] ∧ d.boxes = [] ∧ d.fns = [] ∧ d.coll = {} ∧ d.frames = [] ∧ d.copies = [] ∧ d.ports = [] ∧ d.masters = []
      ∧ d.tables = {} ∧ d.ledger = {} ∧ d.ptp = {} ∧ d.counters = {} ∧ d.tm = {} ∧ d.spec = {} ∧ d.release = {} ∧ d.dma = {} ∧ d.steward = bringupSteward)
  ∧ (∀ (s : State) (t : Nat), s.dev.power.vin = false → ∃ d, exec (.vinRise t) s = .next { s with dev := d }
      ∧ d = { now t s with power := { s.dev.power with vin := true } })
  ∧ (∀ (s : State) (t : Nat), s.dev.power.held = true → s.dev.power.vin = true → s.dev.power.groupsUp < 4 →
      ∃ d, exec (.regulatorGroupUp t) s = .next { s with dev := d } ∧ d = { now t s with power := { s.dev.power with groupsUp := s.dev.power.groupsUp + 1 } })
  ∧ (∀ (s : State) (t : Nat) (pref two : Bool), s.dev.power.held = true → s.dev.power.vin = true → s.dev.power.groupsUp = 4 →
      ∃ d, exec (.powerOnResetRelease t pref two none) s = .next { s with dev := d } ∧ d.power.held = false ∧ d.helm.bifurcated = two ∧ d.pair.rolePref = pref
        ∧ d.helm.state = 0 ∧ d.coll.mode = 1 ∧ d.time.west.updated = (now t s).clock ∧ d.boxes = [] ∧ d.fns = [] ∧ d.coll = {} ∧ d.frames = [] ∧ d.copies = [] ∧ d.ports = [] ∧ d.masters = []
      ∧ d.tables = {} ∧ d.ledger = {} ∧ d.ptp = {} ∧ d.counters = {} ∧ d.tm = {} ∧ d.spec = {} ∧ d.release = {} ∧ d.dma = {} ∧ d.steward = bringupSteward)
  ∧ (∀ (s : State) (t : Nat), s.dev.power.held = false → ∃ d, exec (.serdesCalibrationDone t) s = .next { s with dev := d }
      ∧ d = { now t s with power := { s.dev.power with calibrated := true } })
  ∧ (∀ (s : State) (t release : Nat) (reads other : Bool), let m := s.dev.helm.marked % 2; let good := fun (n : Nat) (r : Bool) => r && (bankOf s.dev n).image.isNone
      s.dev.helm.state = 0 → s.dev.power.held = false → ((bankOf s.dev m).image = none ∨ reads = false) → ((bankOf s.dev (1 - m)).image = none ∨ other = false) →
      ∃ d, exec (.helmBootDone t reads other release) s = .next { s with dev := d }
        ∧ d.helm.state = (if good m reads || good (1 - m) other then 1 else 3)
        ∧ (good m reads = true → d.helm.running = m ∧ d.helm.fwRelease = release % 65536 ∧ d.helm.boots = s.dev.helm.boots + b2n s.dev.power.coldBoot)
        ∧ (good m reads = false → good (1 - m) other = true → d.helm.running = 1 - m) ∧ ({ d with freeIdx := 0, fns := [], helm := {}, coll := {}, counters := {}, power := {}, release := {}, tables := {}, out := [] } : Dev) = { now t s with freeIdx := 0, fns := [], helm := {}, coll := {}, counters := {}, power := {}, release := {}, tables := {}, out := [] })
  ∧ (∀ (s : State) (t : Nat), ∃ d, exec (.perstAssert t) s = .next { s with dev := d } ∧ d.dma.rings = [] ∧ d.dma.cqs = [] ∧ d.boxes = []
      ∧ d.power = { s.dev.power with perst := true } ∧ ({ d with boxes := [], fns := [], helm := {}, ledger := {}, counters := {}, masters := [], power := {}, dma := {} } : Dev) = { now t s with boxes := [], fns := [], helm := {}, ledger := {}, counters := {}, masters := [], power := {}, dma := {} })
  ∧ (∀ (s : State) (t : Nat), ∃ d, exec (.perstDeassert t) s = .next { s with dev := d } ∧ d = { now t s with power := { s.dev.power with perst := false } })
  ∧ (∀ (s : State) (t : Nat), s.dev.power.warm = true → (∀ o ∈ s.dev.steward.ops, o.code ≠ 0x0D) →
      ∃ d, exec (.ingressOpen t) s = .next { s with dev := d }
        ∧ d = { now t s with guard := { s.dev.guard with ingressOpen := true }, power := { s.dev.power with warm := false },
                             coll := { s.dev.coll with replayDone := some (now t s).clock } })
  ∧ (∀ (s : State) (t b n : Nat), s.dev.power.resets = [(2, b, n)] → b < 8 →
      ∃ d, exec (.basinReset t b) s = .next { s with dev := d } ∧ d.power.resets = [] ∧ (tget {} d.tables.basins b).em = []
        ∧ (tget {} d.tables.basins b).queue = [] ∧ d.tables.em = s.dev.tables.em
        ∧ (∀ k, k ≠ b → (tget {} d.tables.basins k).em = (tget {} s.dev.tables.basins k).em)
        ∧ (s.dev.helm.open_ = [{ num := n, fn := 0 }] → d.helm.open_ = []) ∧ ({ d with fns := [], helm := {}, time := {}, ptp := {}, ledger := {}, counters := {}, tm := {}, frames := [], copies := [], nextFrame := 0, nextCopy := 0, power := {}, release := {}, steward := {}, tables := {}, out := [] } : Dev) = { now t s with fns := [], helm := {}, time := {}, ptp := {}, ledger := {}, counters := {}, tm := {}, frames := [], copies := [], nextFrame := 0, nextCopy := 0, power := {}, release := {}, steward := {}, tables := {}, out := [] })
  ∧ (∀ (s : State) (t p n : Nat), s.dev.power.resets = [(3, p, n)] →
      ∃ d, exec (.portReset t p) s = .next { s with dev := d } ∧ d.power.resets = []
        ∧ ((portOf s.dev p).state = 0 → d.ports = s.dev.ports)
        ∧ ((portOf s.dev p).state ≠ 0 → (portOf d p).state = firstState (portOf s.dev p) ∧ (portOf d p).alignedAt = none)
        ∧ ((portOf s.dev p).state = 4 → (portOf d p).lastDown = 8) ∧ ({ d with fns := [], helm := {}, guard := {}, ledger := {}, pair := {}, counters := {}, tm := {}, frames := [], copies := [], ports := [], power := {}, release := {}, tables := {}, out := [] } : Dev) = { now t s with fns := [], helm := {}, guard := {}, ledger := {}, pair := {}, counters := {}, tm := {}, frames := [], copies := [], ports := [], power := {}, release := {}, tables := {}, out := [] })

/-- SENSOR_READ: the 16 readings, and the trip from 115 °C up or where a die shows none. THERMAL_POWER_OFF: 1 ms after the trip the device is
off but for what VAON feeds. STEP_REACHED: a unit is at its commanded step, and its tickets complete, but for a Cistern whose writers have
yet to finish before Dry. AUTO_RIPPLE_IDLE, UNIT_WAKE and UNIT_RETURN: a unit without work goes to Ripple by itself, wakes, and returns to
its step. CISTERN_WAKE and CISTERN_IDLE: the Cistern leaves self-refresh, and returns to it. The frames name every part of the device that
these events can change. -/
def Obligations.PowerEventsComplete : Prop :=  (∀ (s : State) (t : Nat) (rs : List (Option Nat)),
    ∃ d, exec (.sensorRead t rs) s = .next { s with dev := d }
      ∧ (∀ i, i < 16 → match rs.getD i none with
          | some v => tget (0, false) d.power.sensors i = (v % 4096, true)
          | none => (tget (0, false) d.power.sensors i).2 = false)
      ∧ ((∃ i v, i < 16 ∧ rs.getD i none = some v ∧ 920 ≤ signed 12 v) → s.dev.power.tripAt = none →
          d.power.tripAt = some (now t s).clock ∧ (s.dev.guard.cause = 0 → d.guard.cause = 3))
      ∧ ((∀ k, k < 8 → (∃ v, rs.getD k none = some v) ∧ ∃ v, rs.getD (8 + k) none = some v) → (∀ i v, i < 16 → rs.getD i none = some v → signed 12 v < 920) →
          d.power.tripAt = s.dev.power.tripAt ∧ d.guard = s.dev.guard) ∧ ({ d with freeIdx := 0, fns := [], helm := {}, coll := {}, guard := {}, ledger := {}, pair := {}, counters := {}, tm := {}, frames := [], copies := [], ports := [], power := {}, release := {}, out := [] } : Dev) = { now t s with freeIdx := 0, fns := [], helm := {}, coll := {}, guard := {}, ledger := {}, pair := {}, counters := {}, tm := {}, frames := [], copies := [], ports := [], power := {}, release := {}, out := [] })
  ∧ (∀ (s : State) (t a : Nat), s.dev.power.tripAt = some a → s.dev.power.tripped = false → a + 16000000 ≤ (now t s).clock →
      ∃ d, exec (.thermalPowerOff t) s = .next { s with dev := d } ∧ d.power.tripped = true ∧ d.power.groupsUp = 1 ∧ d.helm.state = 3 ∧ d.frames = []
        ∧ d.copies = [] ∧ d.tables = {} ∧ d.cistern.mem = [] ∧ d.pair.role = s.dev.pair.role ∧ ({ d with boxes := [], fns := [], helm := {}, coll := {}, guard := {}, time := {}, ptp := {}, ledger := {}, pair := {}, counters := {}, tm := {}, spec := {}, frames := [], copies := [], ports := [], masters := [], power := {}, release := {}, dma := {}, cistern := {}, steward := {}, cascade := {}, tables := {}, out := [] } : Dev) = { now t s with boxes := [], fns := [], helm := {}, coll := {}, guard := {}, time := {}, ptp := {}, ledger := {}, pair := {}, counters := {}, tm := {}, spec := {}, frames := [], copies := [], ports := [], masters := [], power := {}, release := {}, dma := {}, cistern := {}, steward := {}, cascade := {}, tables := {}, out := [] })
  ∧ (∀ (s : State) (t u : Nat), let x := unitOf s.dev u
      u ≤ 72 → ((64 ≤ u ∧ u ≤ 71 ∧ x.commanded < 4) → (unitOf s.dev 72).step = 0) → (u = 72 → x.commanded = 4 → x.step ≠ 4 → writersBusy s.dev = false) →
      ∃ d, exec (.stepReached t u) s = .next { s with dev := d } ∧ (unitOf d u).step = x.commanded ∧ (unitOf d u).tickets = []
        ∧ (∀ v, v ≠ u → unitOf d v = unitOf s.dev v) ∧ (u = 72 → x.commanded = 4 → x.step ≠ 4 → d.cistern.selfRefresh = true ∧ d.cistern.lostSpill = some []
            ∧ d.cistern.pasr = pasrMask s.dev)
        ∧ (u = 72 → x.commanded ≠ 4 → x.step = 4 → d.cistern.selfRefresh = false)
        ∧ (64 ≤ u → u < 72 → x.commanded = 5 → x.step ≠ 5 → (tget {} d.tables.basins (u - 64)).em = [])
        ∧ (∀ n, x.tickets = [n] → s.dev.helm.open_ = [{ num := n, fn := 0 }] → d.helm.open_ = []) ∧ ({ d with freeIdx := 0, fns := [], helm := {}, time := {}, counters := {}, power := {}, cistern := {}, steward := {}, tables := {} } : Dev) = { now t s with freeIdx := 0, fns := [], helm := {}, time := {}, counters := {}, power := {}, cistern := {}, steward := {}, tables := {} })
  ∧ (∀ (s : State) (t : Nat), let x := unitOf s.dev 72
      x.commanded = 4 → x.step ≠ 4 → writersBusy s.dev = true → exec (.stepReached t 72) s = .next { s with dev := now t s })
  ∧ (∀ (s : State) (t u : Nat), let x := unitOf s.dev u
      u < 72 → x.autoRipple = true → x.commanded = 0 → x.step = 0 → x.workAt + 3200 ≤ (now t s).clock →
      (rippleBarred s.dev u = false → unitBusy s.dev u = false →
        ∃ d, exec (.autoRippleIdle t u) s = .next { s with dev := d } ∧ unitOf d u = { x with step := 1 } ∧ (∀ v, v ≠ u → unitOf d v = unitOf s.dev v)
          ∧ ({ d with power := {} } : Dev) = { now t s with power := {} })
      ∧ (rippleBarred s.dev u = true ∨ unitBusy s.dev u = true → exec (.autoRippleIdle t u) s = .next { s with dev := now t s }))
  ∧ (∀ (s : State) (t u : Nat), let x := unitOf s.dev u
      (u < 72 ∧ x.step = 1 ∧ x.commanded = 0 ∨ 64 ≤ u ∧ u ≤ 71 ∧ 2 ≤ x.step ∧ x.step ≤ 4) →
      ∃ d, exec (.unitWake t u) s = .next { s with dev := d } ∧ unitOf d u = { x with step := 0, workAt := (now t s).clock }
        ∧ (∀ v, v ≠ u → unitOf d v = unitOf s.dev v) ∧ ({ d with power := {}, time := {} } : Dev) = { now t s with power := {}, time := {} })
  ∧ (∀ (s : State) (t u : Nat), let x := unitOf s.dev u
      64 ≤ u → u ≤ 71 → x.step = 0 → 2 ≤ x.commanded → x.commanded ≤ 4 → x.tickets = [] → x.workAt + 16000 ≤ (now t s).clock → unitBusy s.dev u = false →
      ∃ d, exec (.unitReturn t u) s = .next { s with dev := d } ∧ unitOf d u = { x with step := x.commanded, workAt := (now t s).clock }
        ∧ ({ d with power := {} } : Dev) = { now t s with power := {} })
  ∧ (∀ (s : State) (t : Nat), let x := unitOf s.dev 72
      (x.step = 4 → ∃ d, exec (.cisternWake t) s = .next { s with dev := d } ∧ unitOf d 72 = { x with step := 0, workAt := (now t s).clock }
        ∧ d.cistern = { s.dev.cistern with selfRefresh := false, channels := d.cistern.channels }
        ∧ (∀ k, k < 16 → ∃ o, chanOf d k = { chanOf s.dev k with oscillators := o }) ∧ (∀ k, 16 ≤ k → chanOf d k = chanOf s.dev k)
        ∧ (∀ v, v ≠ 72 → unitOf d v = unitOf s.dev v) ∧ ({ d with freeIdx := 0, power := {}, cistern := {}, time := {} } : Dev) = { now t s with freeIdx := 0, power := {}, cistern := {}, time := {} })
      ∧ (x.step = 0 → x.commanded = 4 → x.tickets = [] → x.workAt + 160000 ≤ (now t s).clock → s.dev.cistern.askedAt + 160000 ≤ (now t s).clock → writersBusy s.dev = false →
          ∃ d, exec (.cisternIdle t) s = .next { s with dev := d } ∧ unitOf d 72 = { x with step := 4, workAt := (now t s).clock }
            ∧ d.cistern = { s.dev.cistern with selfRefresh := true, lostSpill := some [], pasr := pasrMask s.dev } ∧ (∀ v, v ≠ 72 → unitOf d v = unitOf s.dev v)
            ∧ ({ d with power := {}, cistern := {} } : Dev) = { now t s with power := {}, cistern := {} }))

/-- REGISTER_WRITE, to a register that has no row of its own: a mailbox's command word, length, doorbell, DB_IGNORED and request area, through
function 0 of a device that is not bifurcated; the write-one-to-clear bits of a ring; CQ_HEAD; and offsets that are not listed, which ignore
it. The frames name every part of the device that these writes can change. -/
def Obligations.RegisterWriteCompletes : Prop :=  ∀ (s : State) (t m : Nat) (v : BitVec 32), let b := boxOf s.dev m
    (m < 16 → s.dev.helm.bifurcated = false →
      (∃ d, exec (.registerWrite t 0 (0x1000 + 32 * m) v) s = .next { s with dev := d } ∧ boxOf d m = { b with cmd := v.toNat }
        ∧ (∀ k, k ≠ m → boxOf d k = boxOf s.dev k) ∧ ({ d with boxes := [] } : Dev) = { now t s with boxes := [] })
      ∧ (∃ d, exec (.registerWrite t 0 (0x1004 + 32 * m) v) s = .next { s with dev := d } ∧ boxOf d m = { b with len := v.toNat % 8192 }
        ∧ (∀ k, k ≠ m → boxOf d k = boxOf s.dev k) ∧ ({ d with boxes := [] } : Dev) = { now t s with boxes := [] })
      ∧ (∃ d, exec (.registerWrite t 0 (0x1008 + 32 * m) v) s = .next { s with dev := d }
        ∧ boxOf d m = (if v.toNat % 2 = 0 then b else if b.state = 1 ∨ s.dev.helm.state = 0 then { b with dbIgnored := true }
            else { b with state := 1, tag := b.cmd / 65536, opcode := b.cmd % 65536, req := padTo (min b.len 4096) b.reqArea, taken := s.dev.helm.state == 1,
                                                                   rang := (now t s).clock })
        ∧ (∀ k, k ≠ m → boxOf d k = boxOf s.dev k) ∧ ({ d with boxes := [] } : Dev) = { now t s with boxes := [] })
      ∧ (∃ d, exec (.registerWrite t 0 (0x100C + 32 * m) v) s = .next { s with dev := d }
        ∧ boxOf d m = { b with dbIgnored := b.dbIgnored && !bitOf v.toNat 2 }
        ∧ (∀ k, k ≠ m → boxOf d k = boxOf s.dev k) ∧ ({ d with boxes := [] } : Dev) = { now t s with boxes := [] })
      ∧ (∀ w, w < 1024 → ∃ d, exec (.registerWrite t 0 (0x100000 + 8192 * m + 4 * w) v) s = .next { s with dev := d }
        ∧ boxOf d m = (if b.state = 1 then b else { b with reqArea := overwrite b.reqArea (4 * w) (le 4 v.toNat) })
        ∧ (∀ k, k ≠ m → boxOf d k = boxOf s.dev k) ∧ ({ d with boxes := [] } : Dev) = { now t s with boxes := [] }))
    ∧ (∀ r, r < 2048 → ((ringOf s.dev r).state = 0 ∨ (ringOf s.dev r).fn = 0) →
        ∃ d, exec (.registerWrite t 0 (0x400004 + 256 * r) v) s = .next { s with dev := d }
          ∧ ringOf d r = { ringOf s.dev r with dbIgnored := (ringOf s.dev r).dbIgnored && !bitOf v.toNat 19,
                                               hostError := (ringOf s.dev r).hostError && !bitOf v.toNat 20 }
          ∧ (∀ k, k ≠ r → ringOf d k = ringOf s.dev k) ∧ d.dma.cqs = s.dev.dma.cqs ∧ ({ d with dma := {} } : Dev) = { now t s with dma := {} })
    ∧ (∀ k, k < 64 → ((cqOf s.dev k).enabled = false ∨ (cqOf s.dev k).fn = 0) → (∀ e ∈ s.dev.dma.rings, e.2.state ≠ 5) →
        ∃ d, exec (.registerWrite t 0 (0x500000 + 256 * k) v) s = .next { s with dev := d } ∧ cqOf d k = { cqOf s.dev k with head := v.toNat % 65536 }
          ∧ (∀ j, j ≠ k → cqOf d j = cqOf s.dev j) ∧ d.dma.rings = s.dev.dma.rings ∧ ({ d with dma := {} } : Dev) = { now t s with dma := {} })
    ∧ (∀ fn off, (off < 0x1000 ∨ off % 4 ≠ 0 ∨ 0x504000 ≤ off ∨ 2 ≤ fn) → exec (.registerWrite t fn off v) s = .next { s with dev := now t s })

/-- What a reset leaves: Helm BOOTING, every Port DISABLED, the Collector in STARTUP with no source guarded, no safe state, ingress closed, the
empty configuration in force, an empty ledger, the default regions, the training of the Cistern's channels as the one operation, no ring or
member, and no mailbox in use. -/
def Obligations.ResetState : Prop :=  State.reset.pending = [] ∧ State.reset.dev.helm.state = 0 ∧ (∀ p, (portOf State.reset.dev p).state = 0) ∧ State.reset.dev.coll.mode = 1
    ∧ (∀ k, tget false State.reset.dev.coll.guard k = false ∧ tget false State.reset.dev.coll.status k = false) ∧ State.reset.dev.guard.cause = 0
    ∧ State.reset.dev.guard.ingressOpen = false ∧ acceptCond State.reset.dev = 0 ∧ State.reset.dev.time.servo = 0 ∧ State.reset.dev.ledger.nextRecord = 0
    ∧ State.reset.dev.ledger.nextSeal = 0 ∧ State.reset.dev.cistern.layout = (16384, 16384, 16384) ∧ (State.reset.dev.steward.ops.map fun o => (o.code, o.state, o.ticket)) = [(0x0B, 0, 0)]
    ∧ (∀ r, (ringOf State.reset.dev r).state = 0) ∧ State.reset.dev.cascade.members = [] ∧ (∀ m, (boxOf State.reset.dev m).state = 0)
    ∧ State.reset.dev.tables.defs = [] ∧ State.reset.dev.frames = []

/-- The Cistern's bytes are in their one canonical form, which is the model's own (log 87), after reset; and a write of bytes keeps it, writes
exactly those, leaves every other byte alone, and makes good every word that it writes whole. Each usable byte lies in its channel's storage
where the mapping puts it, and its word's check bytes beside it. -/
def Obligations.CisternWrite : Prop :=  Memory.wf State.reset.dev.cistern.mem = true
  ∧ ∀ (d : Dev) (addr : Nat) (bs : List Byte),
      (Memory.wf d.cistern.mem = true → Memory.wf (memWrite addr bs d).cistern.mem = true)
      ∧ (∀ k, (h : k < bs.length) → tget 0 (memWrite addr bs d).cistern.mem (addr + k) = bs[k])
      ∧ (∀ a, a < addr ∨ addr + bs.length ≤ a → tget 0 (memWrite addr bs d).cistern.mem a = tget 0 d.cistern.mem a)
      ∧ (∀ w, addr ≤ 8 * w → 8 * w + 8 ≤ addr + bs.length → w ∉ (memWrite addr bs d).cistern.badWords)
      ∧ (∀ a, a < usableBytes → tget 0 d.cistern.flips (a / 8) = 0 → let p := dramAt a
          storageByte d.cistern p.channel (p.data + a % 32) = tget 0 d.cistern.mem a
          ∧ ∀ j, j < 2 → storageByte d.cistern p.channel (p.check + 2 * (a / 8 % 4) + j) = BitVec.ofNat 8 ((Config.checkWord (d.cistern.word (a / 8))).toNat / 256 ^ j))

/-- An invariant that every step keeps: the Cistern's bytes stay in their canonical form, which is the model's own (log 87), whatever the
command. -/
def Obligations.CisternStaysCanonical : Prop :=  ∀ s s' : State, Memory.wf s.dev.cistern.mem = true → step s = .next s' → Memory.wf s'.dev.cistern.mem = true

-- Rules stated whole ----------------------------------------------------------------------------------------------------------------------

/-- R421: event.configure takes the issuing function's ring, or 0xFFFF for none; a ring that is not a to-host ring of that function ends
ST_RANGE; and a record for a function without a ring is not queued but counted as discarded (event 0x80C). The ring must also be enabled and
free of another source, as R428 asks of every command that names a ring. -/
def Obligations.EventConfigureRule : Prop :=  (∀ (s : State) (c : Cmd), Takes s c 4 → u16 c.req 2 = 0 →
      nameable s.dev (boxFn s.dev c.box) (u16 c.req 0) (fnOf s.dev (boxFn s.dev c.box)).evRing = true →
      ∃ d, exec (.eventConfigure c) s = .next { s with dev := d } ∧ Answers d c stOk 4 []
        ∧ (fnOf d (boxFn s.dev c.box)).evRing = (if u16 c.req 0 = 0xFFFF then none else some (u16 c.req 0))
        ∧ (∀ f, f ≠ boxFn s.dev c.box → fnOf d f = fnOf s.dev f)
        ∧ ({ d with fns := [], boxes := [], out := [] } : Dev) = { now c.t s with fns := [], boxes := [], out := [] })
  ∧ (∀ (s : State) (c : Cmd), Takes s c 4 → u16 c.req 0 ≠ 0xFFFF →
      (1024 ≤ u16 c.req 0 ∨ (ringOf s.dev (u16 c.req 0)).kind ≠ 0 ∨ (ringOf s.dev (u16 c.req 0)).fn ≠ boxFn s.dev c.box) →
      ∃ d, exec (.eventConfigure c) s = .next { s with dev := d } ∧ Answers d c stRange 4 []
        ∧ ({ d with boxes := [], out := [] } : Dev) = { now c.t s with boxes := [], out := [] })
  ∧ (∀ (d : Dev) (f : Nat) (e : EvRec), (fnOf d f).evRing = none →
      (fnOf (raiseTo f e d) f).evq = (fnOf d f).evq ∧ (raiseTo f e d).counters = (count 0x80C 0 d).counters)

/-- R423: ticket.status answers ST_OK with STATE 1 and the 32 bytes of a completed ticket, ST_OK with STATE 0 for an open one, and ST_RANGE for
an unknown one; it changes nothing. -/
def Obligations.TicketStatusRule : Prop :=  ∀ (s : State) (c : Cmd), let n := u32 c.req 0
    Takes s c 4 →
    (∀ x : DoneTicket, (s.dev.helm.done.find? fun x => x.num == n) = some x →
      ∃ d, exec (.ticketStatus c) s = .next { s with dev := d } ∧ Answers d c stOk 36 ([1, 0] ++ x.bytes)
        ∧ ({ d with boxes := [], out := [] } : Dev) = { now c.t s with boxes := [], out := [] })
    ∧ ((∀ x ∈ s.dev.helm.done, x.num ≠ n) → (∃ x ∈ s.dev.helm.open_, x.num = n) →
      ∃ d, exec (.ticketStatus c) s = .next { s with dev := d } ∧ Answers d c stOk 36 [0, 0]
        ∧ ({ d with boxes := [], out := [] } : Dev) = { now c.t s with boxes := [], out := [] })
    ∧ ((∀ x ∈ s.dev.helm.done, x.num ≠ n) → (∀ x ∈ s.dev.helm.open_, x.num ≠ n) →
      ∃ d, exec (.ticketStatus c) s = .next { s with dev := d } ∧ Answers d c stRange 36 []
        ∧ ({ d with boxes := [], out := [] } : Dev) = { now c.t s with boxes := [], out := [] })

/-- R370: collector.threshold sets N and W of one class and restarts its window; an N of 0, or a W outside 1 to 10,000,000 µs, ends ST_RANGE and
changes nothing, as does a class past 15 or a reserved field that is not 0. -/
def Obligations.CollectorThresholdRule : Prop :=  ∀ (s : State) (c : Cmd), let k := u8 c.req 0; let n := u8 c.req 1; let w := u32 c.req 4
    Takes s c 8 →
    (k ≤ 15 → n ≠ 0 → u16 c.req 2 = 0 → 1 ≤ w → w ≤ 10000000 →
      ∃ d, exec (.collectorThreshold c) s = .next { s with dev := d } ∧ Answers d c stOk 4 []
        ∧ classOf d k = { classOf s.dev k with n := n, w := w, openAt := none, seen := 0 }
        ∧ (∀ j, j ≠ k → classOf d j = classOf s.dev j)
        ∧ ({ d with coll := { d.coll with classes := [] }, boxes := [], out := [] } : Dev)
          = { now c.t s with coll := { s.dev.coll with classes := [] }, boxes := [], out := [] })
    ∧ (15 < k ∨ n = 0 ∨ u16 c.req 2 ≠ 0 ∨ w = 0 ∨ 10000000 < w →
      ∃ d, exec (.collectorThreshold c) s = .next { s with dev := d } ∧ Answers d c stRange 4 []
        ∧ ({ d with boxes := [], out := [] } : Dev) = { now c.t s with boxes := [], out := [] })

/-- R250: policer.map loads the colour map, two bits a DSCP value, DSCP d in bits 2(d mod 4) and up of byte d / 4; a value 3 ends ST_RANGE; and
it is the map that colours a frame then: one with an IP header, under a colour-aware policer of source 1, takes its colour from the map at
its DSCP, of the IPv4 or the IPv6 header. -/
def Obligations.ColourMapRule : Prop :=  (∀ (s : State) (c : Cmd), Takes s c 16 → (∀ k < 64, bitsOf (byteAt c.req (k / 4)) (2 * (k % 4) + 1) (2 * (k % 4)) ≠ 3) →
      ∃ d, exec (.policerMap c) s = .next { s with dev := d } ∧ Answers d c stOk 4 [] ∧ d.tm.colourMap.length = 64
        ∧ (∀ k < 64, d.tm.colourMap.getD k 0 = bitsOf (byteAt c.req (k / 4)) (2 * (k % 4) + 1) (2 * (k % 4)))
        ∧ d.tm = { s.dev.tm with colourMap := d.tm.colourMap }
        ∧ ({ d with tm := {}, boxes := [], out := [] } : Dev) = { now c.t s with tm := {}, boxes := [], out := [] })
  ∧ (∀ (s : State) (c : Cmd), Takes s c 16 → (∃ k < 64, bitsOf (byteAt c.req (k / 4)) (2 * (k % 4) + 1) (2 * (k % 4)) = 3) →
      ∃ d, exec (.policerMap c) s = .next { s with dev := d } ∧ Answers d c stRange 4 []
        ∧ ({ d with boxes := [], out := [] } : Dev) = { now c.t s with boxes := [], out := [] })
  ∧ (∀ (d : Dev) (p : Policer) (fv b : List Byte) (o : Nat) (v4 : Bool), p.mode = 2 → p.src = 1 → ipHeader fv b = some (o, v4) →
      preColour d p fv b = d.tm.colourMap.getD (if v4 then bitsOf (byteAt b (o + 1)) 7 2 else bitsOf (beAt b o 2) 11 6) 0)

/-- R376: of the 32 match registers, the lowest valid one whose ROM_ADDR is the PC's ROM address redirects the fetch to 0x4000 plus its
PATCH_ADDR; without one, and from patch RAM, the fetch is where the PC says; and the word after a redirected one is fetched from patch RAM. -/
def Obligations.MatchRegistersRule : Prop :=  (∀ (d : Dev) (k : Nat), let reg := fun j => tget 0 d.steward.matches_ j
    let hit := fun j => bitOf (reg j) 23 = true ∧ bitsOf (reg j) 13 0 = d.steward.pc
    d.steward.pc < 0x4000 → k < 32 → hit k → (∀ j < k, ¬ hit j) → fetchAt d = 0x4000 + bitsOf (reg k) 22 14)
  ∧ (∀ d : Dev, d.steward.pc < 0x4000 →
      (∀ j < 32, ¬ (bitOf (tget 0 d.steward.matches_ j) 23 = true ∧ bitsOf (tget 0 d.steward.matches_ j) 13 0 = d.steward.pc)) →
      fetchAt d = d.steward.pc)
  ∧ (∀ d : Dev, 0x4000 ≤ d.steward.pc → fetchAt d = d.steward.pc)
  ∧ (∀ (s : State) (t : Nat), AtWord (now t s) .nop → ∃ d, exec (.nop t true) s = .next { s with dev := d } ∧ d.steward.pc = (fetchAt s.dev + 1) % 2 ^ 15)

/-- R63: where a Port of 1, 2, 4 or 8 lanes may start in its Nozzle, and one of 16 lanes as R20 says; and a port.configure with a mode whose
lanes the Port's first lane does not allow ends ST_RANGE. -/
def Obligations.FirstLaneRule : Prop :=  (∀ p : Nat, aligned p 1 = true ∧ (aligned p 2 = true ↔ p % 8 ∈ [0, 2, 4, 6]) ∧ (aligned p 4 = true ↔ p % 8 ∈ [0, 4])
    ∧ (aligned p 8 = true ↔ p % 8 = 0) ∧ (aligned p 16 = true ↔ p % 8 = 0 ∧ p / 8 % 2 = 0))
  ∧ (∀ (s : State) (c : Cmd) (speed lanes r : Nat) (fecs : List Nat), Takes s c 24 → s.dev.power.bringup = true →
      modeInfo (u8 c.req 2) = some (speed, lanes, r, fecs) → aligned (u16 c.req 0) lanes = false →
      ∃ d, exec (.portConfigure c) s = .next { s with dev := d } ∧ Answers d c stRange 4 []
        ∧ ({ d with boxes := [], out := [] } : Dev) = { now c.t s with boxes := [], out := [] })
end

