-- ==== Sys2Proof/Laws/Bytes.lean ====
section
/-!
SUPPORT. Byte strings: lengths of the fields written to bytes, and what a slice of a string put together from parts is.
-/

namespace Sys2Proof.Machine

@[simp] theorem le_length (n v : Nat) : (le n v).length = n := by
  induction n generalizing v with
  | zero => rfl
  | succ n ih => simp [le, ih]

@[simp] theorem be_length (n v : Nat) : (be n v).length = n := by simp [be]

@[simp] theorem slice_length (b : List Byte) (o n : Nat) : (slice b o n).length = n := by
  simp [slice] <;> omega

@[simp] theorem padTo_length (n : Nat) (b : List Byte) : (padTo n b).length = n := slice_length b 0 n

/-- A slice within the string is no padding. -/
theorem slice_within {b : List Byte} {o n : Nat} (h : o + n ≤ b.length) : slice b o n = (b.drop o).take n := by
  have : n - ((b.drop o).take n).length = 0 := by simp; omega
  simp only [slice, this, List.replicate_zero, List.append_nil]

/-- The slice that one part of a string fills is that part. -/
theorem slice_part (a m z : List Byte) : slice (a ++ m ++ z) a.length m.length = m := by
  rw [slice_within (by simp only [List.length_append]; omega)]; simp [List.append_assoc]

theorem padTo_self (b : List Byte) : padTo b.length b = b := by
  have h := slice_part [] b []
  simpa [padTo] using h

theorem shaRounds_length (ws ks : List Nat) (a b c d e f g h : Nat) : (shaRounds ws ks a b c d e f g h).length = 8 := by
  induction ws generalizing ks a b c d e f g h with
  | nil => simp [shaRounds]
  | cons w ws ih => cases ks with
    | nil => simp [shaRounds]
    | cons k ks => simp only [shaRounds]; exact ih ..

theorem shaCompress_length {h : List Nat} (hl : h.length = 8) (b : List Byte) : (shaCompress h b).length = 8 := by
  simp only [shaCompress, List.length_map, List.length_zip, shaRounds_length, hl, Nat.min_self]

theorem shaBlocks_length (n : Nat) {h : List Nat} (hl : h.length = 8) (b : List Byte) : (shaBlocks n h b).length = 8 := by
  induction n generalizing h b with
  | zero => exact hl
  | succ n ih => exact ih (shaCompress_length hl _) _

/-- A SHA-256 digest has 32 bytes. -/
@[simp] theorem sha256_length (m : List Byte) : (sha256 m).length = 32 := by
  have key : ∀ l : List Nat, (l.flatMap fun x => be 4 x).length = 4 * l.length := by
    intro l
    induction l with
    | nil => rfl
    | cons x l ih => simp only [List.flatMap_cons, List.length_append, be_length, ih, List.length_cons]; omega
  simp only [sha256]
  rw [key, shaBlocks_length _ rfl]

end Sys2Proof.Machine
end

