-- ==== Sys2Proof/Laws/Ops.lean ====
section
/-!
SUPPORT. The shared operations of Ops.lean: for each, one lemma that says which parts of the device it can change, and what every other
part reads as after it.
-/

namespace Sys2Proof.Machine

/-- What no step of a fold changes, the fold does not change. -/
theorem foldl_same {β γ : Type} (f : Dev → β → Dev) (π : Dev → γ) (h : ∀ d x, π (f d x) = π d) (l : List β) (d : Dev) :
    π (l.foldl f d) = π d := by
  induction l generalizing d with
  | nil => rfl
  | cons x t ih => rw [List.foldl_cons, ih, h]

/-- `emit` changes nothing but out. -/
theorem emit_only (e : Emission) (d : Dev) :
    { emit e d with out := [] } = ({ d with out := [] } : Dev) := rfl

@[simp] theorem emit_clock (e : Emission) (d : Dev) : (emit e d).clock = d.clock := by
  have h := emit_only e d; generalize emit e d = a at h ⊢; exact (congrArg Dev.clock h :)
@[simp] theorem emit_freeIdx (e : Emission) (d : Dev) : (emit e d).freeIdx = d.freeIdx := by
  have h := emit_only e d; generalize emit e d = a at h ⊢; exact (congrArg Dev.freeIdx h :)
@[simp] theorem emit_boxes (e : Emission) (d : Dev) : (emit e d).boxes = d.boxes := by
  have h := emit_only e d; generalize emit e d = a at h ⊢; exact (congrArg Dev.boxes h :)
@[simp] theorem emit_fns (e : Emission) (d : Dev) : (emit e d).fns = d.fns := by
  have h := emit_only e d; generalize emit e d = a at h ⊢; exact (congrArg Dev.fns h :)
@[simp] theorem emit_helm (e : Emission) (d : Dev) : (emit e d).helm = d.helm := by
  have h := emit_only e d; generalize emit e d = a at h ⊢; exact (congrArg Dev.helm h :)
@[simp] theorem emit_coll (e : Emission) (d : Dev) : (emit e d).coll = d.coll := by
  have h := emit_only e d; generalize emit e d = a at h ⊢; exact (congrArg Dev.coll h :)
@[simp] theorem emit_guard (e : Emission) (d : Dev) : (emit e d).guard = d.guard := by
  have h := emit_only e d; generalize emit e d = a at h ⊢; exact (congrArg Dev.guard h :)
@[simp] theorem emit_time (e : Emission) (d : Dev) : (emit e d).time = d.time := by
  have h := emit_only e d; generalize emit e d = a at h ⊢; exact (congrArg Dev.time h :)
@[simp] theorem emit_ptp (e : Emission) (d : Dev) : (emit e d).ptp = d.ptp := by
  have h := emit_only e d; generalize emit e d = a at h ⊢; exact (congrArg Dev.ptp h :)
@[simp] theorem emit_ledger (e : Emission) (d : Dev) : (emit e d).ledger = d.ledger := by
  have h := emit_only e d; generalize emit e d = a at h ⊢; exact (congrArg Dev.ledger h :)
@[simp] theorem emit_pair (e : Emission) (d : Dev) : (emit e d).pair = d.pair := by
  have h := emit_only e d; generalize emit e d = a at h ⊢; exact (congrArg Dev.pair h :)
@[simp] theorem emit_counters (e : Emission) (d : Dev) : (emit e d).counters = d.counters := by
  have h := emit_only e d; generalize emit e d = a at h ⊢; exact (congrArg Dev.counters h :)
@[simp] theorem emit_tm (e : Emission) (d : Dev) : (emit e d).tm = d.tm := by
  have h := emit_only e d; generalize emit e d = a at h ⊢; exact (congrArg Dev.tm h :)
@[simp] theorem emit_spec (e : Emission) (d : Dev) : (emit e d).spec = d.spec := by
  have h := emit_only e d; generalize emit e d = a at h ⊢; exact (congrArg Dev.spec h :)
@[simp] theorem emit_frames (e : Emission) (d : Dev) : (emit e d).frames = d.frames := by
  have h := emit_only e d; generalize emit e d = a at h ⊢; exact (congrArg Dev.frames h :)
@[simp] theorem emit_copies (e : Emission) (d : Dev) : (emit e d).copies = d.copies := by
  have h := emit_only e d; generalize emit e d = a at h ⊢; exact (congrArg Dev.copies h :)
@[simp] theorem emit_nextFrame (e : Emission) (d : Dev) : (emit e d).nextFrame = d.nextFrame := by
  have h := emit_only e d; generalize emit e d = a at h ⊢; exact (congrArg Dev.nextFrame h :)
@[simp] theorem emit_nextCopy (e : Emission) (d : Dev) : (emit e d).nextCopy = d.nextCopy := by
  have h := emit_only e d; generalize emit e d = a at h ⊢; exact (congrArg Dev.nextCopy h :)
@[simp] theorem emit_ports (e : Emission) (d : Dev) : (emit e d).ports = d.ports := by
  have h := emit_only e d; generalize emit e d = a at h ⊢; exact (congrArg Dev.ports h :)
@[simp] theorem emit_masters (e : Emission) (d : Dev) : (emit e d).masters = d.masters := by
  have h := emit_only e d; generalize emit e d = a at h ⊢; exact (congrArg Dev.masters h :)
@[simp] theorem emit_power (e : Emission) (d : Dev) : (emit e d).power = d.power := by
  have h := emit_only e d; generalize emit e d = a at h ⊢; exact (congrArg Dev.power h :)
@[simp] theorem emit_release (e : Emission) (d : Dev) : (emit e d).release = d.release := by
  have h := emit_only e d; generalize emit e d = a at h ⊢; exact (congrArg Dev.release h :)
@[simp] theorem emit_dma (e : Emission) (d : Dev) : (emit e d).dma = d.dma := by
  have h := emit_only e d; generalize emit e d = a at h ⊢; exact (congrArg Dev.dma h :)
@[simp] theorem emit_cistern (e : Emission) (d : Dev) : (emit e d).cistern = d.cistern := by
  have h := emit_only e d; generalize emit e d = a at h ⊢; exact (congrArg Dev.cistern h :)
@[simp] theorem emit_steward (e : Emission) (d : Dev) : (emit e d).steward = d.steward := by
  have h := emit_only e d; generalize emit e d = a at h ⊢; exact (congrArg Dev.steward h :)
@[simp] theorem emit_cascade (e : Emission) (d : Dev) : (emit e d).cascade = d.cascade := by
  have h := emit_only e d; generalize emit e d = a at h ⊢; exact (congrArg Dev.cascade h :)
@[simp] theorem emit_tables (e : Emission) (d : Dev) : (emit e d).tables = d.tables := by
  have h := emit_only e d; generalize emit e d = a at h ⊢; exact (congrArg Dev.tables h :)

/-- `advance` changes nothing but clock, time. -/
theorem advance_only (t : Nat) (d : Dev) :
    { advance t d with clock := 0, time := {} } = ({ d with clock := 0, time := {} } : Dev) := rfl

@[simp] theorem advance_freeIdx (t : Nat) (d : Dev) : (advance t d).freeIdx = d.freeIdx := by
  have h := advance_only t d; generalize advance t d = a at h ⊢; exact (congrArg Dev.freeIdx h :)
@[simp] theorem advance_boxes (t : Nat) (d : Dev) : (advance t d).boxes = d.boxes := by
  have h := advance_only t d; generalize advance t d = a at h ⊢; exact (congrArg Dev.boxes h :)
@[simp] theorem advance_fns (t : Nat) (d : Dev) : (advance t d).fns = d.fns := by
  have h := advance_only t d; generalize advance t d = a at h ⊢; exact (congrArg Dev.fns h :)
@[simp] theorem advance_helm (t : Nat) (d : Dev) : (advance t d).helm = d.helm := by
  have h := advance_only t d; generalize advance t d = a at h ⊢; exact (congrArg Dev.helm h :)
@[simp] theorem advance_coll (t : Nat) (d : Dev) : (advance t d).coll = d.coll := by
  have h := advance_only t d; generalize advance t d = a at h ⊢; exact (congrArg Dev.coll h :)
@[simp] theorem advance_guard (t : Nat) (d : Dev) : (advance t d).guard = d.guard := by
  have h := advance_only t d; generalize advance t d = a at h ⊢; exact (congrArg Dev.guard h :)
@[simp] theorem advance_ptp (t : Nat) (d : Dev) : (advance t d).ptp = d.ptp := by
  have h := advance_only t d; generalize advance t d = a at h ⊢; exact (congrArg Dev.ptp h :)
@[simp] theorem advance_ledger (t : Nat) (d : Dev) : (advance t d).ledger = d.ledger := by
  have h := advance_only t d; generalize advance t d = a at h ⊢; exact (congrArg Dev.ledger h :)
@[simp] theorem advance_pair (t : Nat) (d : Dev) : (advance t d).pair = d.pair := by
  have h := advance_only t d; generalize advance t d = a at h ⊢; exact (congrArg Dev.pair h :)
@[simp] theorem advance_counters (t : Nat) (d : Dev) : (advance t d).counters = d.counters := by
  have h := advance_only t d; generalize advance t d = a at h ⊢; exact (congrArg Dev.counters h :)
@[simp] theorem advance_tm (t : Nat) (d : Dev) : (advance t d).tm = d.tm := by
  have h := advance_only t d; generalize advance t d = a at h ⊢; exact (congrArg Dev.tm h :)
@[simp] theorem advance_spec (t : Nat) (d : Dev) : (advance t d).spec = d.spec := by
  have h := advance_only t d; generalize advance t d = a at h ⊢; exact (congrArg Dev.spec h :)
@[simp] theorem advance_frames (t : Nat) (d : Dev) : (advance t d).frames = d.frames := by
  have h := advance_only t d; generalize advance t d = a at h ⊢; exact (congrArg Dev.frames h :)
@[simp] theorem advance_copies (t : Nat) (d : Dev) : (advance t d).copies = d.copies := by
  have h := advance_only t d; generalize advance t d = a at h ⊢; exact (congrArg Dev.copies h :)
@[simp] theorem advance_nextFrame (t : Nat) (d : Dev) : (advance t d).nextFrame = d.nextFrame := by
  have h := advance_only t d; generalize advance t d = a at h ⊢; exact (congrArg Dev.nextFrame h :)
@[simp] theorem advance_nextCopy (t : Nat) (d : Dev) : (advance t d).nextCopy = d.nextCopy := by
  have h := advance_only t d; generalize advance t d = a at h ⊢; exact (congrArg Dev.nextCopy h :)
@[simp] theorem advance_ports (t : Nat) (d : Dev) : (advance t d).ports = d.ports := by
  have h := advance_only t d; generalize advance t d = a at h ⊢; exact (congrArg Dev.ports h :)
@[simp] theorem advance_masters (t : Nat) (d : Dev) : (advance t d).masters = d.masters := by
  have h := advance_only t d; generalize advance t d = a at h ⊢; exact (congrArg Dev.masters h :)
@[simp] theorem advance_power (t : Nat) (d : Dev) : (advance t d).power = d.power := by
  have h := advance_only t d; generalize advance t d = a at h ⊢; exact (congrArg Dev.power h :)
@[simp] theorem advance_release (t : Nat) (d : Dev) : (advance t d).release = d.release := by
  have h := advance_only t d; generalize advance t d = a at h ⊢; exact (congrArg Dev.release h :)
@[simp] theorem advance_dma (t : Nat) (d : Dev) : (advance t d).dma = d.dma := by
  have h := advance_only t d; generalize advance t d = a at h ⊢; exact (congrArg Dev.dma h :)
@[simp] theorem advance_cistern (t : Nat) (d : Dev) : (advance t d).cistern = d.cistern := by
  have h := advance_only t d; generalize advance t d = a at h ⊢; exact (congrArg Dev.cistern h :)
@[simp] theorem advance_steward (t : Nat) (d : Dev) : (advance t d).steward = d.steward := by
  have h := advance_only t d; generalize advance t d = a at h ⊢; exact (congrArg Dev.steward h :)
@[simp] theorem advance_cascade (t : Nat) (d : Dev) : (advance t d).cascade = d.cascade := by
  have h := advance_only t d; generalize advance t d = a at h ⊢; exact (congrArg Dev.cascade h :)
@[simp] theorem advance_tables (t : Nat) (d : Dev) : (advance t d).tables = d.tables := by
  have h := advance_only t d; generalize advance t d = a at h ⊢; exact (congrArg Dev.tables h :)
@[simp] theorem advance_out (t : Nat) (d : Dev) : (advance t d).out = d.out := by
  have h := advance_only t d; generalize advance t d = a at h ⊢; exact (congrArg Dev.out h :)

/-- `setCounter` changes nothing but counters. -/
theorem setCounter_only (c v : Nat) (d : Dev) :
    { setCounter c v d with counters := {} } = ({ d with counters := {} } : Dev) := rfl

/-- `addCounter` changes nothing but counters. -/
theorem addCounter_only (c n : Nat) (d : Dev) :
    { addCounter c n d with counters := {} } = ({ d with counters := {} } : Dev) := by unfold addCounter; dsimp only; split <;> rfl

/-- `countIn` changes nothing but counters. -/
theorem countIn_only (event inst bytes : Nat) (d : Dev) :
    { countIn event inst bytes d with counters := {} } = ({ d with counters := {} } : Dev) := by
  unfold countIn; dsimp only
  refine foldl_same _ (fun d => { d with counters := {} }) (fun d x => ?_) _ _
  split
  · rfl
  · exact addCounter_only _ _ _

@[simp] theorem countIn_clock (event inst bytes : Nat) (d : Dev) : (countIn event inst bytes d).clock = d.clock := by
  have h := countIn_only event inst bytes d; generalize countIn event inst bytes d = a at h ⊢; exact (congrArg Dev.clock h :)
@[simp] theorem countIn_freeIdx (event inst bytes : Nat) (d : Dev) : (countIn event inst bytes d).freeIdx = d.freeIdx := by
  have h := countIn_only event inst bytes d; generalize countIn event inst bytes d = a at h ⊢; exact (congrArg Dev.freeIdx h :)
@[simp] theorem countIn_boxes (event inst bytes : Nat) (d : Dev) : (countIn event inst bytes d).boxes = d.boxes := by
  have h := countIn_only event inst bytes d; generalize countIn event inst bytes d = a at h ⊢; exact (congrArg Dev.boxes h :)
@[simp] theorem countIn_fns (event inst bytes : Nat) (d : Dev) : (countIn event inst bytes d).fns = d.fns := by
  have h := countIn_only event inst bytes d; generalize countIn event inst bytes d = a at h ⊢; exact (congrArg Dev.fns h :)
@[simp] theorem countIn_helm (event inst bytes : Nat) (d : Dev) : (countIn event inst bytes d).helm = d.helm := by
  have h := countIn_only event inst bytes d; generalize countIn event inst bytes d = a at h ⊢; exact (congrArg Dev.helm h :)
@[simp] theorem countIn_coll (event inst bytes : Nat) (d : Dev) : (countIn event inst bytes d).coll = d.coll := by
  have h := countIn_only event inst bytes d; generalize countIn event inst bytes d = a at h ⊢; exact (congrArg Dev.coll h :)
@[simp] theorem countIn_guard (event inst bytes : Nat) (d : Dev) : (countIn event inst bytes d).guard = d.guard := by
  have h := countIn_only event inst bytes d; generalize countIn event inst bytes d = a at h ⊢; exact (congrArg Dev.guard h :)
@[simp] theorem countIn_time (event inst bytes : Nat) (d : Dev) : (countIn event inst bytes d).time = d.time := by
  have h := countIn_only event inst bytes d; generalize countIn event inst bytes d = a at h ⊢; exact (congrArg Dev.time h :)
@[simp] theorem countIn_ptp (event inst bytes : Nat) (d : Dev) : (countIn event inst bytes d).ptp = d.ptp := by
  have h := countIn_only event inst bytes d; generalize countIn event inst bytes d = a at h ⊢; exact (congrArg Dev.ptp h :)
@[simp] theorem countIn_ledger (event inst bytes : Nat) (d : Dev) : (countIn event inst bytes d).ledger = d.ledger := by
  have h := countIn_only event inst bytes d; generalize countIn event inst bytes d = a at h ⊢; exact (congrArg Dev.ledger h :)
@[simp] theorem countIn_pair (event inst bytes : Nat) (d : Dev) : (countIn event inst bytes d).pair = d.pair := by
  have h := countIn_only event inst bytes d; generalize countIn event inst bytes d = a at h ⊢; exact (congrArg Dev.pair h :)
@[simp] theorem countIn_tm (event inst bytes : Nat) (d : Dev) : (countIn event inst bytes d).tm = d.tm := by
  have h := countIn_only event inst bytes d; generalize countIn event inst bytes d = a at h ⊢; exact (congrArg Dev.tm h :)
@[simp] theorem countIn_spec (event inst bytes : Nat) (d : Dev) : (countIn event inst bytes d).spec = d.spec := by
  have h := countIn_only event inst bytes d; generalize countIn event inst bytes d = a at h ⊢; exact (congrArg Dev.spec h :)
@[simp] theorem countIn_frames (event inst bytes : Nat) (d : Dev) : (countIn event inst bytes d).frames = d.frames := by
  have h := countIn_only event inst bytes d; generalize countIn event inst bytes d = a at h ⊢; exact (congrArg Dev.frames h :)
@[simp] theorem countIn_copies (event inst bytes : Nat) (d : Dev) : (countIn event inst bytes d).copies = d.copies := by
  have h := countIn_only event inst bytes d; generalize countIn event inst bytes d = a at h ⊢; exact (congrArg Dev.copies h :)
@[simp] theorem countIn_nextFrame (event inst bytes : Nat) (d : Dev) : (countIn event inst bytes d).nextFrame = d.nextFrame := by
  have h := countIn_only event inst bytes d; generalize countIn event inst bytes d = a at h ⊢; exact (congrArg Dev.nextFrame h :)
@[simp] theorem countIn_nextCopy (event inst bytes : Nat) (d : Dev) : (countIn event inst bytes d).nextCopy = d.nextCopy := by
  have h := countIn_only event inst bytes d; generalize countIn event inst bytes d = a at h ⊢; exact (congrArg Dev.nextCopy h :)
@[simp] theorem countIn_ports (event inst bytes : Nat) (d : Dev) : (countIn event inst bytes d).ports = d.ports := by
  have h := countIn_only event inst bytes d; generalize countIn event inst bytes d = a at h ⊢; exact (congrArg Dev.ports h :)
@[simp] theorem countIn_masters (event inst bytes : Nat) (d : Dev) : (countIn event inst bytes d).masters = d.masters := by
  have h := countIn_only event inst bytes d; generalize countIn event inst bytes d = a at h ⊢; exact (congrArg Dev.masters h :)
@[simp] theorem countIn_power (event inst bytes : Nat) (d : Dev) : (countIn event inst bytes d).power = d.power := by
  have h := countIn_only event inst bytes d; generalize countIn event inst bytes d = a at h ⊢; exact (congrArg Dev.power h :)
@[simp] theorem countIn_release (event inst bytes : Nat) (d : Dev) : (countIn event inst bytes d).release = d.release := by
  have h := countIn_only event inst bytes d; generalize countIn event inst bytes d = a at h ⊢; exact (congrArg Dev.release h :)
@[simp] theorem countIn_dma (event inst bytes : Nat) (d : Dev) : (countIn event inst bytes d).dma = d.dma := by
  have h := countIn_only event inst bytes d; generalize countIn event inst bytes d = a at h ⊢; exact (congrArg Dev.dma h :)
@[simp] theorem countIn_cistern (event inst bytes : Nat) (d : Dev) : (countIn event inst bytes d).cistern = d.cistern := by
  have h := countIn_only event inst bytes d; generalize countIn event inst bytes d = a at h ⊢; exact (congrArg Dev.cistern h :)
@[simp] theorem countIn_steward (event inst bytes : Nat) (d : Dev) : (countIn event inst bytes d).steward = d.steward := by
  have h := countIn_only event inst bytes d; generalize countIn event inst bytes d = a at h ⊢; exact (congrArg Dev.steward h :)
@[simp] theorem countIn_cascade (event inst bytes : Nat) (d : Dev) : (countIn event inst bytes d).cascade = d.cascade := by
  have h := countIn_only event inst bytes d; generalize countIn event inst bytes d = a at h ⊢; exact (congrArg Dev.cascade h :)
@[simp] theorem countIn_tables (event inst bytes : Nat) (d : Dev) : (countIn event inst bytes d).tables = d.tables := by
  have h := countIn_only event inst bytes d; generalize countIn event inst bytes d = a at h ⊢; exact (congrArg Dev.tables h :)
@[simp] theorem countIn_out (event inst bytes : Nat) (d : Dev) : (countIn event inst bytes d).out = d.out := by
  have h := countIn_only event inst bytes d; generalize countIn event inst bytes d = a at h ⊢; exact (congrArg Dev.out h :)

/-- `count` changes nothing but counters. -/
theorem count_only (event inst : Nat) (d : Dev) :
    { count event inst d with counters := {} } = ({ d with counters := {} } : Dev) := countIn_only _ _ _ _

@[simp] theorem count_clock (event inst : Nat) (d : Dev) : (count event inst d).clock = d.clock := by
  have h := count_only event inst d; generalize count event inst d = a at h ⊢; exact (congrArg Dev.clock h :)
@[simp] theorem count_freeIdx (event inst : Nat) (d : Dev) : (count event inst d).freeIdx = d.freeIdx := by
  have h := count_only event inst d; generalize count event inst d = a at h ⊢; exact (congrArg Dev.freeIdx h :)
@[simp] theorem count_boxes (event inst : Nat) (d : Dev) : (count event inst d).boxes = d.boxes := by
  have h := count_only event inst d; generalize count event inst d = a at h ⊢; exact (congrArg Dev.boxes h :)
@[simp] theorem count_fns (event inst : Nat) (d : Dev) : (count event inst d).fns = d.fns := by
  have h := count_only event inst d; generalize count event inst d = a at h ⊢; exact (congrArg Dev.fns h :)
@[simp] theorem count_helm (event inst : Nat) (d : Dev) : (count event inst d).helm = d.helm := by
  have h := count_only event inst d; generalize count event inst d = a at h ⊢; exact (congrArg Dev.helm h :)
@[simp] theorem count_coll (event inst : Nat) (d : Dev) : (count event inst d).coll = d.coll := by
  have h := count_only event inst d; generalize count event inst d = a at h ⊢; exact (congrArg Dev.coll h :)
@[simp] theorem count_guard (event inst : Nat) (d : Dev) : (count event inst d).guard = d.guard := by
  have h := count_only event inst d; generalize count event inst d = a at h ⊢; exact (congrArg Dev.guard h :)
@[simp] theorem count_time (event inst : Nat) (d : Dev) : (count event inst d).time = d.time := by
  have h := count_only event inst d; generalize count event inst d = a at h ⊢; exact (congrArg Dev.time h :)
@[simp] theorem count_ptp (event inst : Nat) (d : Dev) : (count event inst d).ptp = d.ptp := by
  have h := count_only event inst d; generalize count event inst d = a at h ⊢; exact (congrArg Dev.ptp h :)
@[simp] theorem count_ledger (event inst : Nat) (d : Dev) : (count event inst d).ledger = d.ledger := by
  have h := count_only event inst d; generalize count event inst d = a at h ⊢; exact (congrArg Dev.ledger h :)
@[simp] theorem count_pair (event inst : Nat) (d : Dev) : (count event inst d).pair = d.pair := by
  have h := count_only event inst d; generalize count event inst d = a at h ⊢; exact (congrArg Dev.pair h :)
@[simp] theorem count_tm (event inst : Nat) (d : Dev) : (count event inst d).tm = d.tm := by
  have h := count_only event inst d; generalize count event inst d = a at h ⊢; exact (congrArg Dev.tm h :)
@[simp] theorem count_spec (event inst : Nat) (d : Dev) : (count event inst d).spec = d.spec := by
  have h := count_only event inst d; generalize count event inst d = a at h ⊢; exact (congrArg Dev.spec h :)
@[simp] theorem count_frames (event inst : Nat) (d : Dev) : (count event inst d).frames = d.frames := by
  have h := count_only event inst d; generalize count event inst d = a at h ⊢; exact (congrArg Dev.frames h :)
@[simp] theorem count_copies (event inst : Nat) (d : Dev) : (count event inst d).copies = d.copies := by
  have h := count_only event inst d; generalize count event inst d = a at h ⊢; exact (congrArg Dev.copies h :)
@[simp] theorem count_nextFrame (event inst : Nat) (d : Dev) : (count event inst d).nextFrame = d.nextFrame := by
  have h := count_only event inst d; generalize count event inst d = a at h ⊢; exact (congrArg Dev.nextFrame h :)
@[simp] theorem count_nextCopy (event inst : Nat) (d : Dev) : (count event inst d).nextCopy = d.nextCopy := by
  have h := count_only event inst d; generalize count event inst d = a at h ⊢; exact (congrArg Dev.nextCopy h :)
@[simp] theorem count_ports (event inst : Nat) (d : Dev) : (count event inst d).ports = d.ports := by
  have h := count_only event inst d; generalize count event inst d = a at h ⊢; exact (congrArg Dev.ports h :)
@[simp] theorem count_masters (event inst : Nat) (d : Dev) : (count event inst d).masters = d.masters := by
  have h := count_only event inst d; generalize count event inst d = a at h ⊢; exact (congrArg Dev.masters h :)
@[simp] theorem count_power (event inst : Nat) (d : Dev) : (count event inst d).power = d.power := by
  have h := count_only event inst d; generalize count event inst d = a at h ⊢; exact (congrArg Dev.power h :)
@[simp] theorem count_release (event inst : Nat) (d : Dev) : (count event inst d).release = d.release := by
  have h := count_only event inst d; generalize count event inst d = a at h ⊢; exact (congrArg Dev.release h :)
@[simp] theorem count_dma (event inst : Nat) (d : Dev) : (count event inst d).dma = d.dma := by
  have h := count_only event inst d; generalize count event inst d = a at h ⊢; exact (congrArg Dev.dma h :)
@[simp] theorem count_cistern (event inst : Nat) (d : Dev) : (count event inst d).cistern = d.cistern := by
  have h := count_only event inst d; generalize count event inst d = a at h ⊢; exact (congrArg Dev.cistern h :)
@[simp] theorem count_steward (event inst : Nat) (d : Dev) : (count event inst d).steward = d.steward := by
  have h := count_only event inst d; generalize count event inst d = a at h ⊢; exact (congrArg Dev.steward h :)
@[simp] theorem count_cascade (event inst : Nat) (d : Dev) : (count event inst d).cascade = d.cascade := by
  have h := count_only event inst d; generalize count event inst d = a at h ⊢; exact (congrArg Dev.cascade h :)
@[simp] theorem count_tables (event inst : Nat) (d : Dev) : (count event inst d).tables = d.tables := by
  have h := count_only event inst d; generalize count event inst d = a at h ⊢; exact (congrArg Dev.tables h :)
@[simp] theorem count_out (event inst : Nat) (d : Dev) : (count event inst d).out = d.out := by
  have h := count_only event inst d; generalize count event inst d = a at h ⊢; exact (congrArg Dev.out h :)

/-- `countRx` changes nothing but counters. -/
theorem countRx_only (event port bytes : Nat) (d : Dev) :
    { countRx event port bytes d with counters := {} } = ({ d with counters := {} } : Dev) := (countIn_only _ _ _ _).trans (countIn_only _ _ _ _)

@[simp] theorem countRx_clock (event port bytes : Nat) (d : Dev) : (countRx event port bytes d).clock = d.clock := by
  have h := countRx_only event port bytes d; generalize countRx event port bytes d = a at h ⊢; exact (congrArg Dev.clock h :)
@[simp] theorem countRx_freeIdx (event port bytes : Nat) (d : Dev) : (countRx event port bytes d).freeIdx = d.freeIdx := by
  have h := countRx_only event port bytes d; generalize countRx event port bytes d = a at h ⊢; exact (congrArg Dev.freeIdx h :)
@[simp] theorem countRx_boxes (event port bytes : Nat) (d : Dev) : (countRx event port bytes d).boxes = d.boxes := by
  have h := countRx_only event port bytes d; generalize countRx event port bytes d = a at h ⊢; exact (congrArg Dev.boxes h :)
@[simp] theorem countRx_fns (event port bytes : Nat) (d : Dev) : (countRx event port bytes d).fns = d.fns := by
  have h := countRx_only event port bytes d; generalize countRx event port bytes d = a at h ⊢; exact (congrArg Dev.fns h :)
@[simp] theorem countRx_helm (event port bytes : Nat) (d : Dev) : (countRx event port bytes d).helm = d.helm := by
  have h := countRx_only event port bytes d; generalize countRx event port bytes d = a at h ⊢; exact (congrArg Dev.helm h :)
@[simp] theorem countRx_coll (event port bytes : Nat) (d : Dev) : (countRx event port bytes d).coll = d.coll := by
  have h := countRx_only event port bytes d; generalize countRx event port bytes d = a at h ⊢; exact (congrArg Dev.coll h :)
@[simp] theorem countRx_guard (event port bytes : Nat) (d : Dev) : (countRx event port bytes d).guard = d.guard := by
  have h := countRx_only event port bytes d; generalize countRx event port bytes d = a at h ⊢; exact (congrArg Dev.guard h :)
@[simp] theorem countRx_time (event port bytes : Nat) (d : Dev) : (countRx event port bytes d).time = d.time := by
  have h := countRx_only event port bytes d; generalize countRx event port bytes d = a at h ⊢; exact (congrArg Dev.time h :)
@[simp] theorem countRx_ptp (event port bytes : Nat) (d : Dev) : (countRx event port bytes d).ptp = d.ptp := by
  have h := countRx_only event port bytes d; generalize countRx event port bytes d = a at h ⊢; exact (congrArg Dev.ptp h :)
@[simp] theorem countRx_ledger (event port bytes : Nat) (d : Dev) : (countRx event port bytes d).ledger = d.ledger := by
  have h := countRx_only event port bytes d; generalize countRx event port bytes d = a at h ⊢; exact (congrArg Dev.ledger h :)
@[simp] theorem countRx_pair (event port bytes : Nat) (d : Dev) : (countRx event port bytes d).pair = d.pair := by
  have h := countRx_only event port bytes d; generalize countRx event port bytes d = a at h ⊢; exact (congrArg Dev.pair h :)
@[simp] theorem countRx_tm (event port bytes : Nat) (d : Dev) : (countRx event port bytes d).tm = d.tm := by
  have h := countRx_only event port bytes d; generalize countRx event port bytes d = a at h ⊢; exact (congrArg Dev.tm h :)
@[simp] theorem countRx_spec (event port bytes : Nat) (d : Dev) : (countRx event port bytes d).spec = d.spec := by
  have h := countRx_only event port bytes d; generalize countRx event port bytes d = a at h ⊢; exact (congrArg Dev.spec h :)
@[simp] theorem countRx_frames (event port bytes : Nat) (d : Dev) : (countRx event port bytes d).frames = d.frames := by
  have h := countRx_only event port bytes d; generalize countRx event port bytes d = a at h ⊢; exact (congrArg Dev.frames h :)
@[simp] theorem countRx_copies (event port bytes : Nat) (d : Dev) : (countRx event port bytes d).copies = d.copies := by
  have h := countRx_only event port bytes d; generalize countRx event port bytes d = a at h ⊢; exact (congrArg Dev.copies h :)
@[simp] theorem countRx_nextFrame (event port bytes : Nat) (d : Dev) : (countRx event port bytes d).nextFrame = d.nextFrame := by
  have h := countRx_only event port bytes d; generalize countRx event port bytes d = a at h ⊢; exact (congrArg Dev.nextFrame h :)
@[simp] theorem countRx_nextCopy (event port bytes : Nat) (d : Dev) : (countRx event port bytes d).nextCopy = d.nextCopy := by
  have h := countRx_only event port bytes d; generalize countRx event port bytes d = a at h ⊢; exact (congrArg Dev.nextCopy h :)
@[simp] theorem countRx_ports (event port bytes : Nat) (d : Dev) : (countRx event port bytes d).ports = d.ports := by
  have h := countRx_only event port bytes d; generalize countRx event port bytes d = a at h ⊢; exact (congrArg Dev.ports h :)
@[simp] theorem countRx_masters (event port bytes : Nat) (d : Dev) : (countRx event port bytes d).masters = d.masters := by
  have h := countRx_only event port bytes d; generalize countRx event port bytes d = a at h ⊢; exact (congrArg Dev.masters h :)
@[simp] theorem countRx_power (event port bytes : Nat) (d : Dev) : (countRx event port bytes d).power = d.power := by
  have h := countRx_only event port bytes d; generalize countRx event port bytes d = a at h ⊢; exact (congrArg Dev.power h :)
@[simp] theorem countRx_release (event port bytes : Nat) (d : Dev) : (countRx event port bytes d).release = d.release := by
  have h := countRx_only event port bytes d; generalize countRx event port bytes d = a at h ⊢; exact (congrArg Dev.release h :)
@[simp] theorem countRx_dma (event port bytes : Nat) (d : Dev) : (countRx event port bytes d).dma = d.dma := by
  have h := countRx_only event port bytes d; generalize countRx event port bytes d = a at h ⊢; exact (congrArg Dev.dma h :)
@[simp] theorem countRx_cistern (event port bytes : Nat) (d : Dev) : (countRx event port bytes d).cistern = d.cistern := by
  have h := countRx_only event port bytes d; generalize countRx event port bytes d = a at h ⊢; exact (congrArg Dev.cistern h :)
@[simp] theorem countRx_steward (event port bytes : Nat) (d : Dev) : (countRx event port bytes d).steward = d.steward := by
  have h := countRx_only event port bytes d; generalize countRx event port bytes d = a at h ⊢; exact (congrArg Dev.steward h :)
@[simp] theorem countRx_cascade (event port bytes : Nat) (d : Dev) : (countRx event port bytes d).cascade = d.cascade := by
  have h := countRx_only event port bytes d; generalize countRx event port bytes d = a at h ⊢; exact (congrArg Dev.cascade h :)
@[simp] theorem countRx_tables (event port bytes : Nat) (d : Dev) : (countRx event port bytes d).tables = d.tables := by
  have h := countRx_only event port bytes d; generalize countRx event port bytes d = a at h ⊢; exact (congrArg Dev.tables h :)
@[simp] theorem countRx_out (event port bytes : Nat) (d : Dev) : (countRx event port bytes d).out = d.out := by
  have h := countRx_only event port bytes d; generalize countRx event port bytes d = a at h ⊢; exact (congrArg Dev.out h :)

/-- `countAction` changes nothing but counters. -/
theorem countAction_only (c bytes : Nat) (d : Dev) :
    { countAction c bytes d with counters := {} } = ({ d with counters := {} } : Dev) := by
  unfold countAction; split
  · exact addCounter_only _ _ _
  · rfl

/-- `repeatCount` changes nothing but counters. -/
theorem repeatCount_only (event inst n : Nat) (d : Dev) :
    { repeatCount event inst n d with counters := {} } = ({ d with counters := {} } : Dev) := by
  induction n generalizing d with
  | zero => rfl
  | succ n ih => exact (ih _).trans (count_only _ _ _)

/-- `setFn` changes nothing but fns. -/
theorem setFn_only (f : Nat) (x : Fn) (d : Dev) :
    { setFn f x d with fns := [] } = ({ d with fns := [] } : Dev) := rfl

/-- `raiseTo` changes nothing but fns, counters. -/
theorem raiseTo_only (f : Nat) (e : EvRec) (d : Dev) :
    { raiseTo f e d with fns := [], counters := {} } = ({ d with fns := [], counters := {} } : Dev) := by
  have h : ∀ (x : Fn) (d : Dev), { count 0x80C 0 (setFn f x d) with fns := [], counters := {} } = ({ d with fns := [], counters := {} } : Dev) :=
    fun x d => congrArg (fun (e : Dev) => { e with fns := [] }) (count_only 0x80C 0 (setFn f x d))
  unfold raiseTo; dsimp only
  repeat' split
  all_goals first | exact h _ _ | rfl

@[simp] theorem raiseTo_clock (f : Nat) (e : EvRec) (d : Dev) : (raiseTo f e d).clock = d.clock := by
  have h := raiseTo_only f e d; generalize raiseTo f e d = a at h ⊢; exact (congrArg Dev.clock h :)
@[simp] theorem raiseTo_freeIdx (f : Nat) (e : EvRec) (d : Dev) : (raiseTo f e d).freeIdx = d.freeIdx := by
  have h := raiseTo_only f e d; generalize raiseTo f e d = a at h ⊢; exact (congrArg Dev.freeIdx h :)
@[simp] theorem raiseTo_boxes (f : Nat) (e : EvRec) (d : Dev) : (raiseTo f e d).boxes = d.boxes := by
  have h := raiseTo_only f e d; generalize raiseTo f e d = a at h ⊢; exact (congrArg Dev.boxes h :)
@[simp] theorem raiseTo_helm (f : Nat) (e : EvRec) (d : Dev) : (raiseTo f e d).helm = d.helm := by
  have h := raiseTo_only f e d; generalize raiseTo f e d = a at h ⊢; exact (congrArg Dev.helm h :)
@[simp] theorem raiseTo_coll (f : Nat) (e : EvRec) (d : Dev) : (raiseTo f e d).coll = d.coll := by
  have h := raiseTo_only f e d; generalize raiseTo f e d = a at h ⊢; exact (congrArg Dev.coll h :)
@[simp] theorem raiseTo_guard (f : Nat) (e : EvRec) (d : Dev) : (raiseTo f e d).guard = d.guard := by
  have h := raiseTo_only f e d; generalize raiseTo f e d = a at h ⊢; exact (congrArg Dev.guard h :)
@[simp] theorem raiseTo_time (f : Nat) (e : EvRec) (d : Dev) : (raiseTo f e d).time = d.time := by
  have h := raiseTo_only f e d; generalize raiseTo f e d = a at h ⊢; exact (congrArg Dev.time h :)
@[simp] theorem raiseTo_ptp (f : Nat) (e : EvRec) (d : Dev) : (raiseTo f e d).ptp = d.ptp := by
  have h := raiseTo_only f e d; generalize raiseTo f e d = a at h ⊢; exact (congrArg Dev.ptp h :)
@[simp] theorem raiseTo_ledger (f : Nat) (e : EvRec) (d : Dev) : (raiseTo f e d).ledger = d.ledger := by
  have h := raiseTo_only f e d; generalize raiseTo f e d = a at h ⊢; exact (congrArg Dev.ledger h :)
@[simp] theorem raiseTo_pair (f : Nat) (e : EvRec) (d : Dev) : (raiseTo f e d).pair = d.pair := by
  have h := raiseTo_only f e d; generalize raiseTo f e d = a at h ⊢; exact (congrArg Dev.pair h :)
@[simp] theorem raiseTo_tm (f : Nat) (e : EvRec) (d : Dev) : (raiseTo f e d).tm = d.tm := by
  have h := raiseTo_only f e d; generalize raiseTo f e d = a at h ⊢; exact (congrArg Dev.tm h :)
@[simp] theorem raiseTo_spec (f : Nat) (e : EvRec) (d : Dev) : (raiseTo f e d).spec = d.spec := by
  have h := raiseTo_only f e d; generalize raiseTo f e d = a at h ⊢; exact (congrArg Dev.spec h :)
@[simp] theorem raiseTo_frames (f : Nat) (e : EvRec) (d : Dev) : (raiseTo f e d).frames = d.frames := by
  have h := raiseTo_only f e d; generalize raiseTo f e d = a at h ⊢; exact (congrArg Dev.frames h :)
@[simp] theorem raiseTo_copies (f : Nat) (e : EvRec) (d : Dev) : (raiseTo f e d).copies = d.copies := by
  have h := raiseTo_only f e d; generalize raiseTo f e d = a at h ⊢; exact (congrArg Dev.copies h :)
@[simp] theorem raiseTo_nextFrame (f : Nat) (e : EvRec) (d : Dev) : (raiseTo f e d).nextFrame = d.nextFrame := by
  have h := raiseTo_only f e d; generalize raiseTo f e d = a at h ⊢; exact (congrArg Dev.nextFrame h :)
@[simp] theorem raiseTo_nextCopy (f : Nat) (e : EvRec) (d : Dev) : (raiseTo f e d).nextCopy = d.nextCopy := by
  have h := raiseTo_only f e d; generalize raiseTo f e d = a at h ⊢; exact (congrArg Dev.nextCopy h :)
@[simp] theorem raiseTo_ports (f : Nat) (e : EvRec) (d : Dev) : (raiseTo f e d).ports = d.ports := by
  have h := raiseTo_only f e d; generalize raiseTo f e d = a at h ⊢; exact (congrArg Dev.ports h :)
@[simp] theorem raiseTo_masters (f : Nat) (e : EvRec) (d : Dev) : (raiseTo f e d).masters = d.masters := by
  have h := raiseTo_only f e d; generalize raiseTo f e d = a at h ⊢; exact (congrArg Dev.masters h :)
@[simp] theorem raiseTo_power (f : Nat) (e : EvRec) (d : Dev) : (raiseTo f e d).power = d.power := by
  have h := raiseTo_only f e d; generalize raiseTo f e d = a at h ⊢; exact (congrArg Dev.power h :)
@[simp] theorem raiseTo_release (f : Nat) (e : EvRec) (d : Dev) : (raiseTo f e d).release = d.release := by
  have h := raiseTo_only f e d; generalize raiseTo f e d = a at h ⊢; exact (congrArg Dev.release h :)
@[simp] theorem raiseTo_dma (f : Nat) (e : EvRec) (d : Dev) : (raiseTo f e d).dma = d.dma := by
  have h := raiseTo_only f e d; generalize raiseTo f e d = a at h ⊢; exact (congrArg Dev.dma h :)
@[simp] theorem raiseTo_cistern (f : Nat) (e : EvRec) (d : Dev) : (raiseTo f e d).cistern = d.cistern := by
  have h := raiseTo_only f e d; generalize raiseTo f e d = a at h ⊢; exact (congrArg Dev.cistern h :)
@[simp] theorem raiseTo_steward (f : Nat) (e : EvRec) (d : Dev) : (raiseTo f e d).steward = d.steward := by
  have h := raiseTo_only f e d; generalize raiseTo f e d = a at h ⊢; exact (congrArg Dev.steward h :)
@[simp] theorem raiseTo_cascade (f : Nat) (e : EvRec) (d : Dev) : (raiseTo f e d).cascade = d.cascade := by
  have h := raiseTo_only f e d; generalize raiseTo f e d = a at h ⊢; exact (congrArg Dev.cascade h :)
@[simp] theorem raiseTo_tables (f : Nat) (e : EvRec) (d : Dev) : (raiseTo f e d).tables = d.tables := by
  have h := raiseTo_only f e d; generalize raiseTo f e d = a at h ⊢; exact (congrArg Dev.tables h :)
@[simp] theorem raiseTo_out (f : Nat) (e : EvRec) (d : Dev) : (raiseTo f e d).out = d.out := by
  have h := raiseTo_only f e d; generalize raiseTo f e d = a at h ⊢; exact (congrArg Dev.out h :)

/-- `raise` changes nothing but fns, counters. -/
theorem raise_only (code subject detail : Nat) (ext : List Byte) (d : Dev) :
    { raise code subject detail ext d with fns := [], counters := {} } = ({ d with fns := [], counters := {} } : Dev) := foldl_same _ (fun (d : Dev) => { d with fns := [], counters := {} }) (fun d x => raiseTo_only x _ d) _ _

@[simp] theorem raise_clock (code subject detail : Nat) (ext : List Byte) (d : Dev) : (raise code subject detail ext d).clock = d.clock := by
  have h := raise_only code subject detail ext d; generalize raise code subject detail ext d = a at h ⊢; exact (congrArg Dev.clock h :)
@[simp] theorem raise_freeIdx (code subject detail : Nat) (ext : List Byte) (d : Dev) : (raise code subject detail ext d).freeIdx = d.freeIdx := by
  have h := raise_only code subject detail ext d; generalize raise code subject detail ext d = a at h ⊢; exact (congrArg Dev.freeIdx h :)
@[simp] theorem raise_boxes (code subject detail : Nat) (ext : List Byte) (d : Dev) : (raise code subject detail ext d).boxes = d.boxes := by
  have h := raise_only code subject detail ext d; generalize raise code subject detail ext d = a at h ⊢; exact (congrArg Dev.boxes h :)
@[simp] theorem raise_helm (code subject detail : Nat) (ext : List Byte) (d : Dev) : (raise code subject detail ext d).helm = d.helm := by
  have h := raise_only code subject detail ext d; generalize raise code subject detail ext d = a at h ⊢; exact (congrArg Dev.helm h :)
@[simp] theorem raise_coll (code subject detail : Nat) (ext : List Byte) (d : Dev) : (raise code subject detail ext d).coll = d.coll := by
  have h := raise_only code subject detail ext d; generalize raise code subject detail ext d = a at h ⊢; exact (congrArg Dev.coll h :)
@[simp] theorem raise_guard (code subject detail : Nat) (ext : List Byte) (d : Dev) : (raise code subject detail ext d).guard = d.guard := by
  have h := raise_only code subject detail ext d; generalize raise code subject detail ext d = a at h ⊢; exact (congrArg Dev.guard h :)
@[simp] theorem raise_time (code subject detail : Nat) (ext : List Byte) (d : Dev) : (raise code subject detail ext d).time = d.time := by
  have h := raise_only code subject detail ext d; generalize raise code subject detail ext d = a at h ⊢; exact (congrArg Dev.time h :)
@[simp] theorem raise_ptp (code subject detail : Nat) (ext : List Byte) (d : Dev) : (raise code subject detail ext d).ptp = d.ptp := by
  have h := raise_only code subject detail ext d; generalize raise code subject detail ext d = a at h ⊢; exact (congrArg Dev.ptp h :)
@[simp] theorem raise_ledger (code subject detail : Nat) (ext : List Byte) (d : Dev) : (raise code subject detail ext d).ledger = d.ledger := by
  have h := raise_only code subject detail ext d; generalize raise code subject detail ext d = a at h ⊢; exact (congrArg Dev.ledger h :)
@[simp] theorem raise_pair (code subject detail : Nat) (ext : List Byte) (d : Dev) : (raise code subject detail ext d).pair = d.pair := by
  have h := raise_only code subject detail ext d; generalize raise code subject detail ext d = a at h ⊢; exact (congrArg Dev.pair h :)
@[simp] theorem raise_tm (code subject detail : Nat) (ext : List Byte) (d : Dev) : (raise code subject detail ext d).tm = d.tm := by
  have h := raise_only code subject detail ext d; generalize raise code subject detail ext d = a at h ⊢; exact (congrArg Dev.tm h :)
@[simp] theorem raise_spec (code subject detail : Nat) (ext : List Byte) (d : Dev) : (raise code subject detail ext d).spec = d.spec := by
  have h := raise_only code subject detail ext d; generalize raise code subject detail ext d = a at h ⊢; exact (congrArg Dev.spec h :)
@[simp] theorem raise_frames (code subject detail : Nat) (ext : List Byte) (d : Dev) : (raise code subject detail ext d).frames = d.frames := by
  have h := raise_only code subject detail ext d; generalize raise code subject detail ext d = a at h ⊢; exact (congrArg Dev.frames h :)
@[simp] theorem raise_copies (code subject detail : Nat) (ext : List Byte) (d : Dev) : (raise code subject detail ext d).copies = d.copies := by
  have h := raise_only code subject detail ext d; generalize raise code subject detail ext d = a at h ⊢; exact (congrArg Dev.copies h :)
@[simp] theorem raise_nextFrame (code subject detail : Nat) (ext : List Byte) (d : Dev) : (raise code subject detail ext d).nextFrame = d.nextFrame := by
  have h := raise_only code subject detail ext d; generalize raise code subject detail ext d = a at h ⊢; exact (congrArg Dev.nextFrame h :)
@[simp] theorem raise_nextCopy (code subject detail : Nat) (ext : List Byte) (d : Dev) : (raise code subject detail ext d).nextCopy = d.nextCopy := by
  have h := raise_only code subject detail ext d; generalize raise code subject detail ext d = a at h ⊢; exact (congrArg Dev.nextCopy h :)
@[simp] theorem raise_ports (code subject detail : Nat) (ext : List Byte) (d : Dev) : (raise code subject detail ext d).ports = d.ports := by
  have h := raise_only code subject detail ext d; generalize raise code subject detail ext d = a at h ⊢; exact (congrArg Dev.ports h :)
@[simp] theorem raise_masters (code subject detail : Nat) (ext : List Byte) (d : Dev) : (raise code subject detail ext d).masters = d.masters := by
  have h := raise_only code subject detail ext d; generalize raise code subject detail ext d = a at h ⊢; exact (congrArg Dev.masters h :)
@[simp] theorem raise_power (code subject detail : Nat) (ext : List Byte) (d : Dev) : (raise code subject detail ext d).power = d.power := by
  have h := raise_only code subject detail ext d; generalize raise code subject detail ext d = a at h ⊢; exact (congrArg Dev.power h :)
@[simp] theorem raise_release (code subject detail : Nat) (ext : List Byte) (d : Dev) : (raise code subject detail ext d).release = d.release := by
  have h := raise_only code subject detail ext d; generalize raise code subject detail ext d = a at h ⊢; exact (congrArg Dev.release h :)
@[simp] theorem raise_dma (code subject detail : Nat) (ext : List Byte) (d : Dev) : (raise code subject detail ext d).dma = d.dma := by
  have h := raise_only code subject detail ext d; generalize raise code subject detail ext d = a at h ⊢; exact (congrArg Dev.dma h :)
@[simp] theorem raise_cistern (code subject detail : Nat) (ext : List Byte) (d : Dev) : (raise code subject detail ext d).cistern = d.cistern := by
  have h := raise_only code subject detail ext d; generalize raise code subject detail ext d = a at h ⊢; exact (congrArg Dev.cistern h :)
@[simp] theorem raise_steward (code subject detail : Nat) (ext : List Byte) (d : Dev) : (raise code subject detail ext d).steward = d.steward := by
  have h := raise_only code subject detail ext d; generalize raise code subject detail ext d = a at h ⊢; exact (congrArg Dev.steward h :)
@[simp] theorem raise_cascade (code subject detail : Nat) (ext : List Byte) (d : Dev) : (raise code subject detail ext d).cascade = d.cascade := by
  have h := raise_only code subject detail ext d; generalize raise code subject detail ext d = a at h ⊢; exact (congrArg Dev.cascade h :)
@[simp] theorem raise_tables (code subject detail : Nat) (ext : List Byte) (d : Dev) : (raise code subject detail ext d).tables = d.tables := by
  have h := raise_only code subject detail ext d; generalize raise code subject detail ext d = a at h ⊢; exact (congrArg Dev.tables h :)
@[simp] theorem raise_out (code subject detail : Nat) (ext : List Byte) (d : Dev) : (raise code subject detail ext d).out = d.out := by
  have h := raise_only code subject detail ext d; generalize raise code subject detail ext d = a at h ⊢; exact (congrArg Dev.out h :)

/-- `setPresent` changes nothing but coll. -/
theorem setPresent_only (source kind : Nat) (d : Dev) :
    { setPresent source kind d with coll := {} } = ({ d with coll := {} } : Dev) := by unfold setPresent; split <;> rfl

/-- `endCondition` changes nothing but coll. -/
theorem endCondition_only (source kind : Nat) (d : Dev) :
    { endCondition source kind d with coll := {} } = ({ d with coll := {} } : Dev) := rfl

@[simp] theorem endCondition_clock (source kind : Nat) (d : Dev) : (endCondition source kind d).clock = d.clock := by
  have h := endCondition_only source kind d; generalize endCondition source kind d = a at h ⊢; exact (congrArg Dev.clock h :)
@[simp] theorem endCondition_freeIdx (source kind : Nat) (d : Dev) : (endCondition source kind d).freeIdx = d.freeIdx := by
  have h := endCondition_only source kind d; generalize endCondition source kind d = a at h ⊢; exact (congrArg Dev.freeIdx h :)
@[simp] theorem endCondition_boxes (source kind : Nat) (d : Dev) : (endCondition source kind d).boxes = d.boxes := by
  have h := endCondition_only source kind d; generalize endCondition source kind d = a at h ⊢; exact (congrArg Dev.boxes h :)
@[simp] theorem endCondition_fns (source kind : Nat) (d : Dev) : (endCondition source kind d).fns = d.fns := by
  have h := endCondition_only source kind d; generalize endCondition source kind d = a at h ⊢; exact (congrArg Dev.fns h :)
@[simp] theorem endCondition_helm (source kind : Nat) (d : Dev) : (endCondition source kind d).helm = d.helm := by
  have h := endCondition_only source kind d; generalize endCondition source kind d = a at h ⊢; exact (congrArg Dev.helm h :)
@[simp] theorem endCondition_guard (source kind : Nat) (d : Dev) : (endCondition source kind d).guard = d.guard := by
  have h := endCondition_only source kind d; generalize endCondition source kind d = a at h ⊢; exact (congrArg Dev.guard h :)
@[simp] theorem endCondition_time (source kind : Nat) (d : Dev) : (endCondition source kind d).time = d.time := by
  have h := endCondition_only source kind d; generalize endCondition source kind d = a at h ⊢; exact (congrArg Dev.time h :)
@[simp] theorem endCondition_ptp (source kind : Nat) (d : Dev) : (endCondition source kind d).ptp = d.ptp := by
  have h := endCondition_only source kind d; generalize endCondition source kind d = a at h ⊢; exact (congrArg Dev.ptp h :)
@[simp] theorem endCondition_ledger (source kind : Nat) (d : Dev) : (endCondition source kind d).ledger = d.ledger := by
  have h := endCondition_only source kind d; generalize endCondition source kind d = a at h ⊢; exact (congrArg Dev.ledger h :)
@[simp] theorem endCondition_pair (source kind : Nat) (d : Dev) : (endCondition source kind d).pair = d.pair := by
  have h := endCondition_only source kind d; generalize endCondition source kind d = a at h ⊢; exact (congrArg Dev.pair h :)
@[simp] theorem endCondition_counters (source kind : Nat) (d : Dev) : (endCondition source kind d).counters = d.counters := by
  have h := endCondition_only source kind d; generalize endCondition source kind d = a at h ⊢; exact (congrArg Dev.counters h :)
@[simp] theorem endCondition_tm (source kind : Nat) (d : Dev) : (endCondition source kind d).tm = d.tm := by
  have h := endCondition_only source kind d; generalize endCondition source kind d = a at h ⊢; exact (congrArg Dev.tm h :)
@[simp] theorem endCondition_spec (source kind : Nat) (d : Dev) : (endCondition source kind d).spec = d.spec := by
  have h := endCondition_only source kind d; generalize endCondition source kind d = a at h ⊢; exact (congrArg Dev.spec h :)
@[simp] theorem endCondition_frames (source kind : Nat) (d : Dev) : (endCondition source kind d).frames = d.frames := by
  have h := endCondition_only source kind d; generalize endCondition source kind d = a at h ⊢; exact (congrArg Dev.frames h :)
@[simp] theorem endCondition_copies (source kind : Nat) (d : Dev) : (endCondition source kind d).copies = d.copies := by
  have h := endCondition_only source kind d; generalize endCondition source kind d = a at h ⊢; exact (congrArg Dev.copies h :)
@[simp] theorem endCondition_nextFrame (source kind : Nat) (d : Dev) : (endCondition source kind d).nextFrame = d.nextFrame := by
  have h := endCondition_only source kind d; generalize endCondition source kind d = a at h ⊢; exact (congrArg Dev.nextFrame h :)
@[simp] theorem endCondition_nextCopy (source kind : Nat) (d : Dev) : (endCondition source kind d).nextCopy = d.nextCopy := by
  have h := endCondition_only source kind d; generalize endCondition source kind d = a at h ⊢; exact (congrArg Dev.nextCopy h :)
@[simp] theorem endCondition_ports (source kind : Nat) (d : Dev) : (endCondition source kind d).ports = d.ports := by
  have h := endCondition_only source kind d; generalize endCondition source kind d = a at h ⊢; exact (congrArg Dev.ports h :)
@[simp] theorem endCondition_masters (source kind : Nat) (d : Dev) : (endCondition source kind d).masters = d.masters := by
  have h := endCondition_only source kind d; generalize endCondition source kind d = a at h ⊢; exact (congrArg Dev.masters h :)
@[simp] theorem endCondition_power (source kind : Nat) (d : Dev) : (endCondition source kind d).power = d.power := by
  have h := endCondition_only source kind d; generalize endCondition source kind d = a at h ⊢; exact (congrArg Dev.power h :)
@[simp] theorem endCondition_release (source kind : Nat) (d : Dev) : (endCondition source kind d).release = d.release := by
  have h := endCondition_only source kind d; generalize endCondition source kind d = a at h ⊢; exact (congrArg Dev.release h :)
@[simp] theorem endCondition_dma (source kind : Nat) (d : Dev) : (endCondition source kind d).dma = d.dma := by
  have h := endCondition_only source kind d; generalize endCondition source kind d = a at h ⊢; exact (congrArg Dev.dma h :)
@[simp] theorem endCondition_cistern (source kind : Nat) (d : Dev) : (endCondition source kind d).cistern = d.cistern := by
  have h := endCondition_only source kind d; generalize endCondition source kind d = a at h ⊢; exact (congrArg Dev.cistern h :)
@[simp] theorem endCondition_steward (source kind : Nat) (d : Dev) : (endCondition source kind d).steward = d.steward := by
  have h := endCondition_only source kind d; generalize endCondition source kind d = a at h ⊢; exact (congrArg Dev.steward h :)
@[simp] theorem endCondition_cascade (source kind : Nat) (d : Dev) : (endCondition source kind d).cascade = d.cascade := by
  have h := endCondition_only source kind d; generalize endCondition source kind d = a at h ⊢; exact (congrArg Dev.cascade h :)
@[simp] theorem endCondition_tables (source kind : Nat) (d : Dev) : (endCondition source kind d).tables = d.tables := by
  have h := endCondition_only source kind d; generalize endCondition source kind d = a at h ⊢; exact (congrArg Dev.tables h :)
@[simp] theorem endCondition_out (source kind : Nat) (d : Dev) : (endCondition source kind d).out = d.out := by
  have h := endCondition_only source kind d; generalize endCondition source kind d = a at h ⊢; exact (congrArg Dev.out h :)

/-- `report` changes nothing but coll. -/
theorem report_only (source kind addr : Nat) (d : Dev) :
    { report source kind addr d with coll := {} } = ({ d with coll := {} } : Dev) := by unfold report setPresent; dsimp only; split <;> rfl

@[simp] theorem report_clock (source kind addr : Nat) (d : Dev) : (report source kind addr d).clock = d.clock := by
  have h := report_only source kind addr d; generalize report source kind addr d = a at h ⊢; exact (congrArg Dev.clock h :)
@[simp] theorem report_freeIdx (source kind addr : Nat) (d : Dev) : (report source kind addr d).freeIdx = d.freeIdx := by
  have h := report_only source kind addr d; generalize report source kind addr d = a at h ⊢; exact (congrArg Dev.freeIdx h :)
@[simp] theorem report_boxes (source kind addr : Nat) (d : Dev) : (report source kind addr d).boxes = d.boxes := by
  have h := report_only source kind addr d; generalize report source kind addr d = a at h ⊢; exact (congrArg Dev.boxes h :)
@[simp] theorem report_fns (source kind addr : Nat) (d : Dev) : (report source kind addr d).fns = d.fns := by
  have h := report_only source kind addr d; generalize report source kind addr d = a at h ⊢; exact (congrArg Dev.fns h :)
@[simp] theorem report_helm (source kind addr : Nat) (d : Dev) : (report source kind addr d).helm = d.helm := by
  have h := report_only source kind addr d; generalize report source kind addr d = a at h ⊢; exact (congrArg Dev.helm h :)
@[simp] theorem report_guard (source kind addr : Nat) (d : Dev) : (report source kind addr d).guard = d.guard := by
  have h := report_only source kind addr d; generalize report source kind addr d = a at h ⊢; exact (congrArg Dev.guard h :)
@[simp] theorem report_time (source kind addr : Nat) (d : Dev) : (report source kind addr d).time = d.time := by
  have h := report_only source kind addr d; generalize report source kind addr d = a at h ⊢; exact (congrArg Dev.time h :)
@[simp] theorem report_ptp (source kind addr : Nat) (d : Dev) : (report source kind addr d).ptp = d.ptp := by
  have h := report_only source kind addr d; generalize report source kind addr d = a at h ⊢; exact (congrArg Dev.ptp h :)
@[simp] theorem report_ledger (source kind addr : Nat) (d : Dev) : (report source kind addr d).ledger = d.ledger := by
  have h := report_only source kind addr d; generalize report source kind addr d = a at h ⊢; exact (congrArg Dev.ledger h :)
@[simp] theorem report_pair (source kind addr : Nat) (d : Dev) : (report source kind addr d).pair = d.pair := by
  have h := report_only source kind addr d; generalize report source kind addr d = a at h ⊢; exact (congrArg Dev.pair h :)
@[simp] theorem report_counters (source kind addr : Nat) (d : Dev) : (report source kind addr d).counters = d.counters := by
  have h := report_only source kind addr d; generalize report source kind addr d = a at h ⊢; exact (congrArg Dev.counters h :)
@[simp] theorem report_tm (source kind addr : Nat) (d : Dev) : (report source kind addr d).tm = d.tm := by
  have h := report_only source kind addr d; generalize report source kind addr d = a at h ⊢; exact (congrArg Dev.tm h :)
@[simp] theorem report_spec (source kind addr : Nat) (d : Dev) : (report source kind addr d).spec = d.spec := by
  have h := report_only source kind addr d; generalize report source kind addr d = a at h ⊢; exact (congrArg Dev.spec h :)
@[simp] theorem report_frames (source kind addr : Nat) (d : Dev) : (report source kind addr d).frames = d.frames := by
  have h := report_only source kind addr d; generalize report source kind addr d = a at h ⊢; exact (congrArg Dev.frames h :)
@[simp] theorem report_copies (source kind addr : Nat) (d : Dev) : (report source kind addr d).copies = d.copies := by
  have h := report_only source kind addr d; generalize report source kind addr d = a at h ⊢; exact (congrArg Dev.copies h :)
@[simp] theorem report_nextFrame (source kind addr : Nat) (d : Dev) : (report source kind addr d).nextFrame = d.nextFrame := by
  have h := report_only source kind addr d; generalize report source kind addr d = a at h ⊢; exact (congrArg Dev.nextFrame h :)
@[simp] theorem report_nextCopy (source kind addr : Nat) (d : Dev) : (report source kind addr d).nextCopy = d.nextCopy := by
  have h := report_only source kind addr d; generalize report source kind addr d = a at h ⊢; exact (congrArg Dev.nextCopy h :)
@[simp] theorem report_ports (source kind addr : Nat) (d : Dev) : (report source kind addr d).ports = d.ports := by
  have h := report_only source kind addr d; generalize report source kind addr d = a at h ⊢; exact (congrArg Dev.ports h :)
@[simp] theorem report_masters (source kind addr : Nat) (d : Dev) : (report source kind addr d).masters = d.masters := by
  have h := report_only source kind addr d; generalize report source kind addr d = a at h ⊢; exact (congrArg Dev.masters h :)
@[simp] theorem report_power (source kind addr : Nat) (d : Dev) : (report source kind addr d).power = d.power := by
  have h := report_only source kind addr d; generalize report source kind addr d = a at h ⊢; exact (congrArg Dev.power h :)
@[simp] theorem report_release (source kind addr : Nat) (d : Dev) : (report source kind addr d).release = d.release := by
  have h := report_only source kind addr d; generalize report source kind addr d = a at h ⊢; exact (congrArg Dev.release h :)
@[simp] theorem report_dma (source kind addr : Nat) (d : Dev) : (report source kind addr d).dma = d.dma := by
  have h := report_only source kind addr d; generalize report source kind addr d = a at h ⊢; exact (congrArg Dev.dma h :)
@[simp] theorem report_cistern (source kind addr : Nat) (d : Dev) : (report source kind addr d).cistern = d.cistern := by
  have h := report_only source kind addr d; generalize report source kind addr d = a at h ⊢; exact (congrArg Dev.cistern h :)
@[simp] theorem report_steward (source kind addr : Nat) (d : Dev) : (report source kind addr d).steward = d.steward := by
  have h := report_only source kind addr d; generalize report source kind addr d = a at h ⊢; exact (congrArg Dev.steward h :)
@[simp] theorem report_cascade (source kind addr : Nat) (d : Dev) : (report source kind addr d).cascade = d.cascade := by
  have h := report_only source kind addr d; generalize report source kind addr d = a at h ⊢; exact (congrArg Dev.cascade h :)
@[simp] theorem report_tables (source kind addr : Nat) (d : Dev) : (report source kind addr d).tables = d.tables := by
  have h := report_only source kind addr d; generalize report source kind addr d = a at h ⊢; exact (congrArg Dev.tables h :)
@[simp] theorem report_out (source kind addr : Nat) (d : Dev) : (report source kind addr d).out = d.out := by
  have h := report_only source kind addr d; generalize report source kind addr d = a at h ⊢; exact (congrArg Dev.out h :)

/-- `finishTicket` changes nothing but helm, fns, counters. -/
theorem finishTicket_only (n : Nat) (bytes : List Byte) (d : Dev) :
    { finishTicket n bytes d with helm := {}, fns := [], counters := {} } = ({ d with helm := {}, fns := [], counters := {} } : Dev) := by
  unfold finishTicket; split
  · rfl
  · exact congrArg (fun (e : Dev) => { e with helm := {} }) (raiseTo_only _ _ _)

/-- `completeTicket` changes nothing but helm, fns, counters. -/
theorem completeTicket_only (n status : Nat) (extra : List Byte) (d : Dev) :
    { completeTicket n status extra d with helm := {}, fns := [], counters := {} } = ({ d with helm := {}, fns := [], counters := {} } : Dev) := finishTicket_only _ _ _

@[simp] theorem completeTicket_clock (n status : Nat) (extra : List Byte) (d : Dev) : (completeTicket n status extra d).clock = d.clock := by
  have h := completeTicket_only n status extra d; generalize completeTicket n status extra d = a at h ⊢; exact (congrArg Dev.clock h :)
@[simp] theorem completeTicket_freeIdx (n status : Nat) (extra : List Byte) (d : Dev) : (completeTicket n status extra d).freeIdx = d.freeIdx := by
  have h := completeTicket_only n status extra d; generalize completeTicket n status extra d = a at h ⊢; exact (congrArg Dev.freeIdx h :)
@[simp] theorem completeTicket_boxes (n status : Nat) (extra : List Byte) (d : Dev) : (completeTicket n status extra d).boxes = d.boxes := by
  have h := completeTicket_only n status extra d; generalize completeTicket n status extra d = a at h ⊢; exact (congrArg Dev.boxes h :)
@[simp] theorem completeTicket_coll (n status : Nat) (extra : List Byte) (d : Dev) : (completeTicket n status extra d).coll = d.coll := by
  have h := completeTicket_only n status extra d; generalize completeTicket n status extra d = a at h ⊢; exact (congrArg Dev.coll h :)
@[simp] theorem completeTicket_guard (n status : Nat) (extra : List Byte) (d : Dev) : (completeTicket n status extra d).guard = d.guard := by
  have h := completeTicket_only n status extra d; generalize completeTicket n status extra d = a at h ⊢; exact (congrArg Dev.guard h :)
@[simp] theorem completeTicket_time (n status : Nat) (extra : List Byte) (d : Dev) : (completeTicket n status extra d).time = d.time := by
  have h := completeTicket_only n status extra d; generalize completeTicket n status extra d = a at h ⊢; exact (congrArg Dev.time h :)
@[simp] theorem completeTicket_ptp (n status : Nat) (extra : List Byte) (d : Dev) : (completeTicket n status extra d).ptp = d.ptp := by
  have h := completeTicket_only n status extra d; generalize completeTicket n status extra d = a at h ⊢; exact (congrArg Dev.ptp h :)
@[simp] theorem completeTicket_ledger (n status : Nat) (extra : List Byte) (d : Dev) : (completeTicket n status extra d).ledger = d.ledger := by
  have h := completeTicket_only n status extra d; generalize completeTicket n status extra d = a at h ⊢; exact (congrArg Dev.ledger h :)
@[simp] theorem completeTicket_pair (n status : Nat) (extra : List Byte) (d : Dev) : (completeTicket n status extra d).pair = d.pair := by
  have h := completeTicket_only n status extra d; generalize completeTicket n status extra d = a at h ⊢; exact (congrArg Dev.pair h :)
@[simp] theorem completeTicket_tm (n status : Nat) (extra : List Byte) (d : Dev) : (completeTicket n status extra d).tm = d.tm := by
  have h := completeTicket_only n status extra d; generalize completeTicket n status extra d = a at h ⊢; exact (congrArg Dev.tm h :)
@[simp] theorem completeTicket_spec (n status : Nat) (extra : List Byte) (d : Dev) : (completeTicket n status extra d).spec = d.spec := by
  have h := completeTicket_only n status extra d; generalize completeTicket n status extra d = a at h ⊢; exact (congrArg Dev.spec h :)
@[simp] theorem completeTicket_frames (n status : Nat) (extra : List Byte) (d : Dev) : (completeTicket n status extra d).frames = d.frames := by
  have h := completeTicket_only n status extra d; generalize completeTicket n status extra d = a at h ⊢; exact (congrArg Dev.frames h :)
@[simp] theorem completeTicket_copies (n status : Nat) (extra : List Byte) (d : Dev) : (completeTicket n status extra d).copies = d.copies := by
  have h := completeTicket_only n status extra d; generalize completeTicket n status extra d = a at h ⊢; exact (congrArg Dev.copies h :)
@[simp] theorem completeTicket_nextFrame (n status : Nat) (extra : List Byte) (d : Dev) : (completeTicket n status extra d).nextFrame = d.nextFrame := by
  have h := completeTicket_only n status extra d; generalize completeTicket n status extra d = a at h ⊢; exact (congrArg Dev.nextFrame h :)
@[simp] theorem completeTicket_nextCopy (n status : Nat) (extra : List Byte) (d : Dev) : (completeTicket n status extra d).nextCopy = d.nextCopy := by
  have h := completeTicket_only n status extra d; generalize completeTicket n status extra d = a at h ⊢; exact (congrArg Dev.nextCopy h :)
@[simp] theorem completeTicket_ports (n status : Nat) (extra : List Byte) (d : Dev) : (completeTicket n status extra d).ports = d.ports := by
  have h := completeTicket_only n status extra d; generalize completeTicket n status extra d = a at h ⊢; exact (congrArg Dev.ports h :)
@[simp] theorem completeTicket_masters (n status : Nat) (extra : List Byte) (d : Dev) : (completeTicket n status extra d).masters = d.masters := by
  have h := completeTicket_only n status extra d; generalize completeTicket n status extra d = a at h ⊢; exact (congrArg Dev.masters h :)
@[simp] theorem completeTicket_power (n status : Nat) (extra : List Byte) (d : Dev) : (completeTicket n status extra d).power = d.power := by
  have h := completeTicket_only n status extra d; generalize completeTicket n status extra d = a at h ⊢; exact (congrArg Dev.power h :)
@[simp] theorem completeTicket_release (n status : Nat) (extra : List Byte) (d : Dev) : (completeTicket n status extra d).release = d.release := by
  have h := completeTicket_only n status extra d; generalize completeTicket n status extra d = a at h ⊢; exact (congrArg Dev.release h :)
@[simp] theorem completeTicket_dma (n status : Nat) (extra : List Byte) (d : Dev) : (completeTicket n status extra d).dma = d.dma := by
  have h := completeTicket_only n status extra d; generalize completeTicket n status extra d = a at h ⊢; exact (congrArg Dev.dma h :)
@[simp] theorem completeTicket_cistern (n status : Nat) (extra : List Byte) (d : Dev) : (completeTicket n status extra d).cistern = d.cistern := by
  have h := completeTicket_only n status extra d; generalize completeTicket n status extra d = a at h ⊢; exact (congrArg Dev.cistern h :)
@[simp] theorem completeTicket_steward (n status : Nat) (extra : List Byte) (d : Dev) : (completeTicket n status extra d).steward = d.steward := by
  have h := completeTicket_only n status extra d; generalize completeTicket n status extra d = a at h ⊢; exact (congrArg Dev.steward h :)
@[simp] theorem completeTicket_cascade (n status : Nat) (extra : List Byte) (d : Dev) : (completeTicket n status extra d).cascade = d.cascade := by
  have h := completeTicket_only n status extra d; generalize completeTicket n status extra d = a at h ⊢; exact (congrArg Dev.cascade h :)
@[simp] theorem completeTicket_tables (n status : Nat) (extra : List Byte) (d : Dev) : (completeTicket n status extra d).tables = d.tables := by
  have h := completeTicket_only n status extra d; generalize completeTicket n status extra d = a at h ⊢; exact (congrArg Dev.tables h :)
@[simp] theorem completeTicket_out (n status : Nat) (extra : List Byte) (d : Dev) : (completeTicket n status extra d).out = d.out := by
  have h := completeTicket_only n status extra d; generalize completeTicket n status extra d = a at h ⊢; exact (congrArg Dev.out h :)

/-- `completeOpt` changes nothing but helm, fns, counters. -/
theorem completeOpt_only (t : Option Nat) (status : Nat) (extra : List Byte) (d : Dev) :
    { completeOpt t status extra d with helm := {}, fns := [], counters := {} } = ({ d with helm := {}, fns := [], counters := {} } : Dev) := by
  unfold completeOpt; split
  · exact completeTicket_only _ _ _ _
  · rfl

@[simp] theorem completeOpt_clock (t : Option Nat) (status : Nat) (extra : List Byte) (d : Dev) : (completeOpt t status extra d).clock = d.clock := by
  have h := completeOpt_only t status extra d; generalize completeOpt t status extra d = a at h ⊢; exact (congrArg Dev.clock h :)
@[simp] theorem completeOpt_freeIdx (t : Option Nat) (status : Nat) (extra : List Byte) (d : Dev) : (completeOpt t status extra d).freeIdx = d.freeIdx := by
  have h := completeOpt_only t status extra d; generalize completeOpt t status extra d = a at h ⊢; exact (congrArg Dev.freeIdx h :)
@[simp] theorem completeOpt_boxes (t : Option Nat) (status : Nat) (extra : List Byte) (d : Dev) : (completeOpt t status extra d).boxes = d.boxes := by
  have h := completeOpt_only t status extra d; generalize completeOpt t status extra d = a at h ⊢; exact (congrArg Dev.boxes h :)
@[simp] theorem completeOpt_coll (t : Option Nat) (status : Nat) (extra : List Byte) (d : Dev) : (completeOpt t status extra d).coll = d.coll := by
  have h := completeOpt_only t status extra d; generalize completeOpt t status extra d = a at h ⊢; exact (congrArg Dev.coll h :)
@[simp] theorem completeOpt_guard (t : Option Nat) (status : Nat) (extra : List Byte) (d : Dev) : (completeOpt t status extra d).guard = d.guard := by
  have h := completeOpt_only t status extra d; generalize completeOpt t status extra d = a at h ⊢; exact (congrArg Dev.guard h :)
@[simp] theorem completeOpt_time (t : Option Nat) (status : Nat) (extra : List Byte) (d : Dev) : (completeOpt t status extra d).time = d.time := by
  have h := completeOpt_only t status extra d; generalize completeOpt t status extra d = a at h ⊢; exact (congrArg Dev.time h :)
@[simp] theorem completeOpt_ptp (t : Option Nat) (status : Nat) (extra : List Byte) (d : Dev) : (completeOpt t status extra d).ptp = d.ptp := by
  have h := completeOpt_only t status extra d; generalize completeOpt t status extra d = a at h ⊢; exact (congrArg Dev.ptp h :)
@[simp] theorem completeOpt_ledger (t : Option Nat) (status : Nat) (extra : List Byte) (d : Dev) : (completeOpt t status extra d).ledger = d.ledger := by
  have h := completeOpt_only t status extra d; generalize completeOpt t status extra d = a at h ⊢; exact (congrArg Dev.ledger h :)
@[simp] theorem completeOpt_pair (t : Option Nat) (status : Nat) (extra : List Byte) (d : Dev) : (completeOpt t status extra d).pair = d.pair := by
  have h := completeOpt_only t status extra d; generalize completeOpt t status extra d = a at h ⊢; exact (congrArg Dev.pair h :)
@[simp] theorem completeOpt_tm (t : Option Nat) (status : Nat) (extra : List Byte) (d : Dev) : (completeOpt t status extra d).tm = d.tm := by
  have h := completeOpt_only t status extra d; generalize completeOpt t status extra d = a at h ⊢; exact (congrArg Dev.tm h :)
@[simp] theorem completeOpt_spec (t : Option Nat) (status : Nat) (extra : List Byte) (d : Dev) : (completeOpt t status extra d).spec = d.spec := by
  have h := completeOpt_only t status extra d; generalize completeOpt t status extra d = a at h ⊢; exact (congrArg Dev.spec h :)
@[simp] theorem completeOpt_frames (t : Option Nat) (status : Nat) (extra : List Byte) (d : Dev) : (completeOpt t status extra d).frames = d.frames := by
  have h := completeOpt_only t status extra d; generalize completeOpt t status extra d = a at h ⊢; exact (congrArg Dev.frames h :)
@[simp] theorem completeOpt_copies (t : Option Nat) (status : Nat) (extra : List Byte) (d : Dev) : (completeOpt t status extra d).copies = d.copies := by
  have h := completeOpt_only t status extra d; generalize completeOpt t status extra d = a at h ⊢; exact (congrArg Dev.copies h :)
@[simp] theorem completeOpt_nextFrame (t : Option Nat) (status : Nat) (extra : List Byte) (d : Dev) : (completeOpt t status extra d).nextFrame = d.nextFrame := by
  have h := completeOpt_only t status extra d; generalize completeOpt t status extra d = a at h ⊢; exact (congrArg Dev.nextFrame h :)
@[simp] theorem completeOpt_nextCopy (t : Option Nat) (status : Nat) (extra : List Byte) (d : Dev) : (completeOpt t status extra d).nextCopy = d.nextCopy := by
  have h := completeOpt_only t status extra d; generalize completeOpt t status extra d = a at h ⊢; exact (congrArg Dev.nextCopy h :)
@[simp] theorem completeOpt_ports (t : Option Nat) (status : Nat) (extra : List Byte) (d : Dev) : (completeOpt t status extra d).ports = d.ports := by
  have h := completeOpt_only t status extra d; generalize completeOpt t status extra d = a at h ⊢; exact (congrArg Dev.ports h :)
@[simp] theorem completeOpt_masters (t : Option Nat) (status : Nat) (extra : List Byte) (d : Dev) : (completeOpt t status extra d).masters = d.masters := by
  have h := completeOpt_only t status extra d; generalize completeOpt t status extra d = a at h ⊢; exact (congrArg Dev.masters h :)
@[simp] theorem completeOpt_power (t : Option Nat) (status : Nat) (extra : List Byte) (d : Dev) : (completeOpt t status extra d).power = d.power := by
  have h := completeOpt_only t status extra d; generalize completeOpt t status extra d = a at h ⊢; exact (congrArg Dev.power h :)
@[simp] theorem completeOpt_release (t : Option Nat) (status : Nat) (extra : List Byte) (d : Dev) : (completeOpt t status extra d).release = d.release := by
  have h := completeOpt_only t status extra d; generalize completeOpt t status extra d = a at h ⊢; exact (congrArg Dev.release h :)
@[simp] theorem completeOpt_dma (t : Option Nat) (status : Nat) (extra : List Byte) (d : Dev) : (completeOpt t status extra d).dma = d.dma := by
  have h := completeOpt_only t status extra d; generalize completeOpt t status extra d = a at h ⊢; exact (congrArg Dev.dma h :)
@[simp] theorem completeOpt_cistern (t : Option Nat) (status : Nat) (extra : List Byte) (d : Dev) : (completeOpt t status extra d).cistern = d.cistern := by
  have h := completeOpt_only t status extra d; generalize completeOpt t status extra d = a at h ⊢; exact (congrArg Dev.cistern h :)
@[simp] theorem completeOpt_steward (t : Option Nat) (status : Nat) (extra : List Byte) (d : Dev) : (completeOpt t status extra d).steward = d.steward := by
  have h := completeOpt_only t status extra d; generalize completeOpt t status extra d = a at h ⊢; exact (congrArg Dev.steward h :)
@[simp] theorem completeOpt_cascade (t : Option Nat) (status : Nat) (extra : List Byte) (d : Dev) : (completeOpt t status extra d).cascade = d.cascade := by
  have h := completeOpt_only t status extra d; generalize completeOpt t status extra d = a at h ⊢; exact (congrArg Dev.cascade h :)
@[simp] theorem completeOpt_tables (t : Option Nat) (status : Nat) (extra : List Byte) (d : Dev) : (completeOpt t status extra d).tables = d.tables := by
  have h := completeOpt_only t status extra d; generalize completeOpt t status extra d = a at h ⊢; exact (congrArg Dev.tables h :)
@[simp] theorem completeOpt_out (t : Option Nat) (status : Nat) (extra : List Byte) (d : Dev) : (completeOpt t status extra d).out = d.out := by
  have h := completeOpt_only t status extra d; generalize completeOpt t status extra d = a at h ⊢; exact (congrArg Dev.out h :)

/-- `noteBad` changes nothing but pair. -/
theorem noteBad_only (d : Dev) :
    { noteBad d with pair := {} } = ({ d with pair := {} } : Dev) := rfl

/-- `noteServo` changes nothing but pair, ledger. -/
theorem noteServo_only (d : Dev) :
    { noteServo d with pair := {}, ledger := {} } = ({ d with pair := {}, ledger := {} } : Dev) := by unfold noteServo; dsimp only; split <;> rfl

/-- `offerRecord` changes nothing but ledger, counters. -/
theorem offerRecord_only (source : Nat) (bytes : List Byte) (guarded : Bool) (input : Option (List Byte)) (d : Dev) :
    { offerRecord source bytes guarded input d with ledger := {}, counters := {} } = ({ d with ledger := {}, counters := {} } : Dev) := by
  unfold offerRecord; dsimp only; split
  · rfl
  · exact congrArg (fun (e : Dev) => { e with ledger := {} }) (count_only _ _ _)

@[simp] theorem offerRecord_clock (source : Nat) (bytes : List Byte) (guarded : Bool) (input : Option (List Byte)) (d : Dev) : (offerRecord source bytes guarded input d).clock = d.clock := by
  have h := offerRecord_only source bytes guarded input d; generalize offerRecord source bytes guarded input d = a at h ⊢; exact (congrArg Dev.clock h :)
@[simp] theorem offerRecord_freeIdx (source : Nat) (bytes : List Byte) (guarded : Bool) (input : Option (List Byte)) (d : Dev) : (offerRecord source bytes guarded input d).freeIdx = d.freeIdx := by
  have h := offerRecord_only source bytes guarded input d; generalize offerRecord source bytes guarded input d = a at h ⊢; exact (congrArg Dev.freeIdx h :)
@[simp] theorem offerRecord_boxes (source : Nat) (bytes : List Byte) (guarded : Bool) (input : Option (List Byte)) (d : Dev) : (offerRecord source bytes guarded input d).boxes = d.boxes := by
  have h := offerRecord_only source bytes guarded input d; generalize offerRecord source bytes guarded input d = a at h ⊢; exact (congrArg Dev.boxes h :)
@[simp] theorem offerRecord_fns (source : Nat) (bytes : List Byte) (guarded : Bool) (input : Option (List Byte)) (d : Dev) : (offerRecord source bytes guarded input d).fns = d.fns := by
  have h := offerRecord_only source bytes guarded input d; generalize offerRecord source bytes guarded input d = a at h ⊢; exact (congrArg Dev.fns h :)
@[simp] theorem offerRecord_helm (source : Nat) (bytes : List Byte) (guarded : Bool) (input : Option (List Byte)) (d : Dev) : (offerRecord source bytes guarded input d).helm = d.helm := by
  have h := offerRecord_only source bytes guarded input d; generalize offerRecord source bytes guarded input d = a at h ⊢; exact (congrArg Dev.helm h :)
@[simp] theorem offerRecord_coll (source : Nat) (bytes : List Byte) (guarded : Bool) (input : Option (List Byte)) (d : Dev) : (offerRecord source bytes guarded input d).coll = d.coll := by
  have h := offerRecord_only source bytes guarded input d; generalize offerRecord source bytes guarded input d = a at h ⊢; exact (congrArg Dev.coll h :)
@[simp] theorem offerRecord_guard (source : Nat) (bytes : List Byte) (guarded : Bool) (input : Option (List Byte)) (d : Dev) : (offerRecord source bytes guarded input d).guard = d.guard := by
  have h := offerRecord_only source bytes guarded input d; generalize offerRecord source bytes guarded input d = a at h ⊢; exact (congrArg Dev.guard h :)
@[simp] theorem offerRecord_time (source : Nat) (bytes : List Byte) (guarded : Bool) (input : Option (List Byte)) (d : Dev) : (offerRecord source bytes guarded input d).time = d.time := by
  have h := offerRecord_only source bytes guarded input d; generalize offerRecord source bytes guarded input d = a at h ⊢; exact (congrArg Dev.time h :)
@[simp] theorem offerRecord_ptp (source : Nat) (bytes : List Byte) (guarded : Bool) (input : Option (List Byte)) (d : Dev) : (offerRecord source bytes guarded input d).ptp = d.ptp := by
  have h := offerRecord_only source bytes guarded input d; generalize offerRecord source bytes guarded input d = a at h ⊢; exact (congrArg Dev.ptp h :)
@[simp] theorem offerRecord_pair (source : Nat) (bytes : List Byte) (guarded : Bool) (input : Option (List Byte)) (d : Dev) : (offerRecord source bytes guarded input d).pair = d.pair := by
  have h := offerRecord_only source bytes guarded input d; generalize offerRecord source bytes guarded input d = a at h ⊢; exact (congrArg Dev.pair h :)
@[simp] theorem offerRecord_tm (source : Nat) (bytes : List Byte) (guarded : Bool) (input : Option (List Byte)) (d : Dev) : (offerRecord source bytes guarded input d).tm = d.tm := by
  have h := offerRecord_only source bytes guarded input d; generalize offerRecord source bytes guarded input d = a at h ⊢; exact (congrArg Dev.tm h :)
@[simp] theorem offerRecord_spec (source : Nat) (bytes : List Byte) (guarded : Bool) (input : Option (List Byte)) (d : Dev) : (offerRecord source bytes guarded input d).spec = d.spec := by
  have h := offerRecord_only source bytes guarded input d; generalize offerRecord source bytes guarded input d = a at h ⊢; exact (congrArg Dev.spec h :)
@[simp] theorem offerRecord_frames (source : Nat) (bytes : List Byte) (guarded : Bool) (input : Option (List Byte)) (d : Dev) : (offerRecord source bytes guarded input d).frames = d.frames := by
  have h := offerRecord_only source bytes guarded input d; generalize offerRecord source bytes guarded input d = a at h ⊢; exact (congrArg Dev.frames h :)
@[simp] theorem offerRecord_copies (source : Nat) (bytes : List Byte) (guarded : Bool) (input : Option (List Byte)) (d : Dev) : (offerRecord source bytes guarded input d).copies = d.copies := by
  have h := offerRecord_only source bytes guarded input d; generalize offerRecord source bytes guarded input d = a at h ⊢; exact (congrArg Dev.copies h :)
@[simp] theorem offerRecord_nextFrame (source : Nat) (bytes : List Byte) (guarded : Bool) (input : Option (List Byte)) (d : Dev) : (offerRecord source bytes guarded input d).nextFrame = d.nextFrame := by
  have h := offerRecord_only source bytes guarded input d; generalize offerRecord source bytes guarded input d = a at h ⊢; exact (congrArg Dev.nextFrame h :)
@[simp] theorem offerRecord_nextCopy (source : Nat) (bytes : List Byte) (guarded : Bool) (input : Option (List Byte)) (d : Dev) : (offerRecord source bytes guarded input d).nextCopy = d.nextCopy := by
  have h := offerRecord_only source bytes guarded input d; generalize offerRecord source bytes guarded input d = a at h ⊢; exact (congrArg Dev.nextCopy h :)
@[simp] theorem offerRecord_ports (source : Nat) (bytes : List Byte) (guarded : Bool) (input : Option (List Byte)) (d : Dev) : (offerRecord source bytes guarded input d).ports = d.ports := by
  have h := offerRecord_only source bytes guarded input d; generalize offerRecord source bytes guarded input d = a at h ⊢; exact (congrArg Dev.ports h :)
@[simp] theorem offerRecord_masters (source : Nat) (bytes : List Byte) (guarded : Bool) (input : Option (List Byte)) (d : Dev) : (offerRecord source bytes guarded input d).masters = d.masters := by
  have h := offerRecord_only source bytes guarded input d; generalize offerRecord source bytes guarded input d = a at h ⊢; exact (congrArg Dev.masters h :)
@[simp] theorem offerRecord_power (source : Nat) (bytes : List Byte) (guarded : Bool) (input : Option (List Byte)) (d : Dev) : (offerRecord source bytes guarded input d).power = d.power := by
  have h := offerRecord_only source bytes guarded input d; generalize offerRecord source bytes guarded input d = a at h ⊢; exact (congrArg Dev.power h :)
@[simp] theorem offerRecord_release (source : Nat) (bytes : List Byte) (guarded : Bool) (input : Option (List Byte)) (d : Dev) : (offerRecord source bytes guarded input d).release = d.release := by
  have h := offerRecord_only source bytes guarded input d; generalize offerRecord source bytes guarded input d = a at h ⊢; exact (congrArg Dev.release h :)
@[simp] theorem offerRecord_dma (source : Nat) (bytes : List Byte) (guarded : Bool) (input : Option (List Byte)) (d : Dev) : (offerRecord source bytes guarded input d).dma = d.dma := by
  have h := offerRecord_only source bytes guarded input d; generalize offerRecord source bytes guarded input d = a at h ⊢; exact (congrArg Dev.dma h :)
@[simp] theorem offerRecord_cistern (source : Nat) (bytes : List Byte) (guarded : Bool) (input : Option (List Byte)) (d : Dev) : (offerRecord source bytes guarded input d).cistern = d.cistern := by
  have h := offerRecord_only source bytes guarded input d; generalize offerRecord source bytes guarded input d = a at h ⊢; exact (congrArg Dev.cistern h :)
@[simp] theorem offerRecord_steward (source : Nat) (bytes : List Byte) (guarded : Bool) (input : Option (List Byte)) (d : Dev) : (offerRecord source bytes guarded input d).steward = d.steward := by
  have h := offerRecord_only source bytes guarded input d; generalize offerRecord source bytes guarded input d = a at h ⊢; exact (congrArg Dev.steward h :)
@[simp] theorem offerRecord_cascade (source : Nat) (bytes : List Byte) (guarded : Bool) (input : Option (List Byte)) (d : Dev) : (offerRecord source bytes guarded input d).cascade = d.cascade := by
  have h := offerRecord_only source bytes guarded input d; generalize offerRecord source bytes guarded input d = a at h ⊢; exact (congrArg Dev.cascade h :)
@[simp] theorem offerRecord_tables (source : Nat) (bytes : List Byte) (guarded : Bool) (input : Option (List Byte)) (d : Dev) : (offerRecord source bytes guarded input d).tables = d.tables := by
  have h := offerRecord_only source bytes guarded input d; generalize offerRecord source bytes guarded input d = a at h ⊢; exact (congrArg Dev.tables h :)
@[simp] theorem offerRecord_out (source : Nat) (bytes : List Byte) (guarded : Bool) (input : Option (List Byte)) (d : Dev) : (offerRecord source bytes guarded input d).out = d.out := by
  have h := offerRecord_only source bytes guarded input d; generalize offerRecord source bytes guarded input d = a at h ⊢; exact (congrArg Dev.out h :)

/-- `clockRecord` changes nothing but ledger, counters. -/
theorem clockRecord_only (east : Bool) (event detail : Nat) (ext : Int) (d : Dev) :
    { clockRecord east event detail ext d with ledger := {}, counters := {} } = ({ d with ledger := {}, counters := {} } : Dev) := offerRecord_only _ _ _ _ _

/-- `raiseClock` changes nothing but fns, ledger, counters. -/
theorem raiseClock_only (event detail : Nat) (ext : Int) (evExt : List Byte) (d : Dev) :
    { raiseClock event detail ext evExt d with fns := [], ledger := {}, counters := {} } = ({ d with fns := [], ledger := {}, counters := {} } : Dev) := (congrArg (fun (e : Dev) => { e with fns := [] }) (clockRecord_only _ _ _ _ _)).trans (congrArg (fun (e : Dev) => { e with ledger := {} }) (raise_only _ _ _ _ _))

@[simp] theorem raiseClock_clock (event detail : Nat) (ext : Int) (evExt : List Byte) (d : Dev) : (raiseClock event detail ext evExt d).clock = d.clock := by
  have h := raiseClock_only event detail ext evExt d; generalize raiseClock event detail ext evExt d = a at h ⊢; exact (congrArg Dev.clock h :)
@[simp] theorem raiseClock_freeIdx (event detail : Nat) (ext : Int) (evExt : List Byte) (d : Dev) : (raiseClock event detail ext evExt d).freeIdx = d.freeIdx := by
  have h := raiseClock_only event detail ext evExt d; generalize raiseClock event detail ext evExt d = a at h ⊢; exact (congrArg Dev.freeIdx h :)
@[simp] theorem raiseClock_boxes (event detail : Nat) (ext : Int) (evExt : List Byte) (d : Dev) : (raiseClock event detail ext evExt d).boxes = d.boxes := by
  have h := raiseClock_only event detail ext evExt d; generalize raiseClock event detail ext evExt d = a at h ⊢; exact (congrArg Dev.boxes h :)
@[simp] theorem raiseClock_helm (event detail : Nat) (ext : Int) (evExt : List Byte) (d : Dev) : (raiseClock event detail ext evExt d).helm = d.helm := by
  have h := raiseClock_only event detail ext evExt d; generalize raiseClock event detail ext evExt d = a at h ⊢; exact (congrArg Dev.helm h :)
@[simp] theorem raiseClock_coll (event detail : Nat) (ext : Int) (evExt : List Byte) (d : Dev) : (raiseClock event detail ext evExt d).coll = d.coll := by
  have h := raiseClock_only event detail ext evExt d; generalize raiseClock event detail ext evExt d = a at h ⊢; exact (congrArg Dev.coll h :)
@[simp] theorem raiseClock_guard (event detail : Nat) (ext : Int) (evExt : List Byte) (d : Dev) : (raiseClock event detail ext evExt d).guard = d.guard := by
  have h := raiseClock_only event detail ext evExt d; generalize raiseClock event detail ext evExt d = a at h ⊢; exact (congrArg Dev.guard h :)
@[simp] theorem raiseClock_time (event detail : Nat) (ext : Int) (evExt : List Byte) (d : Dev) : (raiseClock event detail ext evExt d).time = d.time := by
  have h := raiseClock_only event detail ext evExt d; generalize raiseClock event detail ext evExt d = a at h ⊢; exact (congrArg Dev.time h :)
@[simp] theorem raiseClock_ptp (event detail : Nat) (ext : Int) (evExt : List Byte) (d : Dev) : (raiseClock event detail ext evExt d).ptp = d.ptp := by
  have h := raiseClock_only event detail ext evExt d; generalize raiseClock event detail ext evExt d = a at h ⊢; exact (congrArg Dev.ptp h :)
@[simp] theorem raiseClock_pair (event detail : Nat) (ext : Int) (evExt : List Byte) (d : Dev) : (raiseClock event detail ext evExt d).pair = d.pair := by
  have h := raiseClock_only event detail ext evExt d; generalize raiseClock event detail ext evExt d = a at h ⊢; exact (congrArg Dev.pair h :)
@[simp] theorem raiseClock_tm (event detail : Nat) (ext : Int) (evExt : List Byte) (d : Dev) : (raiseClock event detail ext evExt d).tm = d.tm := by
  have h := raiseClock_only event detail ext evExt d; generalize raiseClock event detail ext evExt d = a at h ⊢; exact (congrArg Dev.tm h :)
@[simp] theorem raiseClock_spec (event detail : Nat) (ext : Int) (evExt : List Byte) (d : Dev) : (raiseClock event detail ext evExt d).spec = d.spec := by
  have h := raiseClock_only event detail ext evExt d; generalize raiseClock event detail ext evExt d = a at h ⊢; exact (congrArg Dev.spec h :)
@[simp] theorem raiseClock_frames (event detail : Nat) (ext : Int) (evExt : List Byte) (d : Dev) : (raiseClock event detail ext evExt d).frames = d.frames := by
  have h := raiseClock_only event detail ext evExt d; generalize raiseClock event detail ext evExt d = a at h ⊢; exact (congrArg Dev.frames h :)
@[simp] theorem raiseClock_copies (event detail : Nat) (ext : Int) (evExt : List Byte) (d : Dev) : (raiseClock event detail ext evExt d).copies = d.copies := by
  have h := raiseClock_only event detail ext evExt d; generalize raiseClock event detail ext evExt d = a at h ⊢; exact (congrArg Dev.copies h :)
@[simp] theorem raiseClock_nextFrame (event detail : Nat) (ext : Int) (evExt : List Byte) (d : Dev) : (raiseClock event detail ext evExt d).nextFrame = d.nextFrame := by
  have h := raiseClock_only event detail ext evExt d; generalize raiseClock event detail ext evExt d = a at h ⊢; exact (congrArg Dev.nextFrame h :)
@[simp] theorem raiseClock_nextCopy (event detail : Nat) (ext : Int) (evExt : List Byte) (d : Dev) : (raiseClock event detail ext evExt d).nextCopy = d.nextCopy := by
  have h := raiseClock_only event detail ext evExt d; generalize raiseClock event detail ext evExt d = a at h ⊢; exact (congrArg Dev.nextCopy h :)
@[simp] theorem raiseClock_ports (event detail : Nat) (ext : Int) (evExt : List Byte) (d : Dev) : (raiseClock event detail ext evExt d).ports = d.ports := by
  have h := raiseClock_only event detail ext evExt d; generalize raiseClock event detail ext evExt d = a at h ⊢; exact (congrArg Dev.ports h :)
@[simp] theorem raiseClock_masters (event detail : Nat) (ext : Int) (evExt : List Byte) (d : Dev) : (raiseClock event detail ext evExt d).masters = d.masters := by
  have h := raiseClock_only event detail ext evExt d; generalize raiseClock event detail ext evExt d = a at h ⊢; exact (congrArg Dev.masters h :)
@[simp] theorem raiseClock_power (event detail : Nat) (ext : Int) (evExt : List Byte) (d : Dev) : (raiseClock event detail ext evExt d).power = d.power := by
  have h := raiseClock_only event detail ext evExt d; generalize raiseClock event detail ext evExt d = a at h ⊢; exact (congrArg Dev.power h :)
@[simp] theorem raiseClock_release (event detail : Nat) (ext : Int) (evExt : List Byte) (d : Dev) : (raiseClock event detail ext evExt d).release = d.release := by
  have h := raiseClock_only event detail ext evExt d; generalize raiseClock event detail ext evExt d = a at h ⊢; exact (congrArg Dev.release h :)
@[simp] theorem raiseClock_dma (event detail : Nat) (ext : Int) (evExt : List Byte) (d : Dev) : (raiseClock event detail ext evExt d).dma = d.dma := by
  have h := raiseClock_only event detail ext evExt d; generalize raiseClock event detail ext evExt d = a at h ⊢; exact (congrArg Dev.dma h :)
@[simp] theorem raiseClock_cistern (event detail : Nat) (ext : Int) (evExt : List Byte) (d : Dev) : (raiseClock event detail ext evExt d).cistern = d.cistern := by
  have h := raiseClock_only event detail ext evExt d; generalize raiseClock event detail ext evExt d = a at h ⊢; exact (congrArg Dev.cistern h :)
@[simp] theorem raiseClock_steward (event detail : Nat) (ext : Int) (evExt : List Byte) (d : Dev) : (raiseClock event detail ext evExt d).steward = d.steward := by
  have h := raiseClock_only event detail ext evExt d; generalize raiseClock event detail ext evExt d = a at h ⊢; exact (congrArg Dev.steward h :)
@[simp] theorem raiseClock_cascade (event detail : Nat) (ext : Int) (evExt : List Byte) (d : Dev) : (raiseClock event detail ext evExt d).cascade = d.cascade := by
  have h := raiseClock_only event detail ext evExt d; generalize raiseClock event detail ext evExt d = a at h ⊢; exact (congrArg Dev.cascade h :)
@[simp] theorem raiseClock_tables (event detail : Nat) (ext : Int) (evExt : List Byte) (d : Dev) : (raiseClock event detail ext evExt d).tables = d.tables := by
  have h := raiseClock_only event detail ext evExt d; generalize raiseClock event detail ext evExt d = a at h ⊢; exact (congrArg Dev.tables h :)
@[simp] theorem raiseClock_out (event detail : Nat) (ext : Int) (evExt : List Byte) (d : Dev) : (raiseClock event detail ext evExt d).out = d.out := by
  have h := raiseClock_only event detail ext evExt d; generalize raiseClock event detail ext evExt d = a at h ⊢; exact (congrArg Dev.out h :)

/-- `setBox` changes nothing but boxes. -/
theorem setBox_only (m : Nat) (b : Box) (d : Dev) :
    { setBox m b d with boxes := [] } = ({ d with boxes := [] } : Dev) := rfl

@[simp] theorem setBox_clock (m : Nat) (b : Box) (d : Dev) : (setBox m b d).clock = d.clock := by
  have h := setBox_only m b d; generalize setBox m b d = a at h ⊢; exact (congrArg Dev.clock h :)
@[simp] theorem setBox_freeIdx (m : Nat) (b : Box) (d : Dev) : (setBox m b d).freeIdx = d.freeIdx := by
  have h := setBox_only m b d; generalize setBox m b d = a at h ⊢; exact (congrArg Dev.freeIdx h :)
@[simp] theorem setBox_fns (m : Nat) (b : Box) (d : Dev) : (setBox m b d).fns = d.fns := by
  have h := setBox_only m b d; generalize setBox m b d = a at h ⊢; exact (congrArg Dev.fns h :)
@[simp] theorem setBox_helm (m : Nat) (b : Box) (d : Dev) : (setBox m b d).helm = d.helm := by
  have h := setBox_only m b d; generalize setBox m b d = a at h ⊢; exact (congrArg Dev.helm h :)
@[simp] theorem setBox_coll (m : Nat) (b : Box) (d : Dev) : (setBox m b d).coll = d.coll := by
  have h := setBox_only m b d; generalize setBox m b d = a at h ⊢; exact (congrArg Dev.coll h :)
@[simp] theorem setBox_guard (m : Nat) (b : Box) (d : Dev) : (setBox m b d).guard = d.guard := by
  have h := setBox_only m b d; generalize setBox m b d = a at h ⊢; exact (congrArg Dev.guard h :)
@[simp] theorem setBox_time (m : Nat) (b : Box) (d : Dev) : (setBox m b d).time = d.time := by
  have h := setBox_only m b d; generalize setBox m b d = a at h ⊢; exact (congrArg Dev.time h :)
@[simp] theorem setBox_ptp (m : Nat) (b : Box) (d : Dev) : (setBox m b d).ptp = d.ptp := by
  have h := setBox_only m b d; generalize setBox m b d = a at h ⊢; exact (congrArg Dev.ptp h :)
@[simp] theorem setBox_ledger (m : Nat) (b : Box) (d : Dev) : (setBox m b d).ledger = d.ledger := by
  have h := setBox_only m b d; generalize setBox m b d = a at h ⊢; exact (congrArg Dev.ledger h :)
@[simp] theorem setBox_pair (m : Nat) (b : Box) (d : Dev) : (setBox m b d).pair = d.pair := by
  have h := setBox_only m b d; generalize setBox m b d = a at h ⊢; exact (congrArg Dev.pair h :)
@[simp] theorem setBox_counters (m : Nat) (b : Box) (d : Dev) : (setBox m b d).counters = d.counters := by
  have h := setBox_only m b d; generalize setBox m b d = a at h ⊢; exact (congrArg Dev.counters h :)
@[simp] theorem setBox_tm (m : Nat) (b : Box) (d : Dev) : (setBox m b d).tm = d.tm := by
  have h := setBox_only m b d; generalize setBox m b d = a at h ⊢; exact (congrArg Dev.tm h :)
@[simp] theorem setBox_spec (m : Nat) (b : Box) (d : Dev) : (setBox m b d).spec = d.spec := by
  have h := setBox_only m b d; generalize setBox m b d = a at h ⊢; exact (congrArg Dev.spec h :)
@[simp] theorem setBox_frames (m : Nat) (b : Box) (d : Dev) : (setBox m b d).frames = d.frames := by
  have h := setBox_only m b d; generalize setBox m b d = a at h ⊢; exact (congrArg Dev.frames h :)
@[simp] theorem setBox_copies (m : Nat) (b : Box) (d : Dev) : (setBox m b d).copies = d.copies := by
  have h := setBox_only m b d; generalize setBox m b d = a at h ⊢; exact (congrArg Dev.copies h :)
@[simp] theorem setBox_nextFrame (m : Nat) (b : Box) (d : Dev) : (setBox m b d).nextFrame = d.nextFrame := by
  have h := setBox_only m b d; generalize setBox m b d = a at h ⊢; exact (congrArg Dev.nextFrame h :)
@[simp] theorem setBox_nextCopy (m : Nat) (b : Box) (d : Dev) : (setBox m b d).nextCopy = d.nextCopy := by
  have h := setBox_only m b d; generalize setBox m b d = a at h ⊢; exact (congrArg Dev.nextCopy h :)
@[simp] theorem setBox_ports (m : Nat) (b : Box) (d : Dev) : (setBox m b d).ports = d.ports := by
  have h := setBox_only m b d; generalize setBox m b d = a at h ⊢; exact (congrArg Dev.ports h :)
@[simp] theorem setBox_masters (m : Nat) (b : Box) (d : Dev) : (setBox m b d).masters = d.masters := by
  have h := setBox_only m b d; generalize setBox m b d = a at h ⊢; exact (congrArg Dev.masters h :)
@[simp] theorem setBox_power (m : Nat) (b : Box) (d : Dev) : (setBox m b d).power = d.power := by
  have h := setBox_only m b d; generalize setBox m b d = a at h ⊢; exact (congrArg Dev.power h :)
@[simp] theorem setBox_release (m : Nat) (b : Box) (d : Dev) : (setBox m b d).release = d.release := by
  have h := setBox_only m b d; generalize setBox m b d = a at h ⊢; exact (congrArg Dev.release h :)
@[simp] theorem setBox_dma (m : Nat) (b : Box) (d : Dev) : (setBox m b d).dma = d.dma := by
  have h := setBox_only m b d; generalize setBox m b d = a at h ⊢; exact (congrArg Dev.dma h :)
@[simp] theorem setBox_cistern (m : Nat) (b : Box) (d : Dev) : (setBox m b d).cistern = d.cistern := by
  have h := setBox_only m b d; generalize setBox m b d = a at h ⊢; exact (congrArg Dev.cistern h :)
@[simp] theorem setBox_steward (m : Nat) (b : Box) (d : Dev) : (setBox m b d).steward = d.steward := by
  have h := setBox_only m b d; generalize setBox m b d = a at h ⊢; exact (congrArg Dev.steward h :)
@[simp] theorem setBox_cascade (m : Nat) (b : Box) (d : Dev) : (setBox m b d).cascade = d.cascade := by
  have h := setBox_only m b d; generalize setBox m b d = a at h ⊢; exact (congrArg Dev.cascade h :)
@[simp] theorem setBox_tables (m : Nat) (b : Box) (d : Dev) : (setBox m b d).tables = d.tables := by
  have h := setBox_only m b d; generalize setBox m b d = a at h ⊢; exact (congrArg Dev.tables h :)
@[simp] theorem setBox_out (m : Nat) (b : Box) (d : Dev) : (setBox m b d).out = d.out := by
  have h := setBox_only m b d; generalize setBox m b d = a at h ⊢; exact (congrArg Dev.out h :)

/-- `accept` changes nothing but boxes. -/
theorem accept_only (opcode : Nat) (c : Cmd) (d : Dev) :
    { accept opcode c d with boxes := [] } = ({ d with boxes := [] } : Dev) := rfl

@[simp] theorem accept_clock (opcode : Nat) (c : Cmd) (d : Dev) : (accept opcode c d).clock = d.clock := by
  have h := accept_only opcode c d; generalize accept opcode c d = a at h ⊢; exact (congrArg Dev.clock h :)
@[simp] theorem accept_freeIdx (opcode : Nat) (c : Cmd) (d : Dev) : (accept opcode c d).freeIdx = d.freeIdx := by
  have h := accept_only opcode c d; generalize accept opcode c d = a at h ⊢; exact (congrArg Dev.freeIdx h :)
@[simp] theorem accept_fns (opcode : Nat) (c : Cmd) (d : Dev) : (accept opcode c d).fns = d.fns := by
  have h := accept_only opcode c d; generalize accept opcode c d = a at h ⊢; exact (congrArg Dev.fns h :)
@[simp] theorem accept_helm (opcode : Nat) (c : Cmd) (d : Dev) : (accept opcode c d).helm = d.helm := by
  have h := accept_only opcode c d; generalize accept opcode c d = a at h ⊢; exact (congrArg Dev.helm h :)
@[simp] theorem accept_coll (opcode : Nat) (c : Cmd) (d : Dev) : (accept opcode c d).coll = d.coll := by
  have h := accept_only opcode c d; generalize accept opcode c d = a at h ⊢; exact (congrArg Dev.coll h :)
@[simp] theorem accept_guard (opcode : Nat) (c : Cmd) (d : Dev) : (accept opcode c d).guard = d.guard := by
  have h := accept_only opcode c d; generalize accept opcode c d = a at h ⊢; exact (congrArg Dev.guard h :)
@[simp] theorem accept_time (opcode : Nat) (c : Cmd) (d : Dev) : (accept opcode c d).time = d.time := by
  have h := accept_only opcode c d; generalize accept opcode c d = a at h ⊢; exact (congrArg Dev.time h :)
@[simp] theorem accept_ptp (opcode : Nat) (c : Cmd) (d : Dev) : (accept opcode c d).ptp = d.ptp := by
  have h := accept_only opcode c d; generalize accept opcode c d = a at h ⊢; exact (congrArg Dev.ptp h :)
@[simp] theorem accept_ledger (opcode : Nat) (c : Cmd) (d : Dev) : (accept opcode c d).ledger = d.ledger := by
  have h := accept_only opcode c d; generalize accept opcode c d = a at h ⊢; exact (congrArg Dev.ledger h :)
@[simp] theorem accept_pair (opcode : Nat) (c : Cmd) (d : Dev) : (accept opcode c d).pair = d.pair := by
  have h := accept_only opcode c d; generalize accept opcode c d = a at h ⊢; exact (congrArg Dev.pair h :)
@[simp] theorem accept_counters (opcode : Nat) (c : Cmd) (d : Dev) : (accept opcode c d).counters = d.counters := by
  have h := accept_only opcode c d; generalize accept opcode c d = a at h ⊢; exact (congrArg Dev.counters h :)
@[simp] theorem accept_tm (opcode : Nat) (c : Cmd) (d : Dev) : (accept opcode c d).tm = d.tm := by
  have h := accept_only opcode c d; generalize accept opcode c d = a at h ⊢; exact (congrArg Dev.tm h :)
@[simp] theorem accept_spec (opcode : Nat) (c : Cmd) (d : Dev) : (accept opcode c d).spec = d.spec := by
  have h := accept_only opcode c d; generalize accept opcode c d = a at h ⊢; exact (congrArg Dev.spec h :)
@[simp] theorem accept_frames (opcode : Nat) (c : Cmd) (d : Dev) : (accept opcode c d).frames = d.frames := by
  have h := accept_only opcode c d; generalize accept opcode c d = a at h ⊢; exact (congrArg Dev.frames h :)
@[simp] theorem accept_copies (opcode : Nat) (c : Cmd) (d : Dev) : (accept opcode c d).copies = d.copies := by
  have h := accept_only opcode c d; generalize accept opcode c d = a at h ⊢; exact (congrArg Dev.copies h :)
@[simp] theorem accept_nextFrame (opcode : Nat) (c : Cmd) (d : Dev) : (accept opcode c d).nextFrame = d.nextFrame := by
  have h := accept_only opcode c d; generalize accept opcode c d = a at h ⊢; exact (congrArg Dev.nextFrame h :)
@[simp] theorem accept_nextCopy (opcode : Nat) (c : Cmd) (d : Dev) : (accept opcode c d).nextCopy = d.nextCopy := by
  have h := accept_only opcode c d; generalize accept opcode c d = a at h ⊢; exact (congrArg Dev.nextCopy h :)
@[simp] theorem accept_ports (opcode : Nat) (c : Cmd) (d : Dev) : (accept opcode c d).ports = d.ports := by
  have h := accept_only opcode c d; generalize accept opcode c d = a at h ⊢; exact (congrArg Dev.ports h :)
@[simp] theorem accept_masters (opcode : Nat) (c : Cmd) (d : Dev) : (accept opcode c d).masters = d.masters := by
  have h := accept_only opcode c d; generalize accept opcode c d = a at h ⊢; exact (congrArg Dev.masters h :)
@[simp] theorem accept_power (opcode : Nat) (c : Cmd) (d : Dev) : (accept opcode c d).power = d.power := by
  have h := accept_only opcode c d; generalize accept opcode c d = a at h ⊢; exact (congrArg Dev.power h :)
@[simp] theorem accept_release (opcode : Nat) (c : Cmd) (d : Dev) : (accept opcode c d).release = d.release := by
  have h := accept_only opcode c d; generalize accept opcode c d = a at h ⊢; exact (congrArg Dev.release h :)
@[simp] theorem accept_dma (opcode : Nat) (c : Cmd) (d : Dev) : (accept opcode c d).dma = d.dma := by
  have h := accept_only opcode c d; generalize accept opcode c d = a at h ⊢; exact (congrArg Dev.dma h :)
@[simp] theorem accept_cistern (opcode : Nat) (c : Cmd) (d : Dev) : (accept opcode c d).cistern = d.cistern := by
  have h := accept_only opcode c d; generalize accept opcode c d = a at h ⊢; exact (congrArg Dev.cistern h :)
@[simp] theorem accept_steward (opcode : Nat) (c : Cmd) (d : Dev) : (accept opcode c d).steward = d.steward := by
  have h := accept_only opcode c d; generalize accept opcode c d = a at h ⊢; exact (congrArg Dev.steward h :)
@[simp] theorem accept_cascade (opcode : Nat) (c : Cmd) (d : Dev) : (accept opcode c d).cascade = d.cascade := by
  have h := accept_only opcode c d; generalize accept opcode c d = a at h ⊢; exact (congrArg Dev.cascade h :)
@[simp] theorem accept_tables (opcode : Nat) (c : Cmd) (d : Dev) : (accept opcode c d).tables = d.tables := by
  have h := accept_only opcode c d; generalize accept opcode c d = a at h ⊢; exact (congrArg Dev.tables h :)
@[simp] theorem accept_out (opcode : Nat) (c : Cmd) (d : Dev) : (accept opcode c d).out = d.out := by
  have h := accept_only opcode c d; generalize accept opcode c d = a at h ⊢; exact (congrArg Dev.out h :)

/-- `begun` changes nothing but clock, time, boxes. -/
theorem begun_only (opcode : Nat) (c : Cmd) (d : Dev) :
    { begun opcode c d with clock := 0, time := {}, boxes := [] } = ({ d with clock := 0, time := {}, boxes := [] } : Dev) := rfl

@[simp] theorem begun_freeIdx (opcode : Nat) (c : Cmd) (d : Dev) : (begun opcode c d).freeIdx = d.freeIdx := by
  have h := begun_only opcode c d; generalize begun opcode c d = a at h ⊢; exact (congrArg Dev.freeIdx h :)
@[simp] theorem begun_fns (opcode : Nat) (c : Cmd) (d : Dev) : (begun opcode c d).fns = d.fns := by
  have h := begun_only opcode c d; generalize begun opcode c d = a at h ⊢; exact (congrArg Dev.fns h :)
@[simp] theorem begun_helm (opcode : Nat) (c : Cmd) (d : Dev) : (begun opcode c d).helm = d.helm := by
  have h := begun_only opcode c d; generalize begun opcode c d = a at h ⊢; exact (congrArg Dev.helm h :)
@[simp] theorem begun_coll (opcode : Nat) (c : Cmd) (d : Dev) : (begun opcode c d).coll = d.coll := by
  have h := begun_only opcode c d; generalize begun opcode c d = a at h ⊢; exact (congrArg Dev.coll h :)
@[simp] theorem begun_guard (opcode : Nat) (c : Cmd) (d : Dev) : (begun opcode c d).guard = d.guard := by
  have h := begun_only opcode c d; generalize begun opcode c d = a at h ⊢; exact (congrArg Dev.guard h :)
@[simp] theorem begun_ptp (opcode : Nat) (c : Cmd) (d : Dev) : (begun opcode c d).ptp = d.ptp := by
  have h := begun_only opcode c d; generalize begun opcode c d = a at h ⊢; exact (congrArg Dev.ptp h :)
@[simp] theorem begun_ledger (opcode : Nat) (c : Cmd) (d : Dev) : (begun opcode c d).ledger = d.ledger := by
  have h := begun_only opcode c d; generalize begun opcode c d = a at h ⊢; exact (congrArg Dev.ledger h :)
@[simp] theorem begun_pair (opcode : Nat) (c : Cmd) (d : Dev) : (begun opcode c d).pair = d.pair := by
  have h := begun_only opcode c d; generalize begun opcode c d = a at h ⊢; exact (congrArg Dev.pair h :)
@[simp] theorem begun_counters (opcode : Nat) (c : Cmd) (d : Dev) : (begun opcode c d).counters = d.counters := by
  have h := begun_only opcode c d; generalize begun opcode c d = a at h ⊢; exact (congrArg Dev.counters h :)
@[simp] theorem begun_tm (opcode : Nat) (c : Cmd) (d : Dev) : (begun opcode c d).tm = d.tm := by
  have h := begun_only opcode c d; generalize begun opcode c d = a at h ⊢; exact (congrArg Dev.tm h :)
@[simp] theorem begun_spec (opcode : Nat) (c : Cmd) (d : Dev) : (begun opcode c d).spec = d.spec := by
  have h := begun_only opcode c d; generalize begun opcode c d = a at h ⊢; exact (congrArg Dev.spec h :)
@[simp] theorem begun_frames (opcode : Nat) (c : Cmd) (d : Dev) : (begun opcode c d).frames = d.frames := by
  have h := begun_only opcode c d; generalize begun opcode c d = a at h ⊢; exact (congrArg Dev.frames h :)
@[simp] theorem begun_copies (opcode : Nat) (c : Cmd) (d : Dev) : (begun opcode c d).copies = d.copies := by
  have h := begun_only opcode c d; generalize begun opcode c d = a at h ⊢; exact (congrArg Dev.copies h :)
@[simp] theorem begun_nextFrame (opcode : Nat) (c : Cmd) (d : Dev) : (begun opcode c d).nextFrame = d.nextFrame := by
  have h := begun_only opcode c d; generalize begun opcode c d = a at h ⊢; exact (congrArg Dev.nextFrame h :)
@[simp] theorem begun_nextCopy (opcode : Nat) (c : Cmd) (d : Dev) : (begun opcode c d).nextCopy = d.nextCopy := by
  have h := begun_only opcode c d; generalize begun opcode c d = a at h ⊢; exact (congrArg Dev.nextCopy h :)
@[simp] theorem begun_ports (opcode : Nat) (c : Cmd) (d : Dev) : (begun opcode c d).ports = d.ports := by
  have h := begun_only opcode c d; generalize begun opcode c d = a at h ⊢; exact (congrArg Dev.ports h :)
@[simp] theorem begun_masters (opcode : Nat) (c : Cmd) (d : Dev) : (begun opcode c d).masters = d.masters := by
  have h := begun_only opcode c d; generalize begun opcode c d = a at h ⊢; exact (congrArg Dev.masters h :)
@[simp] theorem begun_power (opcode : Nat) (c : Cmd) (d : Dev) : (begun opcode c d).power = d.power := by
  have h := begun_only opcode c d; generalize begun opcode c d = a at h ⊢; exact (congrArg Dev.power h :)
@[simp] theorem begun_release (opcode : Nat) (c : Cmd) (d : Dev) : (begun opcode c d).release = d.release := by
  have h := begun_only opcode c d; generalize begun opcode c d = a at h ⊢; exact (congrArg Dev.release h :)
@[simp] theorem begun_dma (opcode : Nat) (c : Cmd) (d : Dev) : (begun opcode c d).dma = d.dma := by
  have h := begun_only opcode c d; generalize begun opcode c d = a at h ⊢; exact (congrArg Dev.dma h :)
@[simp] theorem begun_cistern (opcode : Nat) (c : Cmd) (d : Dev) : (begun opcode c d).cistern = d.cistern := by
  have h := begun_only opcode c d; generalize begun opcode c d = a at h ⊢; exact (congrArg Dev.cistern h :)
@[simp] theorem begun_steward (opcode : Nat) (c : Cmd) (d : Dev) : (begun opcode c d).steward = d.steward := by
  have h := begun_only opcode c d; generalize begun opcode c d = a at h ⊢; exact (congrArg Dev.steward h :)
@[simp] theorem begun_cascade (opcode : Nat) (c : Cmd) (d : Dev) : (begun opcode c d).cascade = d.cascade := by
  have h := begun_only opcode c d; generalize begun opcode c d = a at h ⊢; exact (congrArg Dev.cascade h :)
@[simp] theorem begun_tables (opcode : Nat) (c : Cmd) (d : Dev) : (begun opcode c d).tables = d.tables := by
  have h := begun_only opcode c d; generalize begun opcode c d = a at h ⊢; exact (congrArg Dev.tables h :)
@[simp] theorem begun_out (opcode : Nat) (c : Cmd) (d : Dev) : (begun opcode c d).out = d.out := by
  have h := begun_only opcode c d; generalize begun opcode c d = a at h ⊢; exact (congrArg Dev.out h :)

end Sys2Proof.Machine
end

