-- ==== Sys2Proof/Laws/Mailbox.lean ====
section
/-!
SUPPORT. The mailbox round of R411: what a command's step is where the mailbox takes it, and what an answer leaves.
-/

namespace Sys2Proof.Machine

/-- What a mailbox reads as once a mailbox is set. -/
@[simp] theorem boxOf_setBox (m n : Nat) (b : Box) (d : Dev) : boxOf (setBox m b d) n = if n = m then b else boxOf d n := by
  unfold boxOf setBox; exact tget_tput _ _ _ _ _

@[simp] theorem boxOf_emit (e : Emission) (d : Dev) (n : Nat) : boxOf (emit e d) n = boxOf d n := rfl
@[simp] theorem boxOf_advance (t : Nat) (d : Dev) (n : Nat) : boxOf (advance t d) n = boxOf d n := rfl
@[simp] theorem boxFn_advance (t : Nat) (d : Dev) (n : Nat) : boxFn (advance t d) n = boxFn d n := rfl
@[simp] theorem boxFn_begun (op : Nat) (c : Cmd) (d : Dev) (n : Nat) : boxFn (begun op c d) n = boxFn d n := rfl

/-- A doorbell changes no other mailbox. -/
theorem boxOf_begun_other {op m : Nat} {c : Cmd} (d : Dev) (h : m ≠ c.box) : boxOf (begun op c d) m = boxOf d m := by
  unfold begun accept; simp [h]

/-- No command is held back where no other mailbox waits with one that changes state (R412). -/
theorem heldBack_begun {op : Nat} {c : Cmd} {d : Dev}
    (h : ∀ k < 16, k ≠ c.box → (boxOf d k).state = 1 → changesState (boxOf d k).opcode = false) : heldBack (begun op c d) op c.box = false := by
  unfold heldBack
  rw [Bool.and_eq_false_iff]; right
  rw [List.any_eq_false]
  intro k hk
  by_cases he : k = c.box
  · simp [he]
  · by_cases hs : (boxOf d k).state = 1
    · simp [boxOf_begun_other d he, h k (List.mem_range.mp hk) he hs]
    · simp [boxOf_begun_other d he, hs]

/-- An answer changes nothing but the mailbox and what the device has sent. -/
theorem respond_only (m n : Nat) (r : Reply) :
    { respond m n r with boxes := [], out := [] } = ({ r.dev with boxes := [], out := [] } : Dev) := rfl

/-- What a mailbox reads as after an answer. -/
theorem boxOf_respond (m n : Nat) (r : Reply) :
    boxOf (respond m n r) m =
      { boxOf r.dev m with state := 2, respLen := n, status := r.status, respArea := padTo n (le 2 r.status ++ r.body), taken := false } := by
  unfold respond; simp

theorem boxOf_respond_other {m k : Nat} (n : Nat) (r : Reply) (h : k ≠ m) : boxOf (respond m n r) k = boxOf r.dev k := by
  unfold respond; simp [h]

/-- A command that its mailbox takes executes on the device as the command begins. -/
theorem runCmd_takes {s : State} {c : Cmd} {op minLen respLen : Nat} {body : List Byte → Nat → Dev → Reply} (h : Takes s c minLen) :
    runCmd op minLen respLen c body s.dev =
      (let d := begun op c s.dev
       let r := body c.req (boxFn s.dev c.box) d
       respond c.box respLen (if effective r.status then r else { r with dev := d })) := by
  obtain ⟨h1, h2, h3, h4, h5, h6, h7⟩ := h
  have hreq : c.req.take 4096 = c.req := List.take_of_length_le h6
  have e2 : (boxOf (begun op c s.dev) c.box).req = c.req := by simp [begun, accept, hreq]
  have hb : ((boxOf s.dev c.box).state == 1) = false := by simpa using h4
  unfold runCmd execute
  simp only [advance_helm, boxOf_advance, h2, if_neg (Nat.not_le.mpr h1), hb]
  rw [show accept op c (advance c.t s.dev) = begun op c s.dev from rfl]
  simp [h2, e2, heldBack_begun h7, Nat.not_lt.mpr h3, Nat.not_lt.mpr h5]

/-- A mailbox command as a step, where its mailbox takes it. -/
theorem cmd_takes {s : State} {c : Cmd} {op minLen respLen : Nat} {body : List Byte → Nat → Dev → Reply} (h : Takes s c minLen) :
    cmd op minLen respLen c body s =
      .next { s with dev := let d := begun op c s.dev
                            let r := body c.req (boxFn s.dev c.box) d
                            respond c.box respLen (if effective r.status then r else { r with dev := d }) } := by
  unfold cmd act; rw [runCmd_takes h]

/-- The answer that a step ends with is what its mailbox reads. -/
theorem answers_respond (c : Cmd) (n : Nat) (r : Reply) : Answers (respond c.box n r) c r.status n r.body := by
  unfold Answers; rw [boxOf_respond]; simp

end Sys2Proof.Machine
end

