-- ==== Sys2Proof/Laws/Memory.lean ====
section
/-!
SUPPORT. The Cistern's bytes: every operation of the machine that stores none leaves them as they are, each said once, and those that do
store keep the canonical form.
-/

namespace Sys2Proof.Machine

-- What no step of a fold, and neither side of a choice, stores is not stored ---------------------------------------------------------

@[simp] theorem memSame_foldl {β : Type} (f : Dev → β → Dev) (l : List β) (d : Dev) (h : ∀ d x, (f d x).cistern.mem = d.cistern.mem) :
    (l.foldl f d).cistern.mem = d.cistern.mem := by
  induction l generalizing d with
  | nil => rfl
  | cons x t ih => rw [List.foldl_cons, ih, h]

@[simp] theorem memSame_ite {c : Prop} [Decidable c] (a b : Dev) :
    (if c then a else b).cistern.mem = if c then a.cistern.mem else b.cistern.mem := by split <;> rfl
@[simp] theorem memSame_reply {c : Prop} [Decidable c] (a b : Reply) :
    (if c then a else b).dev.cistern.mem = if c then a.dev.cistern.mem else b.dev.cistern.mem := by split <;> rfl

-- Machine/Ops.lean ------------------------------------------------------------------------------------------

@[simp] theorem emit_mem (e : Emission) (d : Dev) : (emit e d).cistern.mem = d.cistern.mem := by rfl

@[simp] theorem takeFree_mem (d : Dev) : (takeFree d).2.cistern.mem = d.cistern.mem := by rfl

@[simp] theorem advance_mem (t : Nat) (d : Dev) : (advance t d).cistern.mem = d.cistern.mem := by rfl

@[simp] theorem settleBad_mem (ready : Bool) (d : Dev) : (settleBad ready d).cistern.mem = d.cistern.mem := by rfl

@[simp] theorem setCounter_mem (c v : Nat) (d : Dev) : (setCounter c v d).cistern.mem = d.cistern.mem := by rfl

@[simp] theorem bumpCounter_mem (c v : Nat) (d : Dev) : (bumpCounter c v d).cistern.mem = d.cistern.mem := by rfl

@[simp] theorem addCounter_mem (c n : Nat) (d : Dev) : (addCounter c n d).cistern.mem = d.cistern.mem := by unfold addCounter; simp

@[simp] theorem countIn_mem (event inst bytes : Nat) (d : Dev) : (countIn event inst bytes d).cistern.mem = d.cistern.mem := by unfold countIn; simp

@[simp] theorem count_mem (event inst : Nat) (d : Dev) : (count event inst d).cistern.mem = d.cistern.mem := by unfold count; simp

@[simp] theorem countRx_mem (event port bytes : Nat) (d : Dev) : (countRx event port bytes d).cistern.mem = d.cistern.mem := by
  unfold countRx; rw [countIn_mem, countIn_mem]

@[simp] theorem countAction_mem (c bytes : Nat) (d : Dev) : (countAction c bytes d).cistern.mem = d.cistern.mem := by unfold countAction; simp

@[simp] theorem repeatCount_mem (event inst n : Nat) (d : Dev) : (repeatCount event inst n d).cistern.mem = d.cistern.mem := by
  induction n generalizing d with
  | zero => rfl
  | succ n ih => unfold repeatCount; rw [ih]; simp

@[simp] theorem setFn_mem (f : Nat) (x : Fn) (d : Dev) : (setFn f x d).cistern.mem = d.cistern.mem := by rfl

@[simp] theorem raiseTo_mem (f : Nat) (e : EvRec) (d : Dev) : (raiseTo f e d).cistern.mem = d.cistern.mem := by unfold raiseTo; simp

@[simp] theorem raise_mem (code subject detail : Nat) (ext : List Byte) (d : Dev) : (raise code subject detail ext d).cistern.mem = d.cistern.mem := by unfold raise; simp

@[simp] theorem setPresent_mem (source kind : Nat) (d : Dev) : (setPresent source kind d).cistern.mem = d.cistern.mem := by unfold setPresent; simp

@[simp] theorem endCondition_mem (source kind : Nat) (d : Dev) : (endCondition source kind d).cistern.mem = d.cistern.mem := by rfl

@[simp] theorem report_mem (source kind addr : Nat) (d : Dev) : (report source kind addr d).cistern.mem = d.cistern.mem := by unfold report; simp

theorem openTicket_mem {f : Nat} {d e : Dev} {n : Nat} (h : openTicket f d = some (n, e)) : e.cistern.mem = d.cistern.mem := by
  unfold openTicket at h; split at h
  · simp only [Option.some.injEq, Prod.mk.injEq] at h; rw [← h.2]
  · cases h

@[simp] theorem finishTicket_mem (n : Nat) (bytes : List Byte) (d : Dev) : (finishTicket n bytes d).cistern.mem = d.cistern.mem := by
  unfold finishTicket; (repeat' split) <;> simp

@[simp] theorem completeTicket_mem (n status : Nat) (extra : List Byte) (d : Dev) : (completeTicket n status extra d).cistern.mem = d.cistern.mem := by unfold completeTicket; simp

@[simp] theorem completeOpt_mem (t : Option Nat) (status : Nat) (extra : List Byte) (d : Dev) : (completeOpt t status extra d).cistern.mem = d.cistern.mem := by
  unfold completeOpt; (repeat' split) <;> simp

@[simp] theorem noteBad_mem (d : Dev) : (noteBad d).cistern.mem = d.cistern.mem := by rfl

@[simp] theorem noteServo_mem (d : Dev) : (noteServo d).cistern.mem = d.cistern.mem := by unfold noteServo; simp

@[simp] theorem offerRecord_mem (source : Nat) (bytes : List Byte) (guarded : Bool) (input : Option (List Byte)) (d : Dev) : (offerRecord source bytes guarded input d).cistern.mem = d.cistern.mem := by unfold offerRecord; simp

@[simp] theorem clockRecord_mem (east : Bool) (event detail : Nat) (ext : Int) (d : Dev) : (clockRecord east event detail ext d).cistern.mem = d.cistern.mem := by unfold clockRecord; simp

@[simp] theorem raiseClock_mem (event detail : Nat) (ext : Int) (evExt : List Byte) (d : Dev) : (raiseClock event detail ext evExt d).cistern.mem = d.cistern.mem := by unfold raiseClock; simp

@[simp] theorem rej_mem (status : Nat) (d : Dev) : (rej status d).dev.cistern.mem = d.cistern.mem := by rfl

@[simp] theorem okay_mem (d : Dev) : (okay d).dev.cistern.mem = d.cistern.mem := by rfl

@[simp] theorem pend_mem (f : Nat) (d : Dev) (k : Nat → Dev → Dev) (h : ∀ n e, (k n e).cistern.mem = e.cistern.mem) : (pend f d k).dev.cistern.mem = d.cistern.mem := by
  unfold pend; split
  · simp
  · rename_i e; simp only [h]; exact openTicket_mem e

@[simp] theorem setBox_mem (m : Nat) (b : Box) (d : Dev) : (setBox m b d).cistern.mem = d.cistern.mem := by rfl

@[simp] theorem respond_mem (m respLen : Nat) (r : Reply) : (respond m respLen r).cistern.mem = r.dev.cistern.mem := by
  unfold respond; simp

@[simp] theorem accept_mem (opcode : Nat) (c : Cmd) (d : Dev) : (accept opcode c d).cistern.mem = d.cistern.mem := by rfl

theorem execute_mem (opcode minLen respLen m : Nat) (body : List Byte → Nat → Dev → Reply) (d : Dev)
    (h : ∀ q f e, (body q f e).dev.cistern.mem = e.cistern.mem) : (execute opcode minLen respLen m body d).cistern.mem = d.cistern.mem := by
  unfold execute; simp [h]
  repeat' split
  all_goals first | rfl | simp [h]

theorem runCmd_mem (opcode minLen respLen : Nat) (c : Cmd) (body : List Byte → Nat → Dev → Reply) (d : Dev)
    (h : ∀ q f e, (body q f e).dev.cistern.mem = e.cistern.mem) : (runCmd opcode minLen respLen c body d).cistern.mem = d.cistern.mem := by
  unfold runCmd; simp [execute_mem _ _ _ _ _ _ h]

-- Machine/Flags.lean ------------------------------------------------------------------------------------------

@[simp] theorem setPort_mem (p : Nat) (x : Port) (d : Dev) : (setPort p x d).cistern.mem = d.cistern.mem := by rfl

@[simp] theorem modPort_mem (p : Nat) (f : Port → Port) (d : Dev) : (modPort p f d).cistern.mem = d.cistern.mem := by rfl

@[simp] theorem setUnit_mem (u : Nat) (x : PUnit) (d : Dev) : (setUnit u x d).cistern.mem = d.cistern.mem := by rfl

-- Machine/Tm.lean ------------------------------------------------------------------------------------------

@[simp] theorem setFrame_mem (i : Nat) (f : Frame) (d : Dev) : (setFrame i f d).cistern.mem = d.cistern.mem := by rfl

@[simp] theorem modFrame_mem (i : Nat) (g : Frame → Frame) (d : Dev) : (modFrame i g d).cistern.mem = d.cistern.mem := by rfl

@[simp] theorem setCopy_mem (i : Nat) (c : Copy) (d : Dev) : (setCopy i c d).cistern.mem = d.cistern.mem := by rfl

@[simp] theorem modCopy_mem (i : Nat) (g : Copy → Copy) (d : Dev) : (modCopy i g d).cistern.mem = d.cistern.mem := by rfl

@[simp] theorem setSched_mem (p : Nat) (x : Sched) (d : Dev) : (setSched p x d).cistern.mem = d.cistern.mem := by rfl

@[simp] theorem setQueue_mem (q : Nat) (x : Queue) (d : Dev) : (setQueue q x d).cistern.mem = d.cistern.mem := by rfl

@[simp] theorem setGroup_mem (g : Nat) (x : Group) (d : Dev) : (setGroup g x d).cistern.mem = d.cistern.mem := by rfl

@[simp] theorem note_mem (i event inst : Nat) (d : Dev) : (note i event inst d).cistern.mem = d.cistern.mem := by rfl

@[simp] theorem countEgress_mem (event : Nat) (c : Copy) (d : Dev) : (countEgress event c d).cistern.mem = d.cistern.mem := by unfold countEgress; simp

@[simp] theorem windowAdd_mem (port dir ticks bytes : Nat) (d : Dev) : (windowAdd port dir ticks bytes d).cistern.mem = d.cistern.mem := by rfl

@[simp] theorem frameRecord_mem (i : Nat) (late : Bool) (d : Dev) : (frameRecord i late d).cistern.mem = d.cistern.mem := by
  unfold frameRecord; dsimp only; (repeat' split) <;> simp

@[simp] theorem copyRecord_mem (i : Nat) (d : Dev) : (copyRecord i d).cistern.mem = d.cistern.mem := by unfold copyRecord; simp

@[simp] theorem endedRecords_mem (i : Nat) (d : Dev) : (endedRecords i d).cistern.mem = d.cistern.mem := by unfold endedRecords; simp

@[simp] theorem setStream_mem (s : Nat) (x : Stream) (d : Dev) : (setStream s x d).cistern.mem = d.cistern.mem := by rfl

@[simp] theorem freeHolds_mem (stream : Nat) (d : Dev) : (freeHolds stream d).cistern.mem = d.cistern.mem := by rfl

@[simp] theorem setLastSent_mem (stream slot seq : Nat) (d : Dev) : (setLastSent stream slot seq d).cistern.mem = d.cistern.mem := by unfold setLastSent; simp

@[simp] theorem ptpSent_mem (c : Copy) (d : Dev) : (ptpSent c d).cistern.mem = d.cistern.mem := by
  unfold ptpSent; (repeat' split) <;> simp

@[simp] theorem reap_mem (i : Nat) (d : Dev) : (reap i d).cistern.mem = d.cistern.mem := by unfold reap; simp

@[simp] theorem chargePath_mem (c : Copy) (wireLen : Nat) (d : Dev) : (chargePath c wireLen d).cistern.mem = d.cistern.mem := by rfl

@[simp] theorem unqueue_mem (i : Nat) (d : Dev) : (unqueue i d).cistern.mem = d.cistern.mem := by rfl

@[simp] theorem markUnequal_mem (i : Nat) (d : Dev) : (markUnequal i d).cistern.mem = d.cistern.mem := by rfl

@[simp] theorem countUnequal_mem (c : Copy) (d : Dev) : (countUnequal c d).cistern.mem = d.cistern.mem := by
  unfold countUnequal; (repeat' split) <;> simp

@[simp] theorem unhold_mem (i : Nat) (d : Dev) : (unhold i d).cistern.mem = d.cistern.mem := by
  unfold unhold; (repeat' split) <;> simp

@[simp] theorem keepGap_mem (p : Nat) (d : Dev) : (keepGap p d).cistern.mem = d.cistern.mem := by rfl

@[simp] theorem endCopy_mem (i state wireLen : Nat) (d : Dev) : (endCopy i state wireLen d).cistern.mem = d.cistern.mem := by unfold endCopy; simp

@[simp] theorem stompCopy_mem (i code : Nat) (d : Dev) : (stompCopy i code d).cistern.mem = d.cistern.mem := by unfold stompCopy; simp

@[simp] theorem cutCopy_mem (i : Nat) (block : Bool) (d : Dev) : (cutCopy i block d).cistern.mem = d.cistern.mem := by unfold cutCopy; simp

@[simp] theorem discardCopy_mem (i code : Nat) (d : Dev) : (discardCopy i code d).cistern.mem = d.cistern.mem := by unfold discardCopy; simp

@[simp] theorem sendCopy_mem (i : Nat) (d : Dev) : (sendCopy i d).cistern.mem = d.cistern.mem := by
  unfold sendCopy; simp only [endCopy_mem, ptpSent_mem]
  (repeat' split) <;> simp

@[simp] theorem refreshQueue_mem (p q : Nat) (d : Dev) : (refreshQueue p q d).cistern.mem = d.cistern.mem := by rfl

@[simp] theorem refreshGroup_mem (p g : Nat) (d : Dev) : (refreshGroup p g d).cistern.mem = d.cistern.mem := by rfl

@[simp] theorem refreshPort_mem (p : Nat) (d : Dev) : (refreshPort p d).cistern.mem = d.cistern.mem := by unfold refreshPort; simp

@[simp] theorem noteSelected_mem (p q : Nat) (d : Dev) : (noteSelected p q d).cistern.mem = d.cistern.mem := by rfl

@[simp] theorem startCopy_mem (i launch : Nat) (d : Dev) : (startCopy i launch d).cistern.mem = d.cistern.mem := by unfold startCopy; simp

-- Machine/Fabric.lean ------------------------------------------------------------------------------------------

@[simp] theorem cascadeSend_mem (ports : List Nat) (subtype dst dstUnit : Nat) (body : List Byte) (d : Dev) : (cascadeSend ports subtype dst dstUnit body d).cistern.mem = d.cistern.mem := by unfold cascadeSend; simp

@[simp] theorem cascadeKeep_mem (ports : List Nat) (subtype dst dstUnit : Nat) (body : List Byte) (d : Dev) : (cascadeKeep ports subtype dst dstUnit body d).cistern.mem = d.cistern.mem := by unfold cascadeKeep; simp

@[simp] theorem cascadeAck_mem (ports : List Nat) (subtype seq dst dstUnit : Nat) (d : Dev) : (cascadeAck ports subtype seq dst dstUnit d).cistern.mem = d.cistern.mem := by unfold cascadeAck; simp

@[simp] theorem pushCommand_mem (opcode beat : Nat) (req : List Byte) (d : Dev) : (pushCommand opcode beat req d).cistern.mem = d.cistern.mem := by unfold pushCommand; simp

@[simp] theorem flushPushes_mem (d : Dev) : (flushPushes d).cistern.mem = d.cistern.mem := by unfold flushPushes; simp

@[simp] theorem pushInOrder_mem (opcode : Nat) (req : List Byte) (d : Dev) : (pushInOrder opcode req d).cistern.mem = d.cistern.mem := by unfold pushInOrder; simp

@[simp] theorem takeNote_mem (note : List Byte) (d : Dev) : (takeNote note d).cistern.mem = d.cistern.mem := by unfold takeNote; simp

@[simp] theorem sealNote_mem (sealNo : Nat) (hash : List Byte) (d : Dev) : (sealNote sealNo hash d).cistern.mem = d.cistern.mem := by unfold sealNote; simp

-- Machine/Roles.lean ------------------------------------------------------------------------------------------

@[simp] theorem tetherSend_mem (subtype : Nat) (body : List Byte) (d : Dev) : (tetherSend subtype body d).cistern.mem = d.cistern.mem := by rfl

@[simp] theorem tetherKeep_mem (subtype : Nat) (body : List Byte) (ticket : Option Nat) (localDone : Bool) (d : Dev) : (tetherKeep subtype body ticket localDone d).cistern.mem = d.cistern.mem := by rfl

@[simp] theorem mirror_mem (opcode beat : Nat) (req : List Byte) (ticket : Option Nat) (d : Dev) : (mirror opcode beat req ticket d).cistern.mem = d.cistern.mem := by unfold mirror; simp

@[simp] theorem finishProgrammed_mem (n status : Nat) (bytes : List Byte) (d : Dev) : (finishProgrammed n status bytes d).cistern.mem = d.cistern.mem := by unfold finishProgrammed; simp

@[simp] theorem tetherAck_mem (subtype seq : Nat) (d : Dev) : (tetherAck subtype seq d).cistern.mem = d.cistern.mem := by unfold tetherAck; simp

@[simp] theorem mirrorsAlone_mem (d : Dev) : (mirrorsAlone d).cistern.mem = d.cistern.mem := by
  unfold mirrorsAlone
  refine (memSame_foldl _ _ _ (fun d x => ?_)).trans rfl
  (repeat' split) <;> simp

@[simp] theorem mirrorsLost_mem (d : Dev) : (mirrorsLost d).cistern.mem = d.cistern.mem := by
  unfold mirrorsLost
  refine (memSame_foldl _ _ _ (fun d x => ?_)).trans rfl
  (repeat' split) <;> simp

@[simp] theorem setOutcome_mem (i code : Nat) (d : Dev) : (setOutcome i code d).cistern.mem = d.cistern.mem := by unfold setOutcome; simp

@[simp] theorem tryAccept_mem (i : Nat) (d : Dev) : (tryAccept i d).cistern.mem = d.cistern.mem := by
  unfold tryAccept; dsimp only; (repeat' split) <;> simp

@[simp] theorem endAwaiting_mem (d : Dev) : (endAwaiting d).cistern.mem = d.cistern.mem := by unfold endAwaiting; simp

@[simp] theorem leavePair_mem (wasPair : Bool) (d : Dev) : (leavePair wasPair d).cistern.mem = d.cistern.mem := by unfold leavePair; simp

@[simp] theorem freeze_mem (d : Dev) : (freeze d).cistern.mem = d.cistern.mem := by unfold freeze; simp

@[simp] theorem unfreeze_mem (d : Dev) : (unfreeze d).cistern.mem = d.cistern.mem := by rfl

@[simp] theorem releaseOne_mem (kind stream seq : Nat) (fr : Frame) (hs : HoldSlot) (d : Dev) : (releaseOne kind stream seq fr hs d).cistern.mem = d.cistern.mem := by
  unfold releaseOne; (repeat' split) <;> simp

@[simp] theorem discardWaiting_mem (stream slot : Nat) (seqs : List Nat) (d : Dev) : (discardWaiting stream slot seqs d).cistern.mem = d.cistern.mem := by unfold discardWaiting; simp

@[simp] theorem eachSlot_mem (of : Slot → Bool) (one : Nat → Nat → Slot → Dev → Dev) (d : Dev) (h : ∀ s k sl d, (one s k sl d).cistern.mem = d.cistern.mem) :
    (eachSlot of one d).cistern.mem = d.cistern.mem := by
  unfold eachSlot
  refine memSame_foldl _ _ _ (fun d x => memSame_foldl _ _ _ (fun d y => ?_))
  dsimp only; split <;> simp [h]

@[simp] theorem releaseList_mem (kind stream k : Nat) (hs : List Hold) (d : Dev) : (releaseList kind stream k hs d).cistern.mem = d.cistern.mem := by
  unfold releaseList
  refine (memSame_foldl _ _ _ (fun d x => ?_)).trans rfl
  (repeat' split) <;> simp

@[simp] theorem releaseSlots_mem (of : Slot → Bool) (want : Hold → Bool) (d : Dev) : (releaseSlots of want d).cistern.mem = d.cistern.mem := by unfold releaseSlots; simp

@[simp] theorem resumeSlots_mem (of : Slot → Bool) (d : Dev) : (resumeSlots of d).cistern.mem = d.cistern.mem := by unfold resumeSlots; simp

@[simp] theorem releaseHolds_mem (want : Hold → Bool) (d : Dev) : (releaseHolds want d).cistern.mem = d.cistern.mem := by unfold releaseHolds; simp

@[simp] theorem dropHolds_mem (d : Dev) : (dropHolds d).cistern.mem = d.cistern.mem := by rfl

@[simp] theorem failResync_mem (step : Nat) (d : Dev) : (failResync step d).cistern.mem = d.cistern.mem := by
  unfold failResync; (repeat' split) <;> simp

@[simp] theorem failPlanned_mem (d : Dev) : (failPlanned d).cistern.mem = d.cistern.mem := by
  unfold failPlanned; (repeat' split) <;> simp

@[simp] theorem changeRole_mem (role cause : Nat) (d : Dev) : (changeRole role cause d).cistern.mem = d.cistern.mem := by unfold changeRole; simp

@[simp] theorem takeover_mem (cause : Nat) (d : Dev) : (takeover cause d).cistern.mem = d.cistern.mem := by unfold takeover; simp

@[simp] theorem yieldUnit_mem (d : Dev) : (yieldUnit d).cistern.mem = d.cistern.mem := by unfold yieldUnit; simp

@[simp] theorem standbyStale_mem (d : Dev) : (standbyStale d).cistern.mem = d.cistern.mem := by unfold standbyStale; simp

@[simp] theorem suspendPromise_mem (d : Dev) : (suspendPromise d).cistern.mem = d.cistern.mem := by unfold suspendPromise; simp

@[simp] theorem resumePromise_mem (d : Dev) : (resumePromise d).cistern.mem = d.cistern.mem := by unfold resumePromise; simp

@[simp] theorem toBoth_mem (vector : Nat) (d : Dev) : (toBoth vector d).cistern.mem = d.cistern.mem := by unfold toBoth; simp

@[simp] theorem enterSafe_mem (cause : Nat) (d : Dev) : (enterSafe cause d).cistern.mem = d.cistern.mem := by unfold enterSafe; simp

-- Machine/Work.lean ------------------------------------------------------------------------------------------

@[simp] theorem enqueueOp_mem (o : Op) (d : Dev) : (enqueueOp o d).cistern.mem = d.cistern.mem := by rfl

@[simp] theorem addOp_mem (code ticket fn : Nat) (req host : List Byte) (key : Nat) (d : Dev) : (addOp code ticket fn req host key d).cistern.mem = d.cistern.mem := by rfl

@[simp] theorem addHwOp_mem (code : Nat) (req : List Byte) (key : Nat) (d : Dev) : (addHwOp code req key d).cistern.mem = d.cistern.mem := by unfold addHwOp; simp

@[simp] theorem pendOp_mem (f code : Nat) (req host : List Byte) (key : Nat) (d : Dev) : (pendOp f code req host key d).dev.cistern.mem = d.cistern.mem := by unfold pendOp; simp

@[simp] theorem tellEnd_mem (o : Op) (status : Nat) (d : Dev) : (tellEnd o status d).cistern.mem = d.cistern.mem := by
  unfold tellEnd; (repeat' split) <;> simp

@[simp] theorem endOpWith_mem (o : Op) (status : Nat) (bytes : List Byte) (d : Dev) : (endOpWith o status bytes d).cistern.mem = d.cistern.mem := by unfold endOpWith; simp

@[simp] theorem endOp_mem (o : Op) (status : Nat) (extra : List Byte) (d : Dev) : (endOp o status extra d).cistern.mem = d.cistern.mem := by unfold endOp; simp

@[simp] theorem setChan_mem (c : Nat) (x : Channel) (d : Dev) : (setChan c x d).cistern.mem = d.cistern.mem := by rfl

@[simp] theorem askCistern_mem (d : Dev) : (askCistern d).cistern.mem = d.cistern.mem := by rfl

@[simp] theorem wordBad_mem (w : Nat) (d : Dev) : (wordBad w d).cistern.mem = d.cistern.mem := by rfl

@[simp] theorem wordCorrected_mem (w : Nat) (d : Dev) : (wordCorrected w d).cistern.mem = d.cistern.mem := by rfl

@[simp] theorem noteRead_mem (addr n : Nat) (d : Dev) : (noteRead addr n d).cistern.mem = d.cistern.mem := by unfold noteRead; simp

theorem putBytes_wf (a : Nat) (bs : List Byte) {t : Tbl Byte} (h : Memory.wf t = true) : Memory.wf (putBytes a bs t) = true := by
  induction bs generalizing a t with
  | nil => exact h
  | cons b bs ih => exact ih _ (tput_wf 0 a b h)

theorem memWrite_wf (a : Nat) (bs : List Byte) {d : Dev} (h : Memory.wf d.cistern.mem = true) : Memory.wf (memWrite a bs d).cistern.mem = true :=
  putBytes_wf a bs h

theorem memStore_wf (a : Nat) (bs : List Byte) {d : Dev} (h : Memory.wf d.cistern.mem = true) : Memory.wf (memStore a bs d).cistern.mem = true := by
  unfold memStore; split
  · exact memWrite_wf a bs h
  · simpa using h

theorem storeSpans_wf (l : List (Nat × Nat)) (bs : List Byte) {d : Dev} (h : Memory.wf d.cistern.mem = true) :
    Memory.wf (storeSpans l bs d).cistern.mem = true := by
  induction l generalizing bs d with
  | nil => exact h
  | cons x t ih => exact ih _ (memWrite_wf _ _ h)

@[simp] theorem loseCover_mem (d : Dev) : (loseCover d).cistern.mem = d.cistern.mem := by rfl

theorem storeGap_eq (n : Nat) (d : Dev) : storeGap n d = if d.ledger.nextRecord ≤ n || tget [] d.ledger.bad n != [] then d
    else count 0x809 0 (report 0x603 0x1C 0 { noteRead (recordAddr d n) 32 d with ledger :=
      { (noteRead (recordAddr d n) 32 d).ledger with
        bad := tput [] n (gapBytes (noteRead (recordAddr d n) 32 d) 3 1
          (b2n (u16 (memWritten (noteRead (recordAddr d n) 32 d) (recordAddr (noteRead (recordAddr d n) 32 d) n) 32) 22 / 8192 ≤ 1 &&
            u16 (memWritten (noteRead (recordAddr d n) 32 d) (recordAddr (noteRead (recordAddr d n) 32 d) n) 32) 22 / 512 % 16 != 15)) 0)
          (noteRead (recordAddr d n) 32 d).ledger.bad,
        lost := (noteRead (recordAddr d n) 32 d).ledger.lost + 1 } }) := rfl
@[simp] theorem storeGap_mem (n : Nat) (d : Dev) : (storeGap n d).cistern.mem = d.cistern.mem := by
  rw [storeGap_eq]
  have h : ∀ (e : Dev) (l : Ledger), (count 0x809 0 (report 0x603 0x1C 0 { e with ledger := l })).cistern.mem = e.cistern.mem :=
    fun e l => by rw [count_mem, report_mem]
  split
  · rfl
  · rw [h, noteRead_mem]

@[simp] theorem storeGaps_mem (first : Nat) (d : Dev) : (storeGaps first d).cistern.mem = d.cistern.mem := by unfold storeGaps; simp

-- Machine/Dma.lean ------------------------------------------------------------------------------------------

@[simp] theorem setRing_mem (r : Nat) (x : Ring) (d : Dev) : (setRing r x d).cistern.mem = d.cistern.mem := by rfl

@[simp] theorem setCq_mem (q : Nat) (x : Cq) (d : Dev) : (setCq q x d).cistern.mem = d.cistern.mem := by rfl

@[simp] theorem signalCq_mem (q : Nat) (d : Dev) : (signalCq q d).cistern.mem = d.cistern.mem := by rfl

@[simp] theorem cqWrite_mem (q ring index status flags count detail : Nat) (d : Dev) : (cqWrite q ring index status flags count detail d).cistern.mem = d.cistern.mem := by unfold cqWrite; simp

@[simp] theorem tookTurn_mem (r n : Nat) (d : Dev) : (tookTurn r n d).cistern.mem = d.cistern.mem := by unfold tookTurn; simp

@[simp] theorem ringData_mem (r addr : Nat) (bs : List Byte) (d : Dev) : (ringData r addr bs d).cistern.mem = d.cistern.mem := by unfold ringData; simp

@[simp] theorem startDesc_mem (r : Nat) (desc : Option (List Byte)) (d : Dev) : (startDesc r desc d).1.cistern.mem = d.cistern.mem := by rfl

@[simp] theorem drainStarted_mem (r : Nat) (l : List Started) (d : Dev) : (drainStarted r l d).cistern.mem = d.cistern.mem := by
  induction l generalizing d with
  | nil => simp [drainStarted]
  | cons s t ih =>
    unfold drainStarted; split
    · simp
    · rw [ih]; simp

@[simp] theorem flushRing_mem (r n : Nat) (d : Dev) : (flushRing r n d).cistern.mem = d.cistern.mem := by
  induction n generalizing d with
  | zero => simp [flushRing]
  | succ n ih => unfold flushRing; simp [ih]

@[simp] theorem settleRing_mem (r : Nat) (reread : Option (List Byte)) (d : Dev) : (settleRing r reread d).cistern.mem = d.cistern.mem := by unfold settleRing; simp

@[simp] theorem finishDesc_mem (r index status flags count detail : Nat) (reread : Option (List Byte)) (d : Dev) : (finishDesc r index status flags count detail reread d).cistern.mem = d.cistern.mem := by unfold finishDesc; simp

@[simp] theorem dropWaiting_mem (fn src n : Nat) (d : Dev) : (dropWaiting fn src n d).cistern.mem = d.cistern.mem := by
  unfold dropWaiting; (repeat' split) <;> simp

@[simp] theorem pruneLedger_mem (d : Dev) : (pruneLedger d).cistern.mem = d.cistern.mem := by rfl

@[simp] theorem freeSlots_mem (src upTo : Nat) (d : Dev) : (freeSlots src upTo d).cistern.mem = d.cistern.mem := by
  unfold freeSlots; (repeat' split) <;> simp

@[simp] theorem applyRings_mem (d : Dev) : (applyRings d).cistern.mem = d.cistern.mem := by rfl

@[simp] theorem closeBuffer_mem (r flags : Nat) (reread : Option (List Byte)) (d : Dev) : (closeBuffer r flags reread d).cistern.mem = d.cistern.mem := by
  unfold closeBuffer; dsimp only; (repeat' split) <;> simp

@[simp] theorem noteExport_mem (src first n : Nat) (d : Dev) : (noteExport src first n d).cistern.mem = d.cistern.mem := by
  have h : ∀ (f : Dev → Nat → Nat) (n : Nat) (l : List Nat), (l.foldl (fun d k => noteRead (f d k) n d) d).cistern.mem = d.cistern.mem :=
    fun f n l => memSame_foldl _ _ _ (fun d k => noteRead_mem _ _ d)
  unfold noteExport; split
  · exact h recordAddr 32 _
  · exact h sealAddr 256 _
  · rfl

@[simp] theorem packRecords_mem (r src : Nat) (reread : Option (List Byte)) (d : Dev) : (packRecords r src reread d).cistern.mem = d.cistern.mem := by
  unfold packRecords; dsimp only; (repeat' split) <;> simp

@[simp] theorem keepOrLose_mem (fn src : Nat) (d : Dev) : (keepOrLose fn src d).cistern.mem = d.cistern.mem := by
  unfold keepOrLose; (repeat' split) <;> simp

@[simp] theorem fillRing_mem (r src : Nat) (desc reread : Option (List Byte)) (d : Dev) : (fillRing r src desc reread d).cistern.mem = d.cistern.mem := by
  unfold fillRing; dsimp only; (repeat' split) <;> simp

@[simp] theorem disableRings_mem (fn : Nat) (d : Dev) : (disableRings fn d).cistern.mem = d.cistern.mem := by unfold disableRings; simp

@[simp] theorem orphanJobs_mem (fn : Nat) (d : Dev) : (orphanJobs fn d).cistern.mem = d.cistern.mem := by rfl

-- Machine/Helm.lean ------------------------------------------------------------------------------------------

@[simp] theorem setBank_mem (n : Nat) (b : Bank) (d : Dev) : (setBank n b d).cistern.mem = d.cistern.mem := by unfold setBank; simp

@[simp] theorem setHelmState_mem (st : Nat) (d : Dev) : (setHelmState st d).cistern.mem = d.cistern.mem := by unfold setHelmState; simp

@[simp] theorem endTaken_mem (d : Dev) : (endTaken d).cistern.mem = d.cistern.mem := by
  unfold endTaken
  refine (memSame_foldl _ _ _ (fun d x => ?_)).trans rfl
  (repeat' split) <;> simp

-- Machine/Collector.lean ------------------------------------------------------------------------------------------

@[simp] theorem setClass_mem (c : Nat) (x : Class) (d : Dev) : (setClass c x d).cistern.mem = d.cistern.mem := by rfl

@[simp] theorem raiseInt_mem (d : Dev) : (raiseInt d).cistern.mem = d.cistern.mem := by unfold raiseInt; simp

@[simp] theorem loseHist_mem (i : Nat) (d : Dev) : (loseHist i d).cistern.mem = d.cistern.mem := by rfl

@[simp] theorem takeOne_mem (simul : Bool) (w : Word64) (d : Dev) : (takeOne simul w d).1.cistern.mem = d.cistern.mem := by
  unfold takeOne; dsimp only; (repeat' split) <;> simp

@[simp] theorem takeAll_mem (simul : Bool) (ws : List Word64) (d : Dev) : (takeAll simul ws d).1.cistern.mem = d.cistern.mem := by
  induction ws generalizing d with
  | nil => rfl
  | cons w ws ih => simp [takeAll, ih]

@[simp] theorem dequeueMsg_mem (w : Word64) (d : Dev) : (dequeueMsg w d).cistern.mem = d.cistern.mem := by rfl

@[simp] theorem crossingTimeout_mem (d : Dev) : (crossingTimeout d).cistern.mem = d.cistern.mem := by rfl

@[simp] theorem leaveMsg_mem (w : Word64) (d : Dev) : (leaveMsg w d).cistern.mem = d.cistern.mem := by unfold leaveMsg; simp

@[simp] theorem takeMessages_mem (msgs : List Word64) (d : Dev) : (takeMessages msgs d).cistern.mem = d.cistern.mem := by
  unfold takeMessages; dsimp only
  (repeat' split) <;> simp

@[simp] theorem setMode_mem (m : Nat) (d : Dev) : (setMode m d).cistern.mem = d.cistern.mem := by unfold setMode; simp

@[simp] theorem clearStatus_mem (src : Nat) (d : Dev) : (clearStatus src d).cistern.mem = d.cistern.mem := by unfold clearStatus; simp

@[simp] theorem keepStarters_mem (d : Dev) : (keepStarters d).cistern.mem = d.cistern.mem := by rfl

@[simp] theorem setGuards_mem (first value n : Nat) (d : Dev) : (setGuards first value n d).cistern.mem = d.cistern.mem := by
  induction n generalizing first d with
  | zero => rfl
  | succ n ih => unfold setGuards; rw [ih]

-- Machine/Guard.lean ------------------------------------------------------------------------------------------

@[simp] theorem forgetRetained_mem (st : Nat) (d : Dev) : (forgetRetained st d).cistern.mem = d.cistern.mem := by rfl

@[simp] theorem guardStreamBody_mem (q : List Byte) (d : Dev) : (guardStreamBody q d).dev.cistern.mem = d.cistern.mem := by unfold guardStreamBody; simp

@[simp] theorem leaveSafe_mem (d : Dev) : (leaveSafe d).cistern.mem = d.cistern.mem := by unfold leaveSafe; simp

@[simp] theorem deadline_mem (frame ticks code : Nat) (d : Dev) : (deadline frame ticks code d).cistern.mem = d.cistern.mem := by
  unfold deadline; dsimp only; (repeat' split) <;> simp

-- Machine/Counter.lean ------------------------------------------------------------------------------------------

@[simp] theorem programOne_mem (c : Nat) (p : Prog) (d : Dev) : (programOne c p d).cistern.mem = d.cistern.mem := by unfold programOne; simp

@[simp] theorem programRun_mem (p : PendProg) (d : Dev) : (programRun p d).cistern.mem = d.cistern.mem := by unfold programRun; simp

theorem clearRun_eq (first n : Nat) (d : Dev) : clearRun first n d = (List.range n).foldl (fun e i =>
    let e := setCounter (first + i) 0 e
    if sinceCycle d first (first + i) = 0 then e else bumpCounter (first + i) (sinceCycle d first (first + i)) e) d := rfl

@[simp] theorem clearRun_mem (first n : Nat) (d : Dev) : (clearRun first n d).cistern.mem = d.cistern.mem := by
  have one : ∀ (c v : Nat) (e : Dev), (if v = 0 then setCounter c 0 e else bumpCounter c v (setCounter c 0 e)).cistern.mem = e.cistern.mem := by
    intro c v e; split <;> rfl
  have all : ∀ f : Nat → Nat, ((List.range n).foldl (fun e i =>
      let e := setCounter (first + i) 0 e
      if f (first + i) = 0 then e else bumpCounter (first + i) (f (first + i)) e) d).cistern.mem = d.cistern.mem :=
    fun f => memSame_foldl _ _ _ (fun e i => one (first + i) (f (first + i)) e)
  rw [clearRun_eq]; exact all _

@[simp] theorem captureSnap_mem (boundary : Nat) (d : Dev) : (captureSnap boundary d).cistern.mem = d.cistern.mem := by
  unfold captureSnap; (repeat' split) <;> simp

theorem endSnap_wf (o : Op) {d : Dev} (h : Memory.wf d.cistern.mem = true) : Memory.wf (endSnap o d).cistern.mem = true := by
  have k : ∀ (a : Nat) (bs : List Byte) (c : Counters) (st : Nat) (x : List Byte),
      Memory.wf (endOp o st x { memStore a bs d with counters := c }).cistern.mem = true := fun a bs c st x => by
    rw [endOp_mem]; exact memStore_wf a bs h
  unfold endSnap; split
  · exact k _ _ _ _ _
  · rw [endOp_mem]; exact h

@[simp] theorem abortSnap_mem (o : Op) (d : Dev) : (abortSnap o d).cistern.mem = d.cistern.mem := by
  unfold abortSnap; (repeat' split) <;> simp

@[simp] theorem programBlock_mem (base : Nat) (on : Bool) (d : Dev) : (programBlock base on d).cistern.mem = d.cistern.mem := by rfl

@[simp] theorem setPairs_mem (base : Nat) (vs : List Nat) (d : Dev) : (setPairs base vs d).cistern.mem = d.cistern.mem := by unfold setPairs; simp

@[simp] theorem closeWindow_mem (w : Window) (d : Dev) : (closeWindow w d).cistern.mem = d.cistern.mem := by
  unfold closeWindow
  extract_lets len e
  split
  · rfl
  · rw [setPairs_mem]

-- Machine/Release.lean ------------------------------------------------------------------------------------------

@[simp] theorem setConf_mem (g : Nat) (x : ConfGroup) (d : Dev) : (setConf g x d).cistern.mem = d.cistern.mem := by rfl

@[simp] theorem setLevel_mem (g : Nat) (x : LevelGroup) (d : Dev) : (setLevel g x d).cistern.mem = d.cistern.mem := by rfl

@[simp] theorem judgeConf_mem (g : Nat) (d : Dev) : (judgeConf g d).cistern.mem = d.cistern.mem := by unfold judgeConf; simp

@[simp] theorem judgeConfsOf_mem (p : Nat) (d : Dev) : (judgeConfsOf p d).cistern.mem = d.cistern.mem := by unfold judgeConfsOf; simp

@[simp] theorem joinQueue_mem (i : Nat) (d : Dev) : (joinQueue i d).cistern.mem = d.cistern.mem := by rfl

@[simp] theorem confLeave_mem (g : Nat) (e : Nat × Nat × Nat) (d : Dev) : (confLeave g e d).cistern.mem = d.cistern.mem := by rfl

@[simp] theorem confRelease_mem (g n : Nat) (d : Dev) : (confRelease g n d).cistern.mem = d.cistern.mem := by
  induction n generalizing d with
  | zero => rfl
  | succ n ih => unfold confRelease; split
                 · rfl
                 · rw [ih]; simp

@[simp] theorem releaseDue_mem (g : Nat) (d : Dev) : (releaseDue g d).cistern.mem = d.cistern.mem := by unfold releaseDue; simp

@[simp] theorem confFlush_mem (g n : Nat) (d : Dev) : (confFlush g n d).cistern.mem = d.cistern.mem := by
  induction n generalizing d with
  | zero => rfl
  | succ n ih => unfold confFlush; split
                 · rfl
                 · rw [ih]; simp

@[simp] theorem disableConf_mem (g : Nat) (d : Dev) : (disableConf g d).cistern.mem = d.cistern.mem := by unfold disableConf; simp

@[simp] theorem confConfigureBody_mem (q : List Byte) (d : Dev) : (confConfigureBody q d).dev.cistern.mem = d.cistern.mem := by unfold confConfigureBody; simp

@[simp] theorem confMemberBody_mem (q : List Byte) (d : Dev) : (confMemberBody q d).dev.cistern.mem = d.cistern.mem := by unfold confMemberBody; simp

@[simp] theorem keepReaches_mem (g : Nat) (d : Dev) : (keepReaches g d).cistern.mem = d.cistern.mem := by rfl

@[simp] theorem keepReachesOf_mem (p : Nat) (d : Dev) : (keepReachesOf p d).cistern.mem = d.cistern.mem := by unfold keepReachesOf; simp

@[simp] theorem missLevel_mem (i : Nat) (d : Dev) : (missLevel i d).cistern.mem = d.cistern.mem := by rfl

@[simp] theorem freeLevel_mem (g : Nat) (d : Dev) : (freeLevel g d).cistern.mem = d.cistern.mem := by unfold freeLevel; simp

@[simp] theorem levelConfigureBody_mem (q : List Byte) (host : Option (List Byte)) (d : Dev) : (levelConfigureBody q host d).dev.cistern.mem = d.cistern.mem := by
  unfold levelConfigureBody; dsimp only; (repeat' split) <;> simp

-- Machine/Queue.lean ------------------------------------------------------------------------------------------

@[simp] theorem dropQueues_mem (qs : List Nat) (d : Dev) : (dropQueues qs d).cistern.mem = d.cistern.mem := by unfold dropQueues; simp

@[simp] theorem placeQueues_mem (p b n : Nat) (d : Dev) : (placeQueues p b n d).cistern.mem = d.cistern.mem := by unfold placeQueues; simp

@[simp] theorem setGates_mem (p : Nat) (d : Dev) : (setGates p d).cistern.mem = d.cistern.mem := by
  unfold setGates; dsimp only; (repeat' split) <;> simp

@[simp] theorem sampleDie_mem (die : Nat) (d : Dev) : (sampleDie die d).cistern.mem = d.cistern.mem := by unfold sampleDie; simp

@[simp] theorem leaveSamples_mem (frame : Nat) (d : Dev) : (leaveSamples frame d).cistern.mem = d.cistern.mem := by rfl

@[simp] theorem closeHistograms_mem (x : Sample) (d : Dev) : (closeHistograms x d).cistern.mem = d.cistern.mem := by unfold closeHistograms; simp

@[simp] theorem closeSample_mem (x : Sample) (d : Dev) : (closeSample x d).cistern.mem = d.cistern.mem := by unfold closeSample; simp

@[simp] theorem selectAndStart_mem (p : Nat) (d : Dev) : (selectAndStart p d).cistern.mem = d.cistern.mem := by
  unfold selectAndStart; split
  · rfl
  · split
    · rw [startCopy_mem, noteSelected_mem]
    · rfl

-- Machine/Words.lean ------------------------------------------------------------------------------------------

@[simp] theorem relink_mem (key : Nat) (d : Dev) : (relink key d).cistern.mem = d.cistern.mem := by rfl

@[simp] theorem regrow_mem (d : Dev) : (regrow d).cistern.mem = d.cistern.mem := by unfold regrow; simp

-- Machine/Lookup.lean ------------------------------------------------------------------------------------------

@[simp] theorem setGen_mem (g : Nat) (x : Gen) (d : Dev) : (setGen g x d).cistern.mem = d.cistern.mem := by unfold setGen; simp

@[simp] theorem setBasin_mem (b : Nat) (x : Basin) (d : Dev) : (setBasin b x d).cistern.mem = d.cistern.mem := by rfl

@[simp] theorem noteDrained_mem (g : Nat) (d : Dev) : (noteDrained g d).cistern.mem = d.cistern.mem := by unfold noteDrained; simp

-- Machine/Ports.lean ------------------------------------------------------------------------------------------

@[simp] theorem failAs_mem (i : Nat) (code : Option Nat) (d : Dev) : (failAs i code d).cistern.mem = d.cistern.mem := by unfold failAs; simp

@[simp] theorem failFrame_mem (i code : Nat) (d : Dev) : (failFrame i code d).cistern.mem = d.cistern.mem := by unfold failFrame; simp

@[simp] theorem setMaster_mem (m : Nat) (x : I2cMaster) (d : Dev) : (setMaster m x d).cistern.mem = d.cistern.mem := by rfl

@[simp] theorem modCage_mem (lane : Nat) (f : Cage → Cage) (d : Dev) : (modCage lane f d).cistern.mem = d.cistern.mem := by rfl

@[simp] theorem pushJob_mem (j : I2cJob) (d : Dev) : (pushJob j d).cistern.mem = d.cistern.mem := by rfl

@[simp] theorem helmWrite_mem (lane page offset : Nat) (data : List Byte) (d : Dev) : (helmWrite lane page offset data d).cistern.mem = d.cistern.mem := by rfl

@[simp] theorem askLowPower_mem (lane : Nat) (on : Bool) (d : Dev) : (askLowPower lane on d).cistern.mem = d.cistern.mem := by rfl

@[simp] theorem askDataPath_mem (lane : Nat) (on : Bool) (d : Dev) : (askDataPath lane on d).cistern.mem = d.cistern.mem := by rfl

@[simp] theorem selectApp_mem (lane : Nat) (d : Dev) : (selectApp lane d).cistern.mem = d.cistern.mem := by
  unfold selectApp; dsimp only; (repeat' split) <;> simp

@[simp] theorem followPath_mem (lane : Nat) (d : Dev) : (followPath lane d).cistern.mem = d.cistern.mem := by
  unfold followPath; (repeat' split) <;> simp

@[simp] theorem helmRead_mem (lane page offset : Nat) (own : HelmJob) (d : Dev) : (helmRead lane page offset own d).cistern.mem = d.cistern.mem := by rfl

@[simp] theorem pollCage_mem (lane : Nat) (reply : Option (Nat × Nat × List Nat)) (d : Dev) : (pollCage lane reply d).cistern.mem = d.cistern.mem := by
  unfold pollCage; (repeat' split) <;> simp

@[simp] theorem monitorCage_mem (lane : Nat) (flags : List (Nat × Nat)) (cause : Option Nat) (d : Dev) : (monitorCage lane flags cause d).cistern.mem = d.cistern.mem := by
  unfold monitorCage; (repeat' split) <;> simp

@[simp] theorem doOwn_mem (lane : Nat) (j : HelmJob) (d : Dev) : (doOwn lane j d).cistern.mem = d.cistern.mem := by
  unfold doOwn; (repeat' split) <;> simp

@[simp] theorem runJobs_mem (m n : Nat) (d : Dev) : (runJobs m n d).cistern.mem = d.cistern.mem := by
  induction n generalizing d with
  | zero => rfl
  | succ n ih => unfold runJobs; dsimp only; (repeat' split) <;> simp [ih]

@[simp] theorem startJobs_mem (m : Nat) (d : Dev) : (startJobs m d).cistern.mem = d.cistern.mem := by unfold startJobs; simp

@[simp] theorem withMaster_mem (lane : Nat) (f : Dev → Dev) (d : Dev) (h : ∀ d, (f d).cistern.mem = d.cistern.mem) : (withMaster lane f d).cistern.mem = d.cistern.mem := by
  unfold withMaster; dsimp only; split <;> simp [h]

@[simp] theorem followConfigure_mem (p : Nat) (d : Dev) : (followConfigure p d).cistern.mem = d.cistern.mem := by
  unfold followConfigure
  refine (withMaster_mem _ _ _ (fun d => ?_))
  dsimp only; (repeat' split) <;> simp

@[simp] theorem raiseReach_mem (p : Nat) (d : Dev) : (raiseReach p d).cistern.mem = d.cistern.mem := by unfold raiseReach; simp

@[simp] theorem setHeadroom_mem (d : Dev) : (setHeadroom d).cistern.mem = d.cistern.mem := by rfl

@[simp] theorem endLinkFaults_mem (p : Nat) (d : Dev) : (endLinkFaults p d).cistern.mem = d.cistern.mem := by unfold endLinkFaults; simp

@[simp] theorem clearPort_mem (p code : Nat) (d : Dev) : (clearPort p code d).cistern.mem = d.cistern.mem := by unfold clearPort; simp

@[simp] theorem abortPort_mem (p code : Nat) (d : Dev) : (abortPort p code d).cistern.mem = d.cistern.mem := by
  unfold abortPort; dsimp only; (repeat' split) <;> simp

@[simp] theorem linkDown_mem (p cause : Nat) (d : Dev) : (linkDown p cause d).cistern.mem = d.cistern.mem := by unfold linkDown; simp

@[simp] theorem disablePort_mem (p : Nat) (d : Dev) : (disablePort p d).cistern.mem = d.cistern.mem := by unfold disablePort; simp

@[simp] theorem planeChanged_mem (p : Nat) (x y : Port) (d : Dev) : (planeChanged p x y d).cistern.mem = d.cistern.mem := by unfold planeChanged; simp

@[simp] theorem recapture_mem (p : Nat) (x y : Port) (d : Dev) : (recapture p x y d).cistern.mem = d.cistern.mem := by rfl

@[simp] theorem endJob_mem (m : Nat) (ok : Bool) (data : List Byte) (d : Dev) : (endJob m ok data d).cistern.mem = d.cistern.mem := by
  unfold endJob; dsimp only; split
  · rfl
  · simp only [startJobs_mem, memSame_ite, respond_mem, memSame_reply]; simp

-- Machine/Time.lean ------------------------------------------------------------------------------------------

@[simp] theorem setTime_mem (x : Time) (d : Dev) : (setTime x d).cistern.mem = d.cistern.mem := by rfl

@[simp] theorem disableGroups_mem (d : Dev) : (disableGroups d).cistern.mem = d.cistern.mem := by unfold disableGroups; simp

@[simp] theorem scheduleStep_mem (amount : Int) (ticket : Option Nat) (d : Dev) : (scheduleStep amount ticket d).cistern.mem = d.cistern.mem := by rfl

@[simp] theorem measureTen_mem (ten : Option Int × Option Int) (d : Dev) : (measureTen ten d).cistern.mem = d.cistern.mem := by rfl

@[simp] theorem changeSource_mem (next : Option Nat) (d : Dev) : (changeSource next d).cistern.mem = d.cistern.mem := by unfold changeSource; simp

@[simp] theorem enterHoldover_mem (core : Option Bool) (d : Dev) : (enterHoldover core d).cistern.mem = d.cistern.mem := by unfold enterHoldover; simp

@[simp] theorem leaveHoldover_mem (servo : Nat) (d : Dev) : (leaveHoldover servo d).cistern.mem = d.cistern.mem := by unfold leaveHoldover; simp

@[simp] theorem enterFreerun_mem (d : Dev) : (enterFreerun d).cistern.mem = d.cistern.mem := by unfold enterFreerun; simp

@[simp] theorem setTerm_mem (n : Nat) (d : Dev) : (setTerm n d).cistern.mem = d.cistern.mem := by rfl

@[simp] theorem takeSource_mem (d : Dev) : (takeSource d).cistern.mem = d.cistern.mem := by
  unfold takeSource; (repeat' split) <;> simp

@[simp] theorem loseSource_mem (kind : Nat) (d : Dev) : (loseSource kind d).cistern.mem = d.cistern.mem := by unfold loseSource; simp

@[simp] theorem modSource_mem (i : Nat) (f : Source → Source) (d : Dev) : (modSource i f d).cistern.mem = d.cistern.mem := by rfl

@[simp] theorem applySources_mem (d : Dev) : (applySources d).cistern.mem = d.cistern.mem := by
  unfold applySources; dsimp only; (repeat' split) <;> simp

@[simp] theorem judgeLock_mem (next : Nat) (d : Dev) : (judgeLock next d).cistern.mem = d.cistern.mem := by unfold judgeLock; simp

@[simp] theorem takeBeat_mem (k : Core) (corrections : List (Nat × Int)) (d : Dev) (i : Nat) : (takeBeat k corrections d i).cistern.mem = d.cistern.mem := by unfold takeBeat; simp

@[simp] theorem resolveCore_mem (eastWrong : Bool) (d : Dev) : (resolveCore eastWrong d).cistern.mem = d.cistern.mem := by unfold resolveCore; simp

-- Machine/Copies.lean ------------------------------------------------------------------------------------------

@[simp] theorem newCopy_mem (i : Nat) (c : Copy) (d : Dev) : (newCopy i c d).2.cistern.mem = d.cistern.mem := by unfold newCopy; simp

@[simp] theorem placeOrdinary_mem (i : Nat) (a : List Nat) (rw : List Byte) (c : Copy) (d : Dev) : (placeOrdinary i a rw c d).cistern.mem = d.cistern.mem := by unfold placeOrdinary; simp

@[simp] theorem placeConf_mem (i g : Nat) (c : Copy) (d : Dev) : (placeConf i g c d).cistern.mem = d.cistern.mem := by
  unfold placeConf; dsimp only; (repeat' split) <;> simp

@[simp] theorem placeCopy_mem (i : Nat) (a : List Nat) (rw : List Byte) (c : Copy) (d : Dev) : (placeCopy i a rw c d).cistern.mem = d.cistern.mem := by
  unfold placeCopy; (repeat' split) <;> simp

@[simp] theorem enqueueTarget_mem (i : Nat) (a : List Nat) (rw : List Byte) (t : Target) (d : Dev) : (enqueueTarget i a rw t d).cistern.mem = d.cistern.mem := by
  unfold enqueueTarget; dsimp only; (repeat' split) <;> simp

@[simp] theorem enqueueFrame_mem (i : Nat) (d : Dev) : (enqueueFrame i d).cistern.mem = d.cistern.mem := by
  unfold enqueueFrame; dsimp only; (repeat' split) <;> simp

-- Machine/Entries.lean ------------------------------------------------------------------------------------------

@[simp] theorem keepFaults_mem (keep : Nat × Nat → Bool) (d : Dev) : (keepFaults keep d).cistern.mem = d.cistern.mem := by rfl

@[simp] theorem mend_mem (addr : Nat) (d : Dev) : (mend addr d).cistern.mem = d.cistern.mem := by rfl

@[simp] theorem setEm_mem (t : Nat) (es : Tbl (Option Em)) (d : Dev) : (setEm t es d).cistern.mem = d.cistern.mem := by rfl

@[simp] theorem setLearned_mem (b t : Nat) (es : Tbl (Option Em)) (d : Dev) : (setLearned b t es d).cistern.mem = d.cistern.mem := by rfl

@[simp] theorem applyEm_mem (q : List Byte) (d : Dev) : (applyEm q d).dev.cistern.mem = d.cistern.mem := by
  unfold applyEm; dsimp only; (repeat' split) <;> simp

@[simp] theorem mendLpm_mem (old : List LpmArr) (d : Dev) : (mendLpm old d).cistern.mem = d.cistern.mem := by rfl

@[simp] theorem applyLpm_mem (q : List Byte) (d : Dev) : (applyLpm q d).dev.cistern.mem = d.cistern.mem := by
  unfold applyLpm; dsimp only; (repeat' split) <;> simp

@[simp] theorem applyTcam_mem (q : List Byte) (d : Dev) : (applyTcam q d).dev.cistern.mem = d.cistern.mem := by
  unfold applyTcam; dsimp only; (repeat' split) <;> simp

@[simp] theorem applyProfile_mem (q : List Byte) (d : Dev) : (applyProfile q d).dev.cistern.mem = d.cistern.mem := by unfold applyProfile; simp

@[simp] theorem applyTableWrite_mem (q : List Byte) (d : Dev) : (applyTableWrite q d).dev.cistern.mem = d.cistern.mem := by
  unfold applyTableWrite; (repeat' split) <;> simp

@[simp] theorem writeAction_mem (q : List Byte) (k : Nat) (d : Dev) : (writeAction q k d).cistern.mem = d.cistern.mem := by unfold writeAction; simp

@[simp] theorem applyActions_mem (q : List Byte) (k : Nat) (d : Dev) : (applyActions q k d).cistern.mem = d.cistern.mem := by unfold applyActions; simp

@[simp] theorem applyMcast_mem (q host : List Byte) (d : Dev) : (applyMcast q host d).dev.cistern.mem = d.cistern.mem := by
  unfold applyMcast; dsimp only; (repeat' split) <;> simp

@[simp] theorem syncPart_mem (k : Nat) (d : Dev) : (syncPart k d).cistern.mem = d.cistern.mem := by
  unfold syncPart; (repeat' split) <;> simp

@[simp] theorem applySync_mem (k : Nat) (d : Dev) : (applySync k d).cistern.mem = d.cistern.mem := by unfold applySync; simp

@[simp] theorem loadNodes_mem (image : List Byte) (k : Nat) (d : Dev) : (loadNodes image k d).cistern.mem = d.cistern.mem := by unfold loadNodes; simp

@[simp] theorem applyGraph_mem (image : List Byte) (d : Dev) : (applyGraph image d).cistern.mem = d.cistern.mem := by unfold applyGraph; simp

-- Machine/Program.lean ------------------------------------------------------------------------------------------

@[simp] theorem startOp_mem (o : Op) (d : Dev) : (startOp o d).cistern.mem = d.cistern.mem := by unfold startOp; simp

/-- What a programmed command meets leaves the memory as it is. -/
def Ask.keeps (m : Tbl Byte) : Ask → Prop
  | .now e => e.cistern.mem = m
  | _ => True

theorem programmed_mem (opcode fn : Nat) (q host : List Byte) (ask : Ask) (beat : Nat) (d : Dev) (h : ask.keeps d.cistern.mem) :
    (programmed opcode fn q host ask beat d).dev.cistern.mem = d.cistern.mem := by
  unfold programmed; split
  · simp
  · cases ask with
    | no st body => rfl
    | now e => simp [okay]; exact h
    | op code key =>
      dsimp only; split
      · simp
      · split
        · simp
        · rename_i e; simp; exact openTicket_mem e

theorem askDefine_keeps (q : List Byte) (d : Dev) : (askDefine q d).keeps d.cistern.mem := by
  unfold askDefine; dsimp only; (repeat' split) <;> simp [Ask.keeps]
theorem askWrite_keeps (q : List Byte) (d : Dev) : (askWrite q d).keeps d.cistern.mem := by unfold askWrite; (repeat' split) <;> simp [Ask.keeps]
theorem askSwap_keeps (q : List Byte) (d : Dev) : (askSwap q d).keeps d.cistern.mem := by unfold askSwap; (repeat' split) <;> simp [Ask.keeps]
theorem askSync_keeps (q : List Byte) (d : Dev) : (askSync q d).keeps d.cistern.mem := by unfold askSync; (repeat' split) <;> simp [Ask.keeps]
theorem askLoad_keeps (q : List Byte) (h : Option (List Byte)) (d : Dev) : (askLoad q h d).keeps d.cistern.mem := by
  unfold askLoad; dsimp only; (repeat' split) <;> simp [Ask.keeps]
theorem askAction_keeps (q : List Byte) (d : Dev) : (askAction q d).keeps d.cistern.mem := by
  unfold askAction; dsimp only; (repeat' split) <;> simp [Ask.keeps]
theorem askMcast_keeps (q : List Byte) (h : Option (List Byte)) (d : Dev) : (askMcast q h d).keeps d.cistern.mem := by
  unfold askMcast; (repeat' split) <;> simp [Ask.keeps]

theorem redate_mem {sender beat : Nat} {d e : Dev} (h : redate sender beat d = some e) : e.cistern.mem = d.cistern.mem := by
  unfold redate at h; split at h
  · cases h
  · split at h <;> cases h; rfl

theorem takeRemote_mem {opcode : Nat} {ask : Ask} {q host : List Byte} {beat : Nat} {ack : Nat × Nat} {d e : Dev} (hk : ask.keeps d.cistern.mem)
    (h : takeRemote opcode ask q host beat ack d = some e) : e.cistern.mem = d.cistern.mem := by
  unfold takeRemote at h; dsimp only at h
  have done : ∀ x : Dev, (if ack.1 = 0 then tetherAck 0x24 ack.2 x else cascadeAck (upstreamPort x).toList 0x46 ack.2 0 0xFF x).cistern.mem = x.cistern.mem := by
    intro x; split <;> simp
  cases ask with
  | no st body =>
    dsimp only at h; split at h
    · split at h
      · simp only [Option.map_eq_some_iff] at h
        obtain ⟨x, hx, rfl⟩ := h
        rw [done]; exact redate_mem hx
      · cases h
    · simp only [Option.some.injEq] at h; rw [← h]; exact done _
  | now x => simp only [Option.some.injEq] at h; rw [← h, done]; exact hk
  | op code key =>
    dsimp only at h; split at h
    · cases h
    · split at h
      · simp only [Option.some.injEq] at h; rw [← h]; exact done _
      · simp only [Option.some.injEq] at h; rw [← h]; exact startOp_mem _ _

-- Machine/Parse.lean ------------------------------------------------------------------------------------------

@[simp] theorem reportApart_mem (d : Dev) : (reportApart d).cistern.mem = d.cistern.mem := by unfold reportApart; simp

-- Machine/Tables.lean ------------------------------------------------------------------------------------------

@[simp] theorem flip_mem (d : Dev) : (flip d).cistern.mem = d.cistern.mem := by unfold flip; simp

@[simp] theorem parityFault_mem (basin kind addr : Nat) (suspect : Bool) (d : Dev) : (parityFault basin kind addr suspect d).cistern.mem = d.cistern.mem := by unfold parityFault; simp

@[simp] theorem scrubHit_mem (b g i seg : Nat) (d : Dev) : (scrubHit b g i seg d).cistern.mem = d.cistern.mem := by unfold scrubHit; simp

@[simp] theorem scrubOne_mem (req : List Byte) (d : Dev) : (scrubOne req d).cistern.mem = d.cistern.mem := by unfold scrubOne; simp

@[simp] theorem askPromote_mem (t : Nat) (d : Dev) : (askPromote t d).cistern.mem = d.cistern.mem := by unfold askPromote; simp

theorem promoteNext_mem {t : Nat} {d e : Dev} (h : promoteNext t d = some e) : e.cistern.mem = d.cistern.mem := by
  unfold promoteNext at h; dsimp only at h; split at h
  · simp only [Option.map_eq_some_iff] at h; obtain ⟨b, _, rfl⟩ := h; simp
  · split at h <;> cases h; simp

@[simp] theorem promoteTable_mem (t : Nat) (d : Dev) : (promoteTable t d).cistern.mem = d.cistern.mem := by unfold promoteTable; simp

-- Machine/Learn.lean ------------------------------------------------------------------------------------------

@[simp] theorem noteFilter_mem (b t : Nat) (key : List Byte) (port ticks : Nat) (d : Dev) : (noteFilter b t key port ticks d).cistern.mem = d.cistern.mem := by rfl

@[simp] theorem makeRequest_mem (i : Nat) (d : Dev) : (makeRequest i d).cistern.mem = d.cistern.mem := by
  unfold makeRequest; dsimp only; (repeat' split) <;> simp

@[simp] theorem settle_mem (i : Nat) (d : Dev) : (settle i d).cistern.mem = d.cistern.mem := by unfold settle; simp

@[simp] theorem learnFlood_mem (r : LearnReq) (d : Dev) : (learnFlood r d).cistern.mem = d.cistern.mem := by
  unfold learnFlood
  refine memSame_foldl _ _ _ (fun d x => ?_)
  dsimp only
  (repeat' split) <;> simp

@[simp] theorem applyMove_mem (b : Nat) (r : LearnReq) (p : Nat) (e : Em) (d : Dev) : (applyMove b r p e d).cistern.mem = d.cistern.mem := by
  unfold applyMove; dsimp only; (repeat' split) <;> simp

@[simp] theorem applyRequest_mem (b : Nat) (r : LearnReq) (d : Dev) : (applyRequest b r d).cistern.mem = d.cistern.mem := by
  unfold applyRequest; dsimp only; (repeat' split) <;> simp

@[simp] theorem learnApply_mem (b t : Nat) (d : Dev) : (learnApply b t d).cistern.mem = d.cistern.mem := by
  unfold learnApply; dsimp only; (repeat' split) <;> simp

@[simp] theorem sweepOne_mem (flush : Option Nat) (t b p : Nat) (e : Em) (d : Dev) : (sweepOne flush t b p e d).cistern.mem = d.cistern.mem := by
  unfold sweepOne; (repeat' split) <;> simp

@[simp] theorem sweepRest_mem (flush : Option Nat) (t basins first : Nat) (d : Dev) : (sweepRest flush t basins first d).cistern.mem = d.cistern.mem := by
  unfold sweepRest
  refine memSame_foldl _ _ _ (fun d b => memSame_foldl _ _ _ (fun d r => ?_))
  split
  · split
    · exact sweepOne_mem _ _ _ _ _ d
    · rfl
  · rfl

@[simp] theorem endPins_mem (b : Nat) (d : Dev) : (endPins b d).cistern.mem = d.cistern.mem := by
  unfold endPins
  refine memSame_foldl _ _ _ (fun d x => ?_)
  dsimp only; split <;> simp

-- Machine/Cistern.lean ------------------------------------------------------------------------------------------

@[simp] theorem lostControl_mem (channel : Nat) (d : Dev) : (lostControl channel d).cistern.mem = d.cistern.mem := by unfold lostControl; simp

@[simp] theorem endBringup_mem (d : Dev) : (endBringup d).cistern.mem = d.cistern.mem := by
  unfold endBringup; (repeat' split) <;> simp

@[simp] theorem wordLost_mem (w : Nat) (d : Dev) : (wordLost w d).cistern.mem = d.cistern.mem := by unfold wordLost; simp

@[simp] theorem scrubWord_mem (w : Nat) (d : Dev) : (scrubWord w d).cistern.mem = d.cistern.mem := by unfold scrubWord; simp

@[simp] theorem writeBack_mem (d : Dev) : (writeBack d).cistern.mem = d.cistern.mem := by rfl

@[simp] theorem scrubGroups_mem (groups : Nat) (d : Dev) : (scrubGroups groups d).cistern.mem = d.cistern.mem := by
  unfold scrubGroups; dsimp only; (repeat' split) <;> simp

@[simp] theorem flipBits_mem (flips : List (Nat × Nat)) (d : Dev) : (flipBits flips d).cistern.mem = d.cistern.mem := by rfl

-- Machine/Ledger.lean ------------------------------------------------------------------------------------------

@[simp] theorem setLedger_mem (x : Ledger) (d : Dev) : (setLedger x d).cistern.mem = d.cistern.mem := by rfl

@[simp] theorem closeBlock_mem (flags : Nat) (d : Dev) : (closeBlock flags d).cistern.mem = d.cistern.mem := by rfl

@[simp] theorem closeIfDue_mem (d : Dev) : (closeIfDue d).cistern.mem = d.cistern.mem := by unfold closeIfDue; simp

theorem placeRecord_eq (bs : List Byte) (d : Dev) : placeRecord bs d = closeIfDue (memStore (recordAddr d d.ledger.nextRecord) bs
    (setLedger { d.ledger with nextRecord := d.ledger.nextRecord + 1, block := d.ledger.block.take bs } d)) := rfl
theorem placeRecord_wf (bs : List Byte) {d : Dev} (h : Memory.wf d.cistern.mem = true) : Memory.wf (placeRecord bs d).cistern.mem = true := by
  have k : ∀ (a : Nat) (l : Ledger), Memory.wf (closeIfDue (memStore a bs (setLedger l d))).cistern.mem = true :=
    fun a l => by rw [closeIfDue_mem]; exact memStore_wf _ _ h
  rw [placeRecord_eq]; exact k _ _

theorem placeGap_wf (cause : Nat) (x : Lost) {d : Dev} (h : Memory.wf d.cistern.mem = true) : Memory.wf (placeGap cause x d).cistern.mem = true :=
  placeRecord_wf _ (by simpa using h)

theorem writeRecord_wf {d : Dev} (h : Memory.wf d.cistern.mem = true) : Memory.wf (writeRecord d).cistern.mem = true := by
  unfold writeRecord; dsimp only
  split
  · exact h
  split
  · exact placeGap_wf _ _ h
  split
  · exact placeGap_wf _ _ h
  split
  · exact placeGap_wf _ _ h
  split
  · exact h
  split
  · exact placeRecord_wf _ h
  · rw [count_mem]; exact h

@[simp] theorem spoilRecord_mem (n : Nat) (d : Dev) : (spoilRecord n d).cistern.mem = d.cistern.mem := by rfl

-- Machine/Mirror.lean ------------------------------------------------------------------------------------------

@[simp] theorem publish_mem (g : Nat) (digest : List Byte) (d : Dev) : (publish g digest d).cistern.mem = d.cistern.mem := by unfold publish; simp

@[simp] theorem kept_mem (r : Reply) (d : Dev) (h : r.dev.cistern.mem = d.cistern.mem) : (kept r d).cistern.mem = d.cistern.mem := by
  unfold kept; split
  · exact h
  · rfl

@[simp] theorem mirroredOther_mem (opcode : Nat) (q : List Byte) (d : Dev) : (mirroredOther opcode q d).cistern.mem = d.cistern.mem := by
  unfold mirroredOther; (repeat' split) <;> simp

theorem askRemote_keeps {opcode : Nat} {b q host : List Byte} {ask : Ask} {d : Dev} (h : askRemote opcode b d = some (ask, q, host)) :
    ask.keeps d.cistern.mem := by
  unfold askRemote at h
  split at h
  · cases h; exact askLoad_keeps _ _ _
  · cases h; exact askDefine_keeps _ _
  · cases h; exact askWrite_keeps _ _
  · cases h; exact askSwap_keeps _ _
  · cases h; exact askSync_keeps _ _
  · cases h; exact askAction_keeps _ _
  · cases h; exact askMcast_keeps _ _ _
  · cases h

theorem applyMirror_mem {seq : Nat} {body : List Byte} {d e : Dev} (h : applyMirror seq body d = some e) : e.cistern.mem = d.cistern.mem := by
  unfold applyMirror at h; dsimp only at h; split at h
  · cases h; simp
  · split at h
    · rename_i hr; exact (takeRemote_mem (askRemote_keeps hr) h).trans rfl
    · cases h; simp

@[simp] theorem drainMirrors_mem (n : Nat) (d : Dev) : (drainMirrors n d).cistern.mem = d.cistern.mem := by
  induction n generalizing d with
  | zero => rfl
  | succ n ih =>
    unfold drainMirrors; split
    · rfl
    · rename_i seq body rest _
      cases h : applyMirror seq body d with
      | none => rfl
      | some e => have k : e.cistern.mem = d.cistern.mem := applyMirror_mem h; exact (ih _).trans k

@[simp] theorem applyMirrors_mem (d : Dev) : (applyMirrors d).cistern.mem = d.cistern.mem := by unfold applyMirrors; simp

@[simp] theorem takeMirror_mem (seq : Nat) (body : List Byte) (d : Dev) : (takeMirror seq body d).cistern.mem = d.cistern.mem := by unfold takeMirror; simp

-- Machine/Compare.lean ------------------------------------------------------------------------------------------

@[simp] theorem noteRecent_mem (i : Nat) (d : Dev) : (noteRecent i d).cistern.mem = d.cistern.mem := by
  unfold noteRecent; dsimp only; (repeat' split) <;> simp

@[simp] theorem divergeStream_mem (stream seq : Nat) (d : Dev) : (divergeStream stream seq d).cistern.mem = d.cistern.mem := by unfold divergeStream; simp

@[simp] theorem compareReceipt_mem (r : Receipt) (d : Dev) : (compareReceipt r d).cistern.mem = d.cistern.mem := by
  unfold compareReceipt; (repeat' split) <;> simp

@[simp] theorem meetReceipt_mem (i : Nat) (d : Dev) : (meetReceipt i d).cistern.mem = d.cistern.mem := by
  unfold meetReceipt; dsimp only; (repeat' split) <;> simp

@[simp] theorem raiseDispute_mem (stream seq own theirs row : Nat) (d : Dev) : (raiseDispute stream seq own theirs row d).cistern.mem = d.cistern.mem := by unfold raiseDispute; simp

@[simp] theorem unresolvedDispute_mem (stream seq own theirs : Nat) (d : Dev) : (unresolvedDispute stream seq own theirs d).cistern.mem = d.cistern.mem := by unfold unresolvedDispute; simp

-- Machine/Settle.lean ------------------------------------------------------------------------------------------

@[simp] theorem fenceSelf_mem (d : Dev) : (fenceSelf d).cistern.mem = d.cistern.mem := by unfold fenceSelf; simp

@[simp] theorem matchDispute_mem (stream seq : Nat) (d : Dev) : (matchDispute stream seq d).cistern.mem = d.cistern.mem := by
  unfold matchDispute; (repeat' split) <;> simp

@[simp] theorem settleDispute_mem (stream seq own theirs : Nat) (d : Dev) : (settleDispute stream seq own theirs d).cistern.mem = d.cistern.mem := by
  unfold settleDispute; dsimp only; (repeat' split) <;> simp

@[simp] theorem reEvaluate_mem (req : List Byte) (d : Dev) : (reEvaluate req d).cistern.mem = d.cistern.mem := by unfold reEvaluate; simp

@[simp] theorem sendSnapshot_mem (d : Dev) : (sendSnapshot d).cistern.mem = d.cistern.mem := by unfold sendSnapshot; simp

@[simp] theorem takeConf_mem (g : Nat) (y : ConfGroup) (d : Dev) : (takeConf g y d).cistern.mem = d.cistern.mem := by unfold takeConf; simp

@[simp] theorem takeLevel_mem (g : Nat) (y : LevelGroup) (d : Dev) : (takeLevel g y d).cistern.mem = d.cistern.mem := by unfold takeLevel; simp

@[simp] theorem writeTables_mem (x : Snapshot) (d : Dev) : (writeTables x d).cistern.mem = d.cistern.mem := by unfold writeTables; simp

@[simp] theorem writeSnapshot_mem (x : Snapshot) (d : Dev) : (writeSnapshot x d).cistern.mem = d.cistern.mem := by unfold writeSnapshot; simp

-- Machine/Tether.lean ------------------------------------------------------------------------------------------

@[simp] theorem setPair_mem (x : Pair) (d : Dev) : (setPair x d).cistern.mem = d.cistern.mem := by rfl

@[simp] theorem loseTether_mem (d : Dev) : (loseTether d).cistern.mem = d.cistern.mem := by unfold loseTether; simp

@[simp] theorem sendHello_mem (d : Dev) : (sendHello d).cistern.mem = d.cistern.mem := by unfold sendHello; simp

@[simp] theorem endPlanned_mem (status : Nat) (d : Dev) : (endPlanned status d).cistern.mem = d.cistern.mem := by
  unfold endPlanned; (repeat' split) <;> simp

@[simp] theorem healStreams_mem (d : Dev) : (healStreams d).cistern.mem = d.cistern.mem := by rfl

@[simp] theorem noteHealing_mem (d : Dev) : (noteHealing d).cistern.mem = d.cistern.mem := by rfl

@[simp] theorem compareRoles_mem (d : Dev) : (compareRoles d).cistern.mem = d.cistern.mem := by unfold compareRoles; simp

@[simp] theorem compareTimes_mem (sent echo bound : Nat) (d : Dev) : (compareTimes sent echo bound d).cistern.mem = d.cistern.mem := by unfold compareTimes; simp

@[simp] theorem askReport_mem (at_ n : Nat) (d : Dev) : (askReport at_ n d).cistern.mem = d.cistern.mem := by rfl

@[simp] theorem askPartial_mem (d : Dev) : (askPartial d).cistern.mem = d.cistern.mem := by unfold askPartial; simp

@[simp] theorem sendReport_mem (r : Report) (d : Dev) : (sendReport r d).cistern.mem = d.cistern.mem := by unfold sendReport; simp

@[simp] theorem newReport_mem (final planned : Bool) (d : Dev) : (newReport final planned d).cistern.mem = d.cistern.mem := by unfold newReport; simp

@[simp] theorem finishPlanned_mem (d : Dev) : (finishPlanned d).cistern.mem = d.cistern.mem := by unfold finishPlanned; simp

@[simp] theorem takeLastSent_mem (key seq : Nat) (d : Dev) : (takeLastSent key seq d).cistern.mem = d.cistern.mem := by unfold takeLastSent; simp

@[simp] theorem noteReport_mem (n seg : Nat) (last : Bool) (d : Dev) : (noteReport n seg last d).cistern.mem = d.cistern.mem := by unfold noteReport; simp

@[simp] theorem forgetRecent_mem (stream : Nat) (d : Dev) : (forgetRecent stream d).cistern.mem = d.cistern.mem := by rfl

@[simp] theorem alignStream_mem (r : Receipt) (d : Dev) : (alignStream r d).cistern.mem = d.cistern.mem := by
  unfold alignStream; (repeat' split) <;> simp

@[simp] theorem takeReceipt_mem (r : Receipt) (d : Dev) : (takeReceipt r d).cistern.mem = d.cistern.mem := by
  unfold takeReceipt; dsimp only; (repeat' split) <;> simp

@[simp] theorem disputesLost_mem (d : Dev) : (disputesLost d).cistern.mem = d.cistern.mem := by unfold disputesLost; simp

@[simp] theorem startAlign_mem (scope : Nat) (d : Dev) : (startAlign scope d).cistern.mem = d.cistern.mem := by rfl

@[simp] theorem beginResync_mem (scope : Nat) (ticket : Option Nat) (d : Dev) : (beginResync scope ticket d).cistern.mem = d.cistern.mem := by unfold beginResync; simp

@[simp] theorem startPlanned_mem (ticket : Option Nat) (d : Dev) : (startPlanned ticket d).cistern.mem = d.cistern.mem := by unfold startPlanned; simp

@[simp] theorem takeAck_mem (subtype seq : Nat) (d : Dev) : (takeAck subtype seq d).cistern.mem = d.cistern.mem := by
  unfold takeAck
  refine (memSame_foldl _ _ _ (fun d x => ?_)).trans rfl
  (repeat' split) <;> simp

theorem takeControl_mem {what arg : Nat} {d e : Dev} (h : takeControl what arg d = some e) : e.cistern.mem = d.cistern.mem := by
  unfold takeControl at h
  repeat' split at h
  all_goals first | cases h; done | (cases h; (repeat' split) <;> simp)

@[simp] theorem resend_mem (u : Unacked) (d : Dev) : (resend u d).cistern.mem = d.cistern.mem := by unfold resend; simp

-- Machine/Pair.lean ------------------------------------------------------------------------------------------

@[simp] theorem changeMode_mem (m : Nat) (d : Dev) : (changeMode m d).cistern.mem = d.cistern.mem := by unfold changeMode; simp

-- Machine/Steward.lean ------------------------------------------------------------------------------------------

@[simp] theorem setSteward_mem (x : Steward) (d : Dev) : (setSteward x d).cistern.mem = d.cistern.mem := by rfl

@[simp] theorem modOp_mem (id : Nat) (f : Op → Op) (d : Dev) : (modOp id f d).cistern.mem = d.cistern.mem := by rfl

@[simp] theorem endWrite_mem (o : Op) (status moves place : Nat) (d : Dev) : (endWrite o status moves place d).cistern.mem = d.cistern.mem := by unfold endWrite; simp

@[simp] theorem endPlain_mem (o : Op) (status : Nat) (d : Dev) : (endPlain o status d).cistern.mem = d.cistern.mem := by unfold endPlain; simp

@[simp] theorem markIncomplete_mem (d : Dev) : (markIncomplete d).cistern.mem = d.cistern.mem := by unfold markIncomplete; simp

@[simp] theorem snapshotStopped_mem (d : Dev) : (snapshotStopped d).cistern.mem = d.cistern.mem := by rfl

@[simp] theorem undoInsert_mem (o : Op) (d : Dev) : (undoInsert o d).cistern.mem = d.cistern.mem := by
  unfold undoInsert; (repeat' split) <;> simp

@[simp] theorem endFault_mem (o : Op) (d : Dev) : (endFault o d).cistern.mem = d.cistern.mem := by
  unfold endFault; (repeat' split) <;> simp

@[simp] theorem endStopped_mem (o : Op) (d : Dev) : (endStopped o d).cistern.mem = d.cistern.mem := by
  unfold endStopped; (repeat' split) <;> simp

@[simp] theorem removeOp_mem (o : Op) (d : Dev) : (removeOp o d).cistern.mem = d.cistern.mem := by
  unfold removeOp; (repeat' split) <;> simp

@[simp] theorem loadPatch_mem (b : List Byte) (d : Dev) : (loadPatch b d).cistern.mem = d.cistern.mem := by unfold loadPatch; simp

@[simp] theorem replaySlot_mem (s k : Nat) (d : Dev) : (replaySlot s k d).cistern.mem = d.cistern.mem := by
  unfold replaySlot; split
  · rfl
  · refine memSame_foldl _ _ _ (fun d z => ?_)
    dsimp only; (repeat' split) <;> simp

@[simp] theorem replay_mem (n : Nat) (d : Dev) : (replay n d).cistern.mem = d.cistern.mem := by unfold replay; simp

@[simp] theorem rehashBlock_mem (d : Dev) : (rehashBlock d).cistern.mem = d.cistern.mem := by unfold rehashBlock; simp

theorem applyWork_wf (o : Op) {d : Dev} (h : Memory.wf d.cistern.mem = true) : Memory.wf (applyWork o d).cistern.mem = true := by
  unfold applyWork
  split
  all_goals first | exact endSnap_wf o h | (simp [h]; done) | (dsimp only; (repeat' split) <;> simp [h])

theorem applyOp_wf (o : Op) {d : Dev} (h : Memory.wf d.cistern.mem = true) : Memory.wf (applyOp o d).cistern.mem = true := by
  unfold applyOp
  rw [memSame_foldl _ _ _ (fun d t => askPromote_mem t d)]
  exact applyWork_wf o h

@[simp] theorem startWork_mem (o : Op) (d : Dev) : (startWork o d).cistern.mem = d.cistern.mem := by
  unfold startWork; (repeat' split) <;> simp

theorem yieldFor_mem {o : Op} {d e : Dev} (h : yieldFor o d = some e) : e.cistern.mem = d.cistern.mem := by
  unfold yieldFor at h
  repeat' split at h
  all_goals first | cases h; done | (cases h; simp)

@[simp] theorem enterRoutine_mem (o : Op) (d : Dev) : (enterRoutine o d).cistern.mem = d.cistern.mem := by rfl

@[simp] theorem planInsert_mem (o : Op) (d : Dev) : (planInsert o d).cistern.mem = d.cistern.mem := by
  unfold planInsert; dsimp only; (repeat' split) <;> simp

theorem unitOfWork_mem {o : Op} {d e : Dev} (h : unitOfWork o d = some e) : e.cistern.mem = d.cistern.mem := by
  unfold unitOfWork at h; dsimp only at h
  split at h
  · split at h
    · simp only [Option.some.injEq] at h; rw [← h]; simp
    · split at h
      · simp only [Option.map_eq_some_iff] at h; obtain ⟨x, hx, rfl⟩ := h; rw [modOp_mem]; exact promoteNext_mem hx
      · cases h
  all_goals first
    | (split at h
       · simp only [Option.some.injEq] at h; rw [← h]; simp
       · cases h)
    | (simp only [Option.map_eq_some_iff] at h; obtain ⟨x, hx, rfl⟩ := h; simp)
    | cases h

@[simp] theorem stepWork_mem (d : Dev) : (stepWork d).cistern.mem = d.cistern.mem := by
  unfold stepWork; split
  · rename_i o _
    split
    · cases h : unitOfWork o d with
      | none => rfl
      | some e => exact unitOfWork_mem h
    · rfl
  · rfl

@[simp] theorem takeAbort_mem (d : Dev) : (takeAbort d).cistern.mem = d.cistern.mem := by
  unfold takeAbort; (repeat' split) <;> simp

@[simp] theorem safePoint_mem (d : Dev) : (safePoint d).cistern.mem = d.cistern.mem := by unfold safePoint; simp

@[simp] theorem pollOverdue_mem (o : Op) (d : Dev) : (pollOverdue o d).cistern.mem = d.cistern.mem := by unfold pollOverdue; simp

@[simp] theorem abortOp_mem (o : Op) (d : Dev) : (abortOp o d).cistern.mem = d.cistern.mem := by unfold abortOp; simp

-- Machine/Micro.lean ------------------------------------------------------------------------------------------

@[simp] theorem setMreg_mem (n : BitVec 6) (v : Word64) (d : Dev) : (setMreg n v d).cistern.mem = d.cistern.mem := by unfold setMreg; simp

@[simp] theorem setFlags_mem (x : Word64) (d : Dev) : (setFlags x d).cistern.mem = d.cistern.mem := by rfl

@[simp] theorem setPc_mem (n : Nat) (d : Dev) : (setPc n d).cistern.mem = d.cistern.mem := by rfl

@[simp] theorem microFault_mem (o : Op) (d : Dev) : (microFault o d).cistern.mem = d.cistern.mem := by unfold microFault; simp

@[simp] theorem waitAt_mem (w : Nat × Nat × Nat) (d : Dev) : (waitAt w d).cistern.mem = d.cistern.mem := by unfold waitAt; simp

@[simp] theorem setMregs_mem (a : BitVec 6) (vs : List Word64) (d : Dev) : (setMregs a vs d).cistern.mem = d.cistern.mem := by unfold setMregs; simp

@[simp] theorem dataFault_mem (o : Op) (d : Dev) : (dataFault o d).cistern.mem = d.cistern.mem := by unfold dataFault; simp

-- Machine/Cascade.lean ------------------------------------------------------------------------------------------

@[simp] theorem setCascade_mem (x : Cascade) (d : Dev) : (setCascade x d).cistern.mem = d.cistern.mem := by rfl

@[simp] theorem misdirect_mem (d : Dev) : (misdirect d).cistern.mem = d.cistern.mem := by rfl

@[simp] theorem modMember_mem (num unit : Nat) (f : Member → Member) (d : Dev) : (modMember num unit f d).cistern.mem = d.cistern.mem := by rfl

@[simp] theorem takeMsg_mem (port : Nat) (m : CMsg) (send : Nat → Dev → Dev) (f : Dev → Dev) (d : Dev) (h1 : ∀ p d, (send p d).cistern.mem = d.cistern.mem)
    (h2 : ∀ d, (f d).cistern.mem = d.cistern.mem) : (takeMsg port m send f d).cistern.mem = d.cistern.mem := by
  unfold takeMsg; (repeat' split) <;> simp [h1, h2]

@[simp] theorem relayMsg_mem (m : CMsg) (port : Nat) (d : Dev) : (relayMsg m port d).cistern.mem = d.cistern.mem := by rfl

@[simp] theorem takeStep_mem (amount : Int) (beat : Nat) (d : Dev) : (takeStep amount beat d).cistern.mem = d.cistern.mem := by unfold takeStep; simp

@[simp] theorem freshNonce_mem (d : Dev) : (freshNonce d).2.cistern.mem = d.cistern.mem := by rfl

@[simp] theorem admitUnit_mem (port num : Nat) (b : List Byte) (d : Dev) : (admitUnit port num b d).cistern.mem = d.cistern.mem := by unfold admitUnit; simp

@[simp] theorem judgeJoin_mem (port : Nat) (m : CMsg) (certOk signOk : Bool) (d : Dev) : (judgeJoin port m certOk signOk d).cistern.mem = d.cistern.mem := by
  unfold judgeJoin; dsimp only; (repeat' split) <;> simp

@[simp] theorem relayAnswer_mem (serial : List Byte) (member : Nat) (m : CMsg) (d : Dev) : (relayAnswer serial member m d).cistern.mem = d.cistern.mem := by
  unfold relayAnswer; (repeat' split) <;> simp

@[simp] theorem dropMembers_mem (which : Member → Bool) (how : Nat) (d : Dev) : (dropMembers which how d).cistern.mem = d.cistern.mem := by unfold dropMembers; simp

@[simp] theorem expel_mem (which : Member → Bool) (d : Dev) : (expel which d).cistern.mem = d.cistern.mem := by unfold expel; simp

@[simp] theorem endMembership_mem (d : Dev) : (endMembership d).cistern.mem = d.cistern.mem := by rfl

@[simp] theorem pushTables_mem (m : Member) (d : Dev) : (pushTables m d).cistern.mem = d.cistern.mem := by rfl

@[simp] theorem ackPush_mem (seq : Nat) (d : Dev) : (ackPush seq d).cistern.mem = d.cistern.mem := by unfold ackPush; simp

@[simp] theorem lateSwap_mem (beat : Nat) (d : Dev) : (lateSwap beat d).cistern.mem = d.cistern.mem := by
  unfold lateSwap; dsimp only; (repeat' split) <;> simp

theorem applyPush_mem {seq : Nat} {body : List Byte} {d e : Dev} (h : applyPush seq body d = some e) : e.cistern.mem = d.cistern.mem := by
  unfold applyPush at h; dsimp only at h; split at h
  · cases h; simp
  · split at h
    · cases h; simp
    · rename_i hr
      simp only [Option.map_eq_some_iff] at h
      obtain ⟨x, hx, rfl⟩ := h
      have : x.cistern.mem = d.cistern.mem := (takeRemote_mem (askRemote_keeps hr) hx).trans rfl
      split <;> simp [this]

@[simp] theorem resendAll_mem (subtype : Nat) (send : Unacked → Dev → Dev) (d : Dev) (h : ∀ u d, (send u d).cistern.mem = d.cistern.mem) :
    (resendAll subtype send d).cistern.mem = d.cistern.mem := by
  unfold resendAll; simp [h]

@[simp] theorem inStep_mem (key : Nat) (d : Dev) : (inStep key d).cistern.mem = d.cistern.mem := by unfold inStep; simp

@[simp] theorem hearUnits_mem (heard : List (Nat × Nat × Bool)) (d : Dev) : (hearUnits heard d).cistern.mem = d.cistern.mem := by unfold hearUnits; simp

-- Machine/Arrive.lean ------------------------------------------------------------------------------------------

@[simp] theorem newFrame_mem (f : Frame) (d : Dev) : (newFrame f d).2.cistern.mem = d.cistern.mem := by rfl

@[simp] theorem noteWork_mem (u : Nat) (d : Dev) : (noteWork u d).cistern.mem = d.cistern.mem := by rfl

@[simp] theorem withFailing_mem (d : Dev) (basin : Nat) (parity : List Nat) : (withFailing d basin parity).cistern.mem = d.cistern.mem := by rfl

-- Machine/Power.lean ------------------------------------------------------------------------------------------

@[simp] theorem setPower_mem (x : Power) (d : Dev) : (setPower x d).cistern.mem = d.cistern.mem := by rfl

@[simp] theorem askPatch_mem (image : Option (List Byte)) (d : Dev) : (askPatch image d).cistern.mem = d.cistern.mem := by
  unfold askPatch; (repeat' split) <;> simp

theorem coldDev_wf (d : Dev) : Memory.wf (coldDev d).cistern.mem = true := rfl

theorem releaseReset_wf (rolePref bifurcated : Bool) (patch : Option (List Byte)) (d : Dev) :
    Memory.wf (releaseReset rolePref bifurcated patch d).cistern.mem = true := by
  unfold releaseReset; simp [coldDev_wf]

@[simp] theorem freezeFinal_mem (d : Dev) : (freezeFinal d).cistern.mem = d.cistern.mem := by unfold freezeFinal; simp

@[simp] theorem recordEnded_mem (d : Dev) : (recordEnded d).cistern.mem = d.cistern.mem := by rfl

@[simp] theorem bootReady_mem (bank release : Nat) (d : Dev) : (bootReady bank release d).cistern.mem = d.cistern.mem := by
  unfold bootReady; dsimp only; split <;> simp

@[simp] theorem takeReading_mem (i : Nat) (r : Option Nat) (d : Dev) : (takeReading i r d).cistern.mem = d.cistern.mem := by
  unfold takeReading; dsimp only; (repeat' split) <;> simp

@[simp] theorem thermalTrip_mem (i : Nat) (d : Dev) : (thermalTrip i d).cistern.mem = d.cistern.mem := by unfold thermalTrip; simp

@[simp] theorem forcedYield_mem (guarded : Bool) (d : Dev) : (forcedYield guarded d).cistern.mem = d.cistern.mem := by unfold forcedYield; simp

@[simp] theorem startReset_mem (kind index fn : Nat) (guarded : Bool) (d : Dev) : (startReset kind index fn guarded d).dev.cistern.mem = d.cistern.mem := by unfold startReset; simp

@[simp] theorem endResets_mem (kind index : Nat) (d : Dev) : (endResets kind index d).cistern.mem = d.cistern.mem := by unfold endResets; simp

@[simp] theorem islandBack_mem (i : Nat) (d : Dev) : (islandBack i d).cistern.mem = d.cistern.mem := by rfl

@[simp] theorem loseLearned_mem (b : Nat) (d : Dev) : (loseLearned b d).cistern.mem = d.cistern.mem := by rfl

@[simp] theorem loseAllLearned_mem (d : Dev) : (loseAllLearned d).cistern.mem = d.cistern.mem := by
  unfold loseAllLearned; exact memSame_foldl _ _ _ (fun d b => rfl)

@[simp] theorem loseTables_mem (b : Nat) (d : Dev) : (loseTables b d).cistern.mem = d.cistern.mem := by rfl

theorem placeQueued_wf (n : Nat) {d : Dev} (h : Memory.wf d.cistern.mem = true) : Memory.wf (placeQueued n d).cistern.mem = true := by
  induction n generalizing d with
  | zero => exact h
  | succ n ih => exact ih (writeRecord_wf h)

theorem warmDev_wf (patch : Option (List Byte)) {d : Dev} (h : Memory.wf d.cistern.mem = true) : Memory.wf (warmDev patch d).cistern.mem = true := by
  have h2 : Memory.wf (warmCistern d).mem = true := by
    unfold warmCistern; dsimp only; first | exact h | exact filter_wf 0 _ h | (split <;> first | exact h | exact filter_wf 0 _ h)
  unfold warmDev; dsimp only
  split <;> simp [h2]

theorem foldl_wf {β : Type} (f : Dev → β → Dev) (h : ∀ d x, Memory.wf d.cistern.mem = true → Memory.wf (f d x).cistern.mem = true)
    (l : List β) {d : Dev} (hd : Memory.wf d.cistern.mem = true) : Memory.wf (l.foldl f d).cistern.mem = true := by
  induction l generalizing d with
  | nil => exact hd
  | cons x t ih => exact ih (h d x hd)

theorem finishRetain_wf (d : Dev) (r : Retain) (h : Memory.wf d.cistern.mem = true) : Memory.wf (finishRetain d r).cistern.mem = true := by
  rw [finishRetain]
  by_cases hc : ((retainChannels d r).any fun c => (chanOf d c).failed) = true
  · rw [if_pos hc]; exact h
  · rw [if_neg hc]; exact storeSpans_wf _ _ h

theorem finishRetains_wf {d : Dev} (h : Memory.wf d.cistern.mem = true) : Memory.wf (finishRetains d).cistern.mem = true :=
  foldl_wf finishRetain finishRetain_wf _ h

@[simp] theorem resetVectors_mem (d : Dev) : (resetVectors d).cistern.mem = d.cistern.mem := by unfold resetVectors; simp

@[simp] theorem readOscillators_mem (c : Nat) (d : Dev) : (readOscillators c d).cistern.mem = d.cistern.mem := by rfl

@[simp] theorem goStep_mem (u step : Nat) (d : Dev) : (goStep u step d).cistern.mem = d.cistern.mem := by unfold goStep; simp

-- Machine/Weir.lean ------------------------------------------------------------------------------------------

@[simp] theorem loadNow_mem (d : Dev) : (loadNow d).cistern.mem = d.cistern.mem := by rfl

@[simp] theorem chargeLoad_mem (bytes : Nat) (d : Dev) : (chargeLoad bytes d).cistern.mem = d.cistern.mem := by rfl

@[simp] theorem writeHold_mem (i stream seq : Nat) (d : Dev) : (writeHold i stream seq d).cistern.mem = d.cistern.mem := by
  have h : ∀ (e : Dev) (g : Guard), ({ e with guard := g } : Dev).cistern.mem = e.cistern.mem := fun _ _ => rfl
  unfold writeHold
  rw [freeHolds_mem, h]
  rfl

@[simp] theorem keepFrame_mem (i stream seq : Nat) (fromCut storeErr : Bool) (d : Dev) : (keepFrame i stream seq fromCut storeErr d).2.cistern.mem = d.cistern.mem := by
  unfold keepFrame; dsimp only; (repeat' split) <;> simp

@[simp] theorem weirOutcome_mem (i stream seq : Nat) (st : Stream) (storeErr : Bool) (d : Dev) : (weirOutcome i stream seq st storeErr d).2.cistern.mem = d.cistern.mem := by
  unfold weirOutcome; dsimp only; (repeat' split) <;> simp

@[simp] theorem weir_mem (i : Nat) (storeErr : Bool) (d : Dev) : (weir i storeErr d).cistern.mem = d.cistern.mem := by
  unfold weir; dsimp only; split
  · rfl
  · split
    · rfl
    · split <;> split <;> (try split) <;> simp

-- Machine/Confirm.lean ------------------------------------------------------------------------------------------

@[simp] theorem addPunt_mem (reason : Nat) (bytes : List Byte) (d : Dev) : (addPunt reason bytes d).cistern.mem = d.cistern.mem := by
  unfold addPunt; (repeat' split) <;> simp

@[simp] theorem puntFrame_mem (i reason : Nat) (d : Dev) : (puntFrame i reason d).cistern.mem = d.cistern.mem := by unfold puntFrame; simp

@[simp] theorem helmHears_mem (f : Frame) (d : Dev) : (helmHears f d).cistern.mem = d.cistern.mem := by
  unfold helmHears; (repeat' split) <;> simp

@[simp] theorem puntToHelm_mem (f : Frame) (d : Dev) : (puntToHelm f d).cistern.mem = d.cistern.mem := by unfold puntToHelm; simp

@[simp] theorem mirrorTo_mem (i : Nat) (x : Session) (out : List Byte) (d : Dev) : (mirrorTo i x out d).cistern.mem = d.cistern.mem := by
  unfold mirrorTo; dsimp only; (repeat' split) <;> simp

@[simp] theorem mirrorFrame_mem (i : Nat) (d : Dev) : (mirrorFrame i d).cistern.mem = d.cistern.mem := by unfold mirrorFrame; simp

@[simp] theorem countNote_mem (n : Nat × Nat) (d : Dev) : (countNote n d).cistern.mem = d.cistern.mem := by unfold countNote; simp

@[simp] theorem chargePolicer_mem (f : Frame) (d : Dev) : (chargePolicer f d).cistern.mem = d.cistern.mem := by
  unfold chargePolicer; (repeat' split) <;> simp

@[simp] theorem countCommit_mem (i : Nat) (d : Dev) : (countCommit i d).cistern.mem = d.cistern.mem := by
  unfold countCommit; dsimp only; (repeat' split) <;> simp

@[simp] theorem digestFrame_mem (i : Nat) (d : Dev) : (digestFrame i d).cistern.mem = d.cistern.mem := by unfold digestFrame; simp

@[simp] theorem setDue_mem (i : Nat) (d : Dev) : (setDue i d).cistern.mem = d.cistern.mem := by
  unfold setDue
  refine (memSame_foldl _ _ _ (fun d x => ?_)).trans rfl
  (repeat' split) <;> simp

@[simp] theorem guardCopy_mem (st : Stream) (i : Nat) (d : Dev) : (guardCopy st i d).cistern.mem = d.cistern.mem := by
  unfold guardCopy; dsimp only; (repeat' split) <;> simp

@[simp] theorem joinStream_mem (i : Nat) (d : Dev) : (joinStream i d).cistern.mem = d.cistern.mem := by
  unfold joinStream; dsimp only; (repeat' split) <;> simp

@[simp] theorem puntCommit_mem (i : Nat) (d : Dev) : (puntCommit i d).cistern.mem = d.cistern.mem := by
  unfold puntCommit; dsimp only; (repeat' split) <;> simp

@[simp] theorem commitFrame_mem (i : Nat) (storeErr : Bool) (d : Dev) : (commitFrame i storeErr d).cistern.mem = d.cistern.mem := by unfold commitFrame; simp

@[simp] theorem turnMalformed_mem (i : Nat) (at_ : Nat × Nat) (d : Dev) : (turnMalformed i at_ d).cistern.mem = d.cistern.mem := by unfold turnMalformed; simp

@[simp] theorem completeInject_mem (f : Frame) (reread : Option (List Byte)) (d : Dev) : (completeInject f reread d).cistern.mem = d.cistern.mem := by
  unfold completeInject; (repeat' split) <;> simp

@[simp] theorem confirmFrame_mem (i : Nat) (cellErr storeErr : Bool) (d : Dev) : (confirmFrame i cellErr storeErr d).cistern.mem = d.cistern.mem := by
  unfold confirmFrame; dsimp only; (repeat' split) <;> simp

-- Machine/Verdict.lean ------------------------------------------------------------------------------------------

@[simp] theorem verdictBad_mem (i : Nat) (d : Dev) : (verdictBad i d).cistern.mem = d.cistern.mem := by
  unfold verdictBad; dsimp only; (repeat' split) <;> simp

@[simp] theorem verdictGood_mem (i : Nat) (d : Dev) : (verdictGood i d).cistern.mem = d.cistern.mem := by
  unfold verdictGood; dsimp only; (repeat' split) <;> simp

@[simp] theorem replaceCopy_mem (c : Copy) (hs : HoldSlot) (d : Dev) : (replaceCopy c hs d).cistern.mem = d.cistern.mem := by unfold replaceCopy; simp

@[simp] theorem stompReplaced_mem (i code : Nat) (d : Dev) : (stompReplaced i code d).cistern.mem = d.cistern.mem := by
  unfold stompReplaced; dsimp only; (repeat' split) <;> simp

@[simp] theorem injectPipeline_mem (ring index port : Nat) (b : List Byte) (d : Dev) : (injectPipeline ring index port b d).cistern.mem = d.cistern.mem := by rfl

theorem injectDirect_mem {port queue : Nat} {b : List Byte} {d e : Dev} {n : Nat} (h : injectDirect port queue b d = (some e, n)) :
    e.cistern.mem = d.cistern.mem := by
  unfold injectDirect at h; dsimp only at h; split at h
  · cases h
  · split at h <;> simp only [Prod.mk.injEq, Option.some.injEq] at h <;> rw [← h.1] <;> simp

@[simp] theorem refuseDirect_mem (port queue : Nat) (b : List Byte) (d : Dev) : (refuseDirect port queue b d).cistern.mem = d.cistern.mem := by unfold refuseDirect; simp

-- Machine/Regs.lean ------------------------------------------------------------------------------------------

@[simp] theorem ringDoorbell_mem (m : Nat) (d : Dev) : (ringDoorbell m d).cistern.mem = d.cistern.mem := by unfold ringDoorbell; simp

@[simp] theorem writeBox_mem (m reg v : Nat) (d : Dev) : (writeBox m reg v d).cistern.mem = d.cistern.mem := by unfold writeBox; simp

@[simp] theorem writeArea_mem (m o v : Nat) (d : Dev) : (writeArea m o v d).cistern.mem = d.cistern.mem := by unfold writeArea; simp

@[simp] theorem writeHead_mem (fn r v : Nat) (d : Dev) : (writeHead fn r v d).cistern.mem = d.cistern.mem := by unfold writeHead; simp

@[simp] theorem writeCqHead_mem (fn q v : Nat) (d : Dev) : (writeCqHead fn q v d).cistern.mem = d.cistern.mem := by unfold writeCqHead; simp

end Sys2Proof.Machine
end

