-- ==== Sys2Proof/Laws/State.lean ====
section
/-!
SUPPORT. The operations that write one entry of a table of the state, or one whole part of it: what is read back, and what every other part
reads as after it.
-/

namespace Sys2Proof.Machine

-- What is read back --------------------------------------------------------------------------------------------------------------------

@[simp] theorem fnOf_setFn (f n : Nat) (x : Fn) (d : Dev) : fnOf (setFn f x d) n = if n = f then x else fnOf d n := by
  unfold fnOf setFn; exact tget_tput _ _ _ _ _
@[simp] theorem portOf_setPort (p n : Nat) (x : Port) (d : Dev) : portOf (setPort p x d) n = if n = p then x else portOf d n := by
  unfold portOf setPort; exact tget_tput _ _ _ _ _
@[simp] theorem masterOf_setMaster (m n : Nat) (x : I2cMaster) (d : Dev) : masterOf (setMaster m x d) n = if n = m then x else masterOf d n := by
  unfold masterOf setMaster; exact tget_tput _ _ _ _ _
@[simp] theorem frameOf_setFrame (i n : Nat) (x : Frame) (d : Dev) : frameOf (setFrame i x d) n = if n = i then x else frameOf d n := by
  unfold frameOf setFrame; exact tget_tput _ _ _ _ _
@[simp] theorem copyOf_setCopy (i n : Nat) (x : Copy) (d : Dev) : copyOf (setCopy i x d) n = if n = i then x else copyOf d n := by
  unfold copyOf setCopy; exact tget_tput _ _ _ _ _
@[simp] theorem schedOf_setSched (p n : Nat) (x : Sched) (d : Dev) : schedOf (setSched p x d) n = if n = p then x else schedOf d n := by
  unfold schedOf setSched; exact tget_tput _ _ _ _ _
@[simp] theorem queueOf_setQueue (q n : Nat) (x : Queue) (d : Dev) : queueOf (setQueue q x d) n = if n = q then x else queueOf d n := by
  unfold queueOf setQueue; exact tget_tput _ _ _ _ _
@[simp] theorem groupOf_setGroup (g n : Nat) (x : Group) (d : Dev) : groupOf (setGroup g x d) n = if n = g then x else groupOf d n := by
  unfold groupOf setGroup; exact tget_tput _ _ _ _ _
@[simp] theorem streamOf_setStream (s n : Nat) (x : Stream) (d : Dev) : streamOf (setStream s x d) n = if n = s then x else streamOf d n := by
  unfold streamOf setStream; exact tget_tput _ _ _ _ _
@[simp] theorem classOf_setClass (c n : Nat) (x : Class) (d : Dev) : classOf (setClass c x d) n = if n = c then x else classOf d n := by
  unfold classOf setClass; exact tget_tput _ _ _ _ _
@[simp] theorem ringOf_setRing (r n : Nat) (x : Ring) (d : Dev) : ringOf (setRing r x d) n = if n = r then x else ringOf d n := by
  unfold ringOf setRing; exact tget_tput _ _ _ _ _
@[simp] theorem cqOf_setCq (q n : Nat) (x : Cq) (d : Dev) : cqOf (setCq q x d) n = if n = q then x else cqOf d n := by
  unfold cqOf setCq; exact tget_tput _ _ _ _ _
@[simp] theorem unitOf_setUnit (u n : Nat) (x : PUnit) (d : Dev) : unitOf (setUnit u x d) n = if n = u then x else unitOf d n := by
  unfold unitOf setUnit; exact tget_tput _ _ _ _ _
@[simp] theorem confOf_setConf (g n : Nat) (x : ConfGroup) (d : Dev) : confOf (setConf g x d) n = if n = g then x else confOf d n := by
  unfold confOf setConf; exact tget_tput _ _ _ _ _
@[simp] theorem levelOf_setLevel (g n : Nat) (x : LevelGroup) (d : Dev) : levelOf (setLevel g x d) n = if n = g then x else levelOf d n := by
  unfold levelOf setLevel; exact tget_tput _ _ _ _ _
@[simp] theorem chanOf_setChan (c n : Nat) (x : Channel) (d : Dev) : chanOf (setChan c x d) n = if n = c then x else chanOf d n := by
  unfold chanOf setChan; exact tget_tput _ _ _ _ _
@[simp] theorem basinState_setBasin (b n : Nat) (x : Basin) (d : Dev) : basinState (setBasin b x d) n = if n = b then x else basinState d n := by
  unfold basinState setBasin; exact tget_tput _ _ _ _ _
@[simp] theorem setLedger_ledger (x : Ledger) (d : Dev) : (setLedger x d).ledger = x := rfl
@[simp] theorem setCascade_cascade (x : Cascade) (d : Dev) : (setCascade x d).cascade = x := rfl
@[simp] theorem setPair_pair (x : Pair) (d : Dev) : (setPair x d).pair = x := rfl
@[simp] theorem setTime_time (x : Time) (d : Dev) : (setTime x d).time = x := rfl
@[simp] theorem setPower_power (x : Power) (d : Dev) : (setPower x d).power = x := rfl
@[simp] theorem setSteward_steward (x : Steward) (d : Dev) : (setSteward x d).steward = x := rfl

/-- A microregister after a write: m0 stays 0 (R374). -/
@[simp] theorem mreg_setMreg (n r : BitVec 6) (v : Word64) (d : Dev) : mreg (setMreg n v d) r = if r = n ∧ r ≠ 0 then v else mreg d r := by
  unfold mreg setMreg setSteward
  by_cases h0 : n = 0
  · subst h0; by_cases hr : r = 0 <;> simp [hr]
  · by_cases hr : r = 0
    · simp [hr]
    · simp only [h0, hr, if_false, tget_tput]
      by_cases e : r = n
      · simp [e]
        intro h; exact absurd h h0
      · have : r.toNat ≠ n.toNat := fun h => e (BitVec.eq_of_toNat_eq h)
        simp [e, this]

-- What is left alone -------------------------------------------------------------------------------------------------------------------

@[simp] theorem setFn_clock (f : Nat) (x : Fn) (d : Dev) : (setFn f x d).clock = d.clock := rfl
@[simp] theorem setFn_freeIdx (f : Nat) (x : Fn) (d : Dev) : (setFn f x d).freeIdx = d.freeIdx := rfl
@[simp] theorem setFn_boxes (f : Nat) (x : Fn) (d : Dev) : (setFn f x d).boxes = d.boxes := rfl
@[simp] theorem setFn_helm (f : Nat) (x : Fn) (d : Dev) : (setFn f x d).helm = d.helm := rfl
@[simp] theorem setFn_coll (f : Nat) (x : Fn) (d : Dev) : (setFn f x d).coll = d.coll := rfl
@[simp] theorem setFn_guard (f : Nat) (x : Fn) (d : Dev) : (setFn f x d).guard = d.guard := rfl
@[simp] theorem setFn_time (f : Nat) (x : Fn) (d : Dev) : (setFn f x d).time = d.time := rfl
@[simp] theorem setFn_ptp (f : Nat) (x : Fn) (d : Dev) : (setFn f x d).ptp = d.ptp := rfl
@[simp] theorem setFn_ledger (f : Nat) (x : Fn) (d : Dev) : (setFn f x d).ledger = d.ledger := rfl
@[simp] theorem setFn_pair (f : Nat) (x : Fn) (d : Dev) : (setFn f x d).pair = d.pair := rfl
@[simp] theorem setFn_counters (f : Nat) (x : Fn) (d : Dev) : (setFn f x d).counters = d.counters := rfl
@[simp] theorem setFn_tm (f : Nat) (x : Fn) (d : Dev) : (setFn f x d).tm = d.tm := rfl
@[simp] theorem setFn_spec (f : Nat) (x : Fn) (d : Dev) : (setFn f x d).spec = d.spec := rfl
@[simp] theorem setFn_frames (f : Nat) (x : Fn) (d : Dev) : (setFn f x d).frames = d.frames := rfl
@[simp] theorem setFn_copies (f : Nat) (x : Fn) (d : Dev) : (setFn f x d).copies = d.copies := rfl
@[simp] theorem setFn_nextFrame (f : Nat) (x : Fn) (d : Dev) : (setFn f x d).nextFrame = d.nextFrame := rfl
@[simp] theorem setFn_nextCopy (f : Nat) (x : Fn) (d : Dev) : (setFn f x d).nextCopy = d.nextCopy := rfl
@[simp] theorem setFn_ports (f : Nat) (x : Fn) (d : Dev) : (setFn f x d).ports = d.ports := rfl
@[simp] theorem setFn_masters (f : Nat) (x : Fn) (d : Dev) : (setFn f x d).masters = d.masters := rfl
@[simp] theorem setFn_power (f : Nat) (x : Fn) (d : Dev) : (setFn f x d).power = d.power := rfl
@[simp] theorem setFn_release (f : Nat) (x : Fn) (d : Dev) : (setFn f x d).release = d.release := rfl
@[simp] theorem setFn_dma (f : Nat) (x : Fn) (d : Dev) : (setFn f x d).dma = d.dma := rfl
@[simp] theorem setFn_cistern (f : Nat) (x : Fn) (d : Dev) : (setFn f x d).cistern = d.cistern := rfl
@[simp] theorem setFn_steward (f : Nat) (x : Fn) (d : Dev) : (setFn f x d).steward = d.steward := rfl
@[simp] theorem setFn_cascade (f : Nat) (x : Fn) (d : Dev) : (setFn f x d).cascade = d.cascade := rfl
@[simp] theorem setFn_tables (f : Nat) (x : Fn) (d : Dev) : (setFn f x d).tables = d.tables := rfl
@[simp] theorem setFn_out (f : Nat) (x : Fn) (d : Dev) : (setFn f x d).out = d.out := rfl
@[simp] theorem setPort_clock (p : Nat) (x : Port) (d : Dev) : (setPort p x d).clock = d.clock := rfl
@[simp] theorem setPort_freeIdx (p : Nat) (x : Port) (d : Dev) : (setPort p x d).freeIdx = d.freeIdx := rfl
@[simp] theorem setPort_boxes (p : Nat) (x : Port) (d : Dev) : (setPort p x d).boxes = d.boxes := rfl
@[simp] theorem setPort_fns (p : Nat) (x : Port) (d : Dev) : (setPort p x d).fns = d.fns := rfl
@[simp] theorem setPort_helm (p : Nat) (x : Port) (d : Dev) : (setPort p x d).helm = d.helm := rfl
@[simp] theorem setPort_coll (p : Nat) (x : Port) (d : Dev) : (setPort p x d).coll = d.coll := rfl
@[simp] theorem setPort_guard (p : Nat) (x : Port) (d : Dev) : (setPort p x d).guard = d.guard := rfl
@[simp] theorem setPort_time (p : Nat) (x : Port) (d : Dev) : (setPort p x d).time = d.time := rfl
@[simp] theorem setPort_ptp (p : Nat) (x : Port) (d : Dev) : (setPort p x d).ptp = d.ptp := rfl
@[simp] theorem setPort_ledger (p : Nat) (x : Port) (d : Dev) : (setPort p x d).ledger = d.ledger := rfl
@[simp] theorem setPort_pair (p : Nat) (x : Port) (d : Dev) : (setPort p x d).pair = d.pair := rfl
@[simp] theorem setPort_counters (p : Nat) (x : Port) (d : Dev) : (setPort p x d).counters = d.counters := rfl
@[simp] theorem setPort_tm (p : Nat) (x : Port) (d : Dev) : (setPort p x d).tm = d.tm := rfl
@[simp] theorem setPort_spec (p : Nat) (x : Port) (d : Dev) : (setPort p x d).spec = d.spec := rfl
@[simp] theorem setPort_frames (p : Nat) (x : Port) (d : Dev) : (setPort p x d).frames = d.frames := rfl
@[simp] theorem setPort_copies (p : Nat) (x : Port) (d : Dev) : (setPort p x d).copies = d.copies := rfl
@[simp] theorem setPort_nextFrame (p : Nat) (x : Port) (d : Dev) : (setPort p x d).nextFrame = d.nextFrame := rfl
@[simp] theorem setPort_nextCopy (p : Nat) (x : Port) (d : Dev) : (setPort p x d).nextCopy = d.nextCopy := rfl
@[simp] theorem setPort_masters (p : Nat) (x : Port) (d : Dev) : (setPort p x d).masters = d.masters := rfl
@[simp] theorem setPort_power (p : Nat) (x : Port) (d : Dev) : (setPort p x d).power = d.power := rfl
@[simp] theorem setPort_release (p : Nat) (x : Port) (d : Dev) : (setPort p x d).release = d.release := rfl
@[simp] theorem setPort_dma (p : Nat) (x : Port) (d : Dev) : (setPort p x d).dma = d.dma := rfl
@[simp] theorem setPort_cistern (p : Nat) (x : Port) (d : Dev) : (setPort p x d).cistern = d.cistern := rfl
@[simp] theorem setPort_steward (p : Nat) (x : Port) (d : Dev) : (setPort p x d).steward = d.steward := rfl
@[simp] theorem setPort_cascade (p : Nat) (x : Port) (d : Dev) : (setPort p x d).cascade = d.cascade := rfl
@[simp] theorem setPort_tables (p : Nat) (x : Port) (d : Dev) : (setPort p x d).tables = d.tables := rfl
@[simp] theorem setPort_out (p : Nat) (x : Port) (d : Dev) : (setPort p x d).out = d.out := rfl
@[simp] theorem setMaster_clock (m : Nat) (x : I2cMaster) (d : Dev) : (setMaster m x d).clock = d.clock := rfl
@[simp] theorem setMaster_freeIdx (m : Nat) (x : I2cMaster) (d : Dev) : (setMaster m x d).freeIdx = d.freeIdx := rfl
@[simp] theorem setMaster_boxes (m : Nat) (x : I2cMaster) (d : Dev) : (setMaster m x d).boxes = d.boxes := rfl
@[simp] theorem setMaster_fns (m : Nat) (x : I2cMaster) (d : Dev) : (setMaster m x d).fns = d.fns := rfl
@[simp] theorem setMaster_helm (m : Nat) (x : I2cMaster) (d : Dev) : (setMaster m x d).helm = d.helm := rfl
@[simp] theorem setMaster_coll (m : Nat) (x : I2cMaster) (d : Dev) : (setMaster m x d).coll = d.coll := rfl
@[simp] theorem setMaster_guard (m : Nat) (x : I2cMaster) (d : Dev) : (setMaster m x d).guard = d.guard := rfl
@[simp] theorem setMaster_time (m : Nat) (x : I2cMaster) (d : Dev) : (setMaster m x d).time = d.time := rfl
@[simp] theorem setMaster_ptp (m : Nat) (x : I2cMaster) (d : Dev) : (setMaster m x d).ptp = d.ptp := rfl
@[simp] theorem setMaster_ledger (m : Nat) (x : I2cMaster) (d : Dev) : (setMaster m x d).ledger = d.ledger := rfl
@[simp] theorem setMaster_pair (m : Nat) (x : I2cMaster) (d : Dev) : (setMaster m x d).pair = d.pair := rfl
@[simp] theorem setMaster_counters (m : Nat) (x : I2cMaster) (d : Dev) : (setMaster m x d).counters = d.counters := rfl
@[simp] theorem setMaster_tm (m : Nat) (x : I2cMaster) (d : Dev) : (setMaster m x d).tm = d.tm := rfl
@[simp] theorem setMaster_spec (m : Nat) (x : I2cMaster) (d : Dev) : (setMaster m x d).spec = d.spec := rfl
@[simp] theorem setMaster_frames (m : Nat) (x : I2cMaster) (d : Dev) : (setMaster m x d).frames = d.frames := rfl
@[simp] theorem setMaster_copies (m : Nat) (x : I2cMaster) (d : Dev) : (setMaster m x d).copies = d.copies := rfl
@[simp] theorem setMaster_nextFrame (m : Nat) (x : I2cMaster) (d : Dev) : (setMaster m x d).nextFrame = d.nextFrame := rfl
@[simp] theorem setMaster_nextCopy (m : Nat) (x : I2cMaster) (d : Dev) : (setMaster m x d).nextCopy = d.nextCopy := rfl
@[simp] theorem setMaster_ports (m : Nat) (x : I2cMaster) (d : Dev) : (setMaster m x d).ports = d.ports := rfl
@[simp] theorem setMaster_power (m : Nat) (x : I2cMaster) (d : Dev) : (setMaster m x d).power = d.power := rfl
@[simp] theorem setMaster_release (m : Nat) (x : I2cMaster) (d : Dev) : (setMaster m x d).release = d.release := rfl
@[simp] theorem setMaster_dma (m : Nat) (x : I2cMaster) (d : Dev) : (setMaster m x d).dma = d.dma := rfl
@[simp] theorem setMaster_cistern (m : Nat) (x : I2cMaster) (d : Dev) : (setMaster m x d).cistern = d.cistern := rfl
@[simp] theorem setMaster_steward (m : Nat) (x : I2cMaster) (d : Dev) : (setMaster m x d).steward = d.steward := rfl
@[simp] theorem setMaster_cascade (m : Nat) (x : I2cMaster) (d : Dev) : (setMaster m x d).cascade = d.cascade := rfl
@[simp] theorem setMaster_tables (m : Nat) (x : I2cMaster) (d : Dev) : (setMaster m x d).tables = d.tables := rfl
@[simp] theorem setMaster_out (m : Nat) (x : I2cMaster) (d : Dev) : (setMaster m x d).out = d.out := rfl
@[simp] theorem setFrame_clock (i : Nat) (x : Frame) (d : Dev) : (setFrame i x d).clock = d.clock := rfl
@[simp] theorem setFrame_freeIdx (i : Nat) (x : Frame) (d : Dev) : (setFrame i x d).freeIdx = d.freeIdx := rfl
@[simp] theorem setFrame_boxes (i : Nat) (x : Frame) (d : Dev) : (setFrame i x d).boxes = d.boxes := rfl
@[simp] theorem setFrame_fns (i : Nat) (x : Frame) (d : Dev) : (setFrame i x d).fns = d.fns := rfl
@[simp] theorem setFrame_helm (i : Nat) (x : Frame) (d : Dev) : (setFrame i x d).helm = d.helm := rfl
@[simp] theorem setFrame_coll (i : Nat) (x : Frame) (d : Dev) : (setFrame i x d).coll = d.coll := rfl
@[simp] theorem setFrame_guard (i : Nat) (x : Frame) (d : Dev) : (setFrame i x d).guard = d.guard := rfl
@[simp] theorem setFrame_time (i : Nat) (x : Frame) (d : Dev) : (setFrame i x d).time = d.time := rfl
@[simp] theorem setFrame_ptp (i : Nat) (x : Frame) (d : Dev) : (setFrame i x d).ptp = d.ptp := rfl
@[simp] theorem setFrame_ledger (i : Nat) (x : Frame) (d : Dev) : (setFrame i x d).ledger = d.ledger := rfl
@[simp] theorem setFrame_pair (i : Nat) (x : Frame) (d : Dev) : (setFrame i x d).pair = d.pair := rfl
@[simp] theorem setFrame_counters (i : Nat) (x : Frame) (d : Dev) : (setFrame i x d).counters = d.counters := rfl
@[simp] theorem setFrame_tm (i : Nat) (x : Frame) (d : Dev) : (setFrame i x d).tm = d.tm := rfl
@[simp] theorem setFrame_spec (i : Nat) (x : Frame) (d : Dev) : (setFrame i x d).spec = d.spec := rfl
@[simp] theorem setFrame_copies (i : Nat) (x : Frame) (d : Dev) : (setFrame i x d).copies = d.copies := rfl
@[simp] theorem setFrame_nextFrame (i : Nat) (x : Frame) (d : Dev) : (setFrame i x d).nextFrame = d.nextFrame := rfl
@[simp] theorem setFrame_nextCopy (i : Nat) (x : Frame) (d : Dev) : (setFrame i x d).nextCopy = d.nextCopy := rfl
@[simp] theorem setFrame_ports (i : Nat) (x : Frame) (d : Dev) : (setFrame i x d).ports = d.ports := rfl
@[simp] theorem setFrame_masters (i : Nat) (x : Frame) (d : Dev) : (setFrame i x d).masters = d.masters := rfl
@[simp] theorem setFrame_power (i : Nat) (x : Frame) (d : Dev) : (setFrame i x d).power = d.power := rfl
@[simp] theorem setFrame_release (i : Nat) (x : Frame) (d : Dev) : (setFrame i x d).release = d.release := rfl
@[simp] theorem setFrame_dma (i : Nat) (x : Frame) (d : Dev) : (setFrame i x d).dma = d.dma := rfl
@[simp] theorem setFrame_cistern (i : Nat) (x : Frame) (d : Dev) : (setFrame i x d).cistern = d.cistern := rfl
@[simp] theorem setFrame_steward (i : Nat) (x : Frame) (d : Dev) : (setFrame i x d).steward = d.steward := rfl
@[simp] theorem setFrame_cascade (i : Nat) (x : Frame) (d : Dev) : (setFrame i x d).cascade = d.cascade := rfl
@[simp] theorem setFrame_tables (i : Nat) (x : Frame) (d : Dev) : (setFrame i x d).tables = d.tables := rfl
@[simp] theorem setFrame_out (i : Nat) (x : Frame) (d : Dev) : (setFrame i x d).out = d.out := rfl
@[simp] theorem setCopy_clock (i : Nat) (x : Copy) (d : Dev) : (setCopy i x d).clock = d.clock := rfl
@[simp] theorem setCopy_freeIdx (i : Nat) (x : Copy) (d : Dev) : (setCopy i x d).freeIdx = d.freeIdx := rfl
@[simp] theorem setCopy_boxes (i : Nat) (x : Copy) (d : Dev) : (setCopy i x d).boxes = d.boxes := rfl
@[simp] theorem setCopy_fns (i : Nat) (x : Copy) (d : Dev) : (setCopy i x d).fns = d.fns := rfl
@[simp] theorem setCopy_helm (i : Nat) (x : Copy) (d : Dev) : (setCopy i x d).helm = d.helm := rfl
@[simp] theorem setCopy_coll (i : Nat) (x : Copy) (d : Dev) : (setCopy i x d).coll = d.coll := rfl
@[simp] theorem setCopy_guard (i : Nat) (x : Copy) (d : Dev) : (setCopy i x d).guard = d.guard := rfl
@[simp] theorem setCopy_time (i : Nat) (x : Copy) (d : Dev) : (setCopy i x d).time = d.time := rfl
@[simp] theorem setCopy_ptp (i : Nat) (x : Copy) (d : Dev) : (setCopy i x d).ptp = d.ptp := rfl
@[simp] theorem setCopy_ledger (i : Nat) (x : Copy) (d : Dev) : (setCopy i x d).ledger = d.ledger := rfl
@[simp] theorem setCopy_pair (i : Nat) (x : Copy) (d : Dev) : (setCopy i x d).pair = d.pair := rfl
@[simp] theorem setCopy_counters (i : Nat) (x : Copy) (d : Dev) : (setCopy i x d).counters = d.counters := rfl
@[simp] theorem setCopy_tm (i : Nat) (x : Copy) (d : Dev) : (setCopy i x d).tm = d.tm := rfl
@[simp] theorem setCopy_spec (i : Nat) (x : Copy) (d : Dev) : (setCopy i x d).spec = d.spec := rfl
@[simp] theorem setCopy_frames (i : Nat) (x : Copy) (d : Dev) : (setCopy i x d).frames = d.frames := rfl
@[simp] theorem setCopy_nextFrame (i : Nat) (x : Copy) (d : Dev) : (setCopy i x d).nextFrame = d.nextFrame := rfl
@[simp] theorem setCopy_nextCopy (i : Nat) (x : Copy) (d : Dev) : (setCopy i x d).nextCopy = d.nextCopy := rfl
@[simp] theorem setCopy_ports (i : Nat) (x : Copy) (d : Dev) : (setCopy i x d).ports = d.ports := rfl
@[simp] theorem setCopy_masters (i : Nat) (x : Copy) (d : Dev) : (setCopy i x d).masters = d.masters := rfl
@[simp] theorem setCopy_power (i : Nat) (x : Copy) (d : Dev) : (setCopy i x d).power = d.power := rfl
@[simp] theorem setCopy_release (i : Nat) (x : Copy) (d : Dev) : (setCopy i x d).release = d.release := rfl
@[simp] theorem setCopy_dma (i : Nat) (x : Copy) (d : Dev) : (setCopy i x d).dma = d.dma := rfl
@[simp] theorem setCopy_cistern (i : Nat) (x : Copy) (d : Dev) : (setCopy i x d).cistern = d.cistern := rfl
@[simp] theorem setCopy_steward (i : Nat) (x : Copy) (d : Dev) : (setCopy i x d).steward = d.steward := rfl
@[simp] theorem setCopy_cascade (i : Nat) (x : Copy) (d : Dev) : (setCopy i x d).cascade = d.cascade := rfl
@[simp] theorem setCopy_tables (i : Nat) (x : Copy) (d : Dev) : (setCopy i x d).tables = d.tables := rfl
@[simp] theorem setCopy_out (i : Nat) (x : Copy) (d : Dev) : (setCopy i x d).out = d.out := rfl
@[simp] theorem setSched_clock (p : Nat) (x : Sched) (d : Dev) : (setSched p x d).clock = d.clock := rfl
@[simp] theorem setSched_freeIdx (p : Nat) (x : Sched) (d : Dev) : (setSched p x d).freeIdx = d.freeIdx := rfl
@[simp] theorem setSched_boxes (p : Nat) (x : Sched) (d : Dev) : (setSched p x d).boxes = d.boxes := rfl
@[simp] theorem setSched_fns (p : Nat) (x : Sched) (d : Dev) : (setSched p x d).fns = d.fns := rfl
@[simp] theorem setSched_helm (p : Nat) (x : Sched) (d : Dev) : (setSched p x d).helm = d.helm := rfl
@[simp] theorem setSched_coll (p : Nat) (x : Sched) (d : Dev) : (setSched p x d).coll = d.coll := rfl
@[simp] theorem setSched_guard (p : Nat) (x : Sched) (d : Dev) : (setSched p x d).guard = d.guard := rfl
@[simp] theorem setSched_time (p : Nat) (x : Sched) (d : Dev) : (setSched p x d).time = d.time := rfl
@[simp] theorem setSched_ptp (p : Nat) (x : Sched) (d : Dev) : (setSched p x d).ptp = d.ptp := rfl
@[simp] theorem setSched_ledger (p : Nat) (x : Sched) (d : Dev) : (setSched p x d).ledger = d.ledger := rfl
@[simp] theorem setSched_pair (p : Nat) (x : Sched) (d : Dev) : (setSched p x d).pair = d.pair := rfl
@[simp] theorem setSched_counters (p : Nat) (x : Sched) (d : Dev) : (setSched p x d).counters = d.counters := rfl
@[simp] theorem setSched_spec (p : Nat) (x : Sched) (d : Dev) : (setSched p x d).spec = d.spec := rfl
@[simp] theorem setSched_frames (p : Nat) (x : Sched) (d : Dev) : (setSched p x d).frames = d.frames := rfl
@[simp] theorem setSched_copies (p : Nat) (x : Sched) (d : Dev) : (setSched p x d).copies = d.copies := rfl
@[simp] theorem setSched_nextFrame (p : Nat) (x : Sched) (d : Dev) : (setSched p x d).nextFrame = d.nextFrame := rfl
@[simp] theorem setSched_nextCopy (p : Nat) (x : Sched) (d : Dev) : (setSched p x d).nextCopy = d.nextCopy := rfl
@[simp] theorem setSched_ports (p : Nat) (x : Sched) (d : Dev) : (setSched p x d).ports = d.ports := rfl
@[simp] theorem setSched_masters (p : Nat) (x : Sched) (d : Dev) : (setSched p x d).masters = d.masters := rfl
@[simp] theorem setSched_power (p : Nat) (x : Sched) (d : Dev) : (setSched p x d).power = d.power := rfl
@[simp] theorem setSched_release (p : Nat) (x : Sched) (d : Dev) : (setSched p x d).release = d.release := rfl
@[simp] theorem setSched_dma (p : Nat) (x : Sched) (d : Dev) : (setSched p x d).dma = d.dma := rfl
@[simp] theorem setSched_cistern (p : Nat) (x : Sched) (d : Dev) : (setSched p x d).cistern = d.cistern := rfl
@[simp] theorem setSched_steward (p : Nat) (x : Sched) (d : Dev) : (setSched p x d).steward = d.steward := rfl
@[simp] theorem setSched_cascade (p : Nat) (x : Sched) (d : Dev) : (setSched p x d).cascade = d.cascade := rfl
@[simp] theorem setSched_tables (p : Nat) (x : Sched) (d : Dev) : (setSched p x d).tables = d.tables := rfl
@[simp] theorem setSched_out (p : Nat) (x : Sched) (d : Dev) : (setSched p x d).out = d.out := rfl
@[simp] theorem setQueue_clock (q : Nat) (x : Queue) (d : Dev) : (setQueue q x d).clock = d.clock := rfl
@[simp] theorem setQueue_freeIdx (q : Nat) (x : Queue) (d : Dev) : (setQueue q x d).freeIdx = d.freeIdx := rfl
@[simp] theorem setQueue_boxes (q : Nat) (x : Queue) (d : Dev) : (setQueue q x d).boxes = d.boxes := rfl
@[simp] theorem setQueue_fns (q : Nat) (x : Queue) (d : Dev) : (setQueue q x d).fns = d.fns := rfl
@[simp] theorem setQueue_helm (q : Nat) (x : Queue) (d : Dev) : (setQueue q x d).helm = d.helm := rfl
@[simp] theorem setQueue_coll (q : Nat) (x : Queue) (d : Dev) : (setQueue q x d).coll = d.coll := rfl
@[simp] theorem setQueue_guard (q : Nat) (x : Queue) (d : Dev) : (setQueue q x d).guard = d.guard := rfl
@[simp] theorem setQueue_time (q : Nat) (x : Queue) (d : Dev) : (setQueue q x d).time = d.time := rfl
@[simp] theorem setQueue_ptp (q : Nat) (x : Queue) (d : Dev) : (setQueue q x d).ptp = d.ptp := rfl
@[simp] theorem setQueue_ledger (q : Nat) (x : Queue) (d : Dev) : (setQueue q x d).ledger = d.ledger := rfl
@[simp] theorem setQueue_pair (q : Nat) (x : Queue) (d : Dev) : (setQueue q x d).pair = d.pair := rfl
@[simp] theorem setQueue_counters (q : Nat) (x : Queue) (d : Dev) : (setQueue q x d).counters = d.counters := rfl
@[simp] theorem setQueue_spec (q : Nat) (x : Queue) (d : Dev) : (setQueue q x d).spec = d.spec := rfl
@[simp] theorem setQueue_frames (q : Nat) (x : Queue) (d : Dev) : (setQueue q x d).frames = d.frames := rfl
@[simp] theorem setQueue_copies (q : Nat) (x : Queue) (d : Dev) : (setQueue q x d).copies = d.copies := rfl
@[simp] theorem setQueue_nextFrame (q : Nat) (x : Queue) (d : Dev) : (setQueue q x d).nextFrame = d.nextFrame := rfl
@[simp] theorem setQueue_nextCopy (q : Nat) (x : Queue) (d : Dev) : (setQueue q x d).nextCopy = d.nextCopy := rfl
@[simp] theorem setQueue_ports (q : Nat) (x : Queue) (d : Dev) : (setQueue q x d).ports = d.ports := rfl
@[simp] theorem setQueue_masters (q : Nat) (x : Queue) (d : Dev) : (setQueue q x d).masters = d.masters := rfl
@[simp] theorem setQueue_power (q : Nat) (x : Queue) (d : Dev) : (setQueue q x d).power = d.power := rfl
@[simp] theorem setQueue_release (q : Nat) (x : Queue) (d : Dev) : (setQueue q x d).release = d.release := rfl
@[simp] theorem setQueue_dma (q : Nat) (x : Queue) (d : Dev) : (setQueue q x d).dma = d.dma := rfl
@[simp] theorem setQueue_cistern (q : Nat) (x : Queue) (d : Dev) : (setQueue q x d).cistern = d.cistern := rfl
@[simp] theorem setQueue_steward (q : Nat) (x : Queue) (d : Dev) : (setQueue q x d).steward = d.steward := rfl
@[simp] theorem setQueue_cascade (q : Nat) (x : Queue) (d : Dev) : (setQueue q x d).cascade = d.cascade := rfl
@[simp] theorem setQueue_tables (q : Nat) (x : Queue) (d : Dev) : (setQueue q x d).tables = d.tables := rfl
@[simp] theorem setQueue_out (q : Nat) (x : Queue) (d : Dev) : (setQueue q x d).out = d.out := rfl
@[simp] theorem setGroup_clock (g : Nat) (x : Group) (d : Dev) : (setGroup g x d).clock = d.clock := rfl
@[simp] theorem setGroup_freeIdx (g : Nat) (x : Group) (d : Dev) : (setGroup g x d).freeIdx = d.freeIdx := rfl
@[simp] theorem setGroup_boxes (g : Nat) (x : Group) (d : Dev) : (setGroup g x d).boxes = d.boxes := rfl
@[simp] theorem setGroup_fns (g : Nat) (x : Group) (d : Dev) : (setGroup g x d).fns = d.fns := rfl
@[simp] theorem setGroup_helm (g : Nat) (x : Group) (d : Dev) : (setGroup g x d).helm = d.helm := rfl
@[simp] theorem setGroup_coll (g : Nat) (x : Group) (d : Dev) : (setGroup g x d).coll = d.coll := rfl
@[simp] theorem setGroup_guard (g : Nat) (x : Group) (d : Dev) : (setGroup g x d).guard = d.guard := rfl
@[simp] theorem setGroup_time (g : Nat) (x : Group) (d : Dev) : (setGroup g x d).time = d.time := rfl
@[simp] theorem setGroup_ptp (g : Nat) (x : Group) (d : Dev) : (setGroup g x d).ptp = d.ptp := rfl
@[simp] theorem setGroup_ledger (g : Nat) (x : Group) (d : Dev) : (setGroup g x d).ledger = d.ledger := rfl
@[simp] theorem setGroup_pair (g : Nat) (x : Group) (d : Dev) : (setGroup g x d).pair = d.pair := rfl
@[simp] theorem setGroup_counters (g : Nat) (x : Group) (d : Dev) : (setGroup g x d).counters = d.counters := rfl
@[simp] theorem setGroup_spec (g : Nat) (x : Group) (d : Dev) : (setGroup g x d).spec = d.spec := rfl
@[simp] theorem setGroup_frames (g : Nat) (x : Group) (d : Dev) : (setGroup g x d).frames = d.frames := rfl
@[simp] theorem setGroup_copies (g : Nat) (x : Group) (d : Dev) : (setGroup g x d).copies = d.copies := rfl
@[simp] theorem setGroup_nextFrame (g : Nat) (x : Group) (d : Dev) : (setGroup g x d).nextFrame = d.nextFrame := rfl
@[simp] theorem setGroup_nextCopy (g : Nat) (x : Group) (d : Dev) : (setGroup g x d).nextCopy = d.nextCopy := rfl
@[simp] theorem setGroup_ports (g : Nat) (x : Group) (d : Dev) : (setGroup g x d).ports = d.ports := rfl
@[simp] theorem setGroup_masters (g : Nat) (x : Group) (d : Dev) : (setGroup g x d).masters = d.masters := rfl
@[simp] theorem setGroup_power (g : Nat) (x : Group) (d : Dev) : (setGroup g x d).power = d.power := rfl
@[simp] theorem setGroup_release (g : Nat) (x : Group) (d : Dev) : (setGroup g x d).release = d.release := rfl
@[simp] theorem setGroup_dma (g : Nat) (x : Group) (d : Dev) : (setGroup g x d).dma = d.dma := rfl
@[simp] theorem setGroup_cistern (g : Nat) (x : Group) (d : Dev) : (setGroup g x d).cistern = d.cistern := rfl
@[simp] theorem setGroup_steward (g : Nat) (x : Group) (d : Dev) : (setGroup g x d).steward = d.steward := rfl
@[simp] theorem setGroup_cascade (g : Nat) (x : Group) (d : Dev) : (setGroup g x d).cascade = d.cascade := rfl
@[simp] theorem setGroup_tables (g : Nat) (x : Group) (d : Dev) : (setGroup g x d).tables = d.tables := rfl
@[simp] theorem setGroup_out (g : Nat) (x : Group) (d : Dev) : (setGroup g x d).out = d.out := rfl
@[simp] theorem setStream_clock (s : Nat) (x : Stream) (d : Dev) : (setStream s x d).clock = d.clock := rfl
@[simp] theorem setStream_freeIdx (s : Nat) (x : Stream) (d : Dev) : (setStream s x d).freeIdx = d.freeIdx := rfl
@[simp] theorem setStream_boxes (s : Nat) (x : Stream) (d : Dev) : (setStream s x d).boxes = d.boxes := rfl
@[simp] theorem setStream_fns (s : Nat) (x : Stream) (d : Dev) : (setStream s x d).fns = d.fns := rfl
@[simp] theorem setStream_helm (s : Nat) (x : Stream) (d : Dev) : (setStream s x d).helm = d.helm := rfl
@[simp] theorem setStream_coll (s : Nat) (x : Stream) (d : Dev) : (setStream s x d).coll = d.coll := rfl
@[simp] theorem setStream_time (s : Nat) (x : Stream) (d : Dev) : (setStream s x d).time = d.time := rfl
@[simp] theorem setStream_ptp (s : Nat) (x : Stream) (d : Dev) : (setStream s x d).ptp = d.ptp := rfl
@[simp] theorem setStream_ledger (s : Nat) (x : Stream) (d : Dev) : (setStream s x d).ledger = d.ledger := rfl
@[simp] theorem setStream_pair (s : Nat) (x : Stream) (d : Dev) : (setStream s x d).pair = d.pair := rfl
@[simp] theorem setStream_counters (s : Nat) (x : Stream) (d : Dev) : (setStream s x d).counters = d.counters := rfl
@[simp] theorem setStream_tm (s : Nat) (x : Stream) (d : Dev) : (setStream s x d).tm = d.tm := rfl
@[simp] theorem setStream_spec (s : Nat) (x : Stream) (d : Dev) : (setStream s x d).spec = d.spec := rfl
@[simp] theorem setStream_frames (s : Nat) (x : Stream) (d : Dev) : (setStream s x d).frames = d.frames := rfl
@[simp] theorem setStream_copies (s : Nat) (x : Stream) (d : Dev) : (setStream s x d).copies = d.copies := rfl
@[simp] theorem setStream_nextFrame (s : Nat) (x : Stream) (d : Dev) : (setStream s x d).nextFrame = d.nextFrame := rfl
@[simp] theorem setStream_nextCopy (s : Nat) (x : Stream) (d : Dev) : (setStream s x d).nextCopy = d.nextCopy := rfl
@[simp] theorem setStream_ports (s : Nat) (x : Stream) (d : Dev) : (setStream s x d).ports = d.ports := rfl
@[simp] theorem setStream_masters (s : Nat) (x : Stream) (d : Dev) : (setStream s x d).masters = d.masters := rfl
@[simp] theorem setStream_power (s : Nat) (x : Stream) (d : Dev) : (setStream s x d).power = d.power := rfl
@[simp] theorem setStream_release (s : Nat) (x : Stream) (d : Dev) : (setStream s x d).release = d.release := rfl
@[simp] theorem setStream_dma (s : Nat) (x : Stream) (d : Dev) : (setStream s x d).dma = d.dma := rfl
@[simp] theorem setStream_cistern (s : Nat) (x : Stream) (d : Dev) : (setStream s x d).cistern = d.cistern := rfl
@[simp] theorem setStream_steward (s : Nat) (x : Stream) (d : Dev) : (setStream s x d).steward = d.steward := rfl
@[simp] theorem setStream_cascade (s : Nat) (x : Stream) (d : Dev) : (setStream s x d).cascade = d.cascade := rfl
@[simp] theorem setStream_tables (s : Nat) (x : Stream) (d : Dev) : (setStream s x d).tables = d.tables := rfl
@[simp] theorem setStream_out (s : Nat) (x : Stream) (d : Dev) : (setStream s x d).out = d.out := rfl
@[simp] theorem setClass_clock (c : Nat) (x : Class) (d : Dev) : (setClass c x d).clock = d.clock := rfl
@[simp] theorem setClass_freeIdx (c : Nat) (x : Class) (d : Dev) : (setClass c x d).freeIdx = d.freeIdx := rfl
@[simp] theorem setClass_boxes (c : Nat) (x : Class) (d : Dev) : (setClass c x d).boxes = d.boxes := rfl
@[simp] theorem setClass_fns (c : Nat) (x : Class) (d : Dev) : (setClass c x d).fns = d.fns := rfl
@[simp] theorem setClass_helm (c : Nat) (x : Class) (d : Dev) : (setClass c x d).helm = d.helm := rfl
@[simp] theorem setClass_guard (c : Nat) (x : Class) (d : Dev) : (setClass c x d).guard = d.guard := rfl
@[simp] theorem setClass_time (c : Nat) (x : Class) (d : Dev) : (setClass c x d).time = d.time := rfl
@[simp] theorem setClass_ptp (c : Nat) (x : Class) (d : Dev) : (setClass c x d).ptp = d.ptp := rfl
@[simp] theorem setClass_ledger (c : Nat) (x : Class) (d : Dev) : (setClass c x d).ledger = d.ledger := rfl
@[simp] theorem setClass_pair (c : Nat) (x : Class) (d : Dev) : (setClass c x d).pair = d.pair := rfl
@[simp] theorem setClass_counters (c : Nat) (x : Class) (d : Dev) : (setClass c x d).counters = d.counters := rfl
@[simp] theorem setClass_tm (c : Nat) (x : Class) (d : Dev) : (setClass c x d).tm = d.tm := rfl
@[simp] theorem setClass_spec (c : Nat) (x : Class) (d : Dev) : (setClass c x d).spec = d.spec := rfl
@[simp] theorem setClass_frames (c : Nat) (x : Class) (d : Dev) : (setClass c x d).frames = d.frames := rfl
@[simp] theorem setClass_copies (c : Nat) (x : Class) (d : Dev) : (setClass c x d).copies = d.copies := rfl
@[simp] theorem setClass_nextFrame (c : Nat) (x : Class) (d : Dev) : (setClass c x d).nextFrame = d.nextFrame := rfl
@[simp] theorem setClass_nextCopy (c : Nat) (x : Class) (d : Dev) : (setClass c x d).nextCopy = d.nextCopy := rfl
@[simp] theorem setClass_ports (c : Nat) (x : Class) (d : Dev) : (setClass c x d).ports = d.ports := rfl
@[simp] theorem setClass_masters (c : Nat) (x : Class) (d : Dev) : (setClass c x d).masters = d.masters := rfl
@[simp] theorem setClass_power (c : Nat) (x : Class) (d : Dev) : (setClass c x d).power = d.power := rfl
@[simp] theorem setClass_release (c : Nat) (x : Class) (d : Dev) : (setClass c x d).release = d.release := rfl
@[simp] theorem setClass_dma (c : Nat) (x : Class) (d : Dev) : (setClass c x d).dma = d.dma := rfl
@[simp] theorem setClass_cistern (c : Nat) (x : Class) (d : Dev) : (setClass c x d).cistern = d.cistern := rfl
@[simp] theorem setClass_steward (c : Nat) (x : Class) (d : Dev) : (setClass c x d).steward = d.steward := rfl
@[simp] theorem setClass_cascade (c : Nat) (x : Class) (d : Dev) : (setClass c x d).cascade = d.cascade := rfl
@[simp] theorem setClass_tables (c : Nat) (x : Class) (d : Dev) : (setClass c x d).tables = d.tables := rfl
@[simp] theorem setClass_out (c : Nat) (x : Class) (d : Dev) : (setClass c x d).out = d.out := rfl
@[simp] theorem setRing_clock (r : Nat) (x : Ring) (d : Dev) : (setRing r x d).clock = d.clock := rfl
@[simp] theorem setRing_freeIdx (r : Nat) (x : Ring) (d : Dev) : (setRing r x d).freeIdx = d.freeIdx := rfl
@[simp] theorem setRing_boxes (r : Nat) (x : Ring) (d : Dev) : (setRing r x d).boxes = d.boxes := rfl
@[simp] theorem setRing_fns (r : Nat) (x : Ring) (d : Dev) : (setRing r x d).fns = d.fns := rfl
@[simp] theorem setRing_helm (r : Nat) (x : Ring) (d : Dev) : (setRing r x d).helm = d.helm := rfl
@[simp] theorem setRing_coll (r : Nat) (x : Ring) (d : Dev) : (setRing r x d).coll = d.coll := rfl
@[simp] theorem setRing_guard (r : Nat) (x : Ring) (d : Dev) : (setRing r x d).guard = d.guard := rfl
@[simp] theorem setRing_time (r : Nat) (x : Ring) (d : Dev) : (setRing r x d).time = d.time := rfl
@[simp] theorem setRing_ptp (r : Nat) (x : Ring) (d : Dev) : (setRing r x d).ptp = d.ptp := rfl
@[simp] theorem setRing_ledger (r : Nat) (x : Ring) (d : Dev) : (setRing r x d).ledger = d.ledger := rfl
@[simp] theorem setRing_pair (r : Nat) (x : Ring) (d : Dev) : (setRing r x d).pair = d.pair := rfl
@[simp] theorem setRing_counters (r : Nat) (x : Ring) (d : Dev) : (setRing r x d).counters = d.counters := rfl
@[simp] theorem setRing_tm (r : Nat) (x : Ring) (d : Dev) : (setRing r x d).tm = d.tm := rfl
@[simp] theorem setRing_spec (r : Nat) (x : Ring) (d : Dev) : (setRing r x d).spec = d.spec := rfl
@[simp] theorem setRing_frames (r : Nat) (x : Ring) (d : Dev) : (setRing r x d).frames = d.frames := rfl
@[simp] theorem setRing_copies (r : Nat) (x : Ring) (d : Dev) : (setRing r x d).copies = d.copies := rfl
@[simp] theorem setRing_nextFrame (r : Nat) (x : Ring) (d : Dev) : (setRing r x d).nextFrame = d.nextFrame := rfl
@[simp] theorem setRing_nextCopy (r : Nat) (x : Ring) (d : Dev) : (setRing r x d).nextCopy = d.nextCopy := rfl
@[simp] theorem setRing_ports (r : Nat) (x : Ring) (d : Dev) : (setRing r x d).ports = d.ports := rfl
@[simp] theorem setRing_masters (r : Nat) (x : Ring) (d : Dev) : (setRing r x d).masters = d.masters := rfl
@[simp] theorem setRing_power (r : Nat) (x : Ring) (d : Dev) : (setRing r x d).power = d.power := rfl
@[simp] theorem setRing_release (r : Nat) (x : Ring) (d : Dev) : (setRing r x d).release = d.release := rfl
@[simp] theorem setRing_cistern (r : Nat) (x : Ring) (d : Dev) : (setRing r x d).cistern = d.cistern := rfl
@[simp] theorem setRing_steward (r : Nat) (x : Ring) (d : Dev) : (setRing r x d).steward = d.steward := rfl
@[simp] theorem setRing_cascade (r : Nat) (x : Ring) (d : Dev) : (setRing r x d).cascade = d.cascade := rfl
@[simp] theorem setRing_tables (r : Nat) (x : Ring) (d : Dev) : (setRing r x d).tables = d.tables := rfl
@[simp] theorem setRing_out (r : Nat) (x : Ring) (d : Dev) : (setRing r x d).out = d.out := rfl
@[simp] theorem setCq_clock (q : Nat) (x : Cq) (d : Dev) : (setCq q x d).clock = d.clock := rfl
@[simp] theorem setCq_freeIdx (q : Nat) (x : Cq) (d : Dev) : (setCq q x d).freeIdx = d.freeIdx := rfl
@[simp] theorem setCq_boxes (q : Nat) (x : Cq) (d : Dev) : (setCq q x d).boxes = d.boxes := rfl
@[simp] theorem setCq_fns (q : Nat) (x : Cq) (d : Dev) : (setCq q x d).fns = d.fns := rfl
@[simp] theorem setCq_helm (q : Nat) (x : Cq) (d : Dev) : (setCq q x d).helm = d.helm := rfl
@[simp] theorem setCq_coll (q : Nat) (x : Cq) (d : Dev) : (setCq q x d).coll = d.coll := rfl
@[simp] theorem setCq_guard (q : Nat) (x : Cq) (d : Dev) : (setCq q x d).guard = d.guard := rfl
@[simp] theorem setCq_time (q : Nat) (x : Cq) (d : Dev) : (setCq q x d).time = d.time := rfl
@[simp] theorem setCq_ptp (q : Nat) (x : Cq) (d : Dev) : (setCq q x d).ptp = d.ptp := rfl
@[simp] theorem setCq_ledger (q : Nat) (x : Cq) (d : Dev) : (setCq q x d).ledger = d.ledger := rfl
@[simp] theorem setCq_pair (q : Nat) (x : Cq) (d : Dev) : (setCq q x d).pair = d.pair := rfl
@[simp] theorem setCq_counters (q : Nat) (x : Cq) (d : Dev) : (setCq q x d).counters = d.counters := rfl
@[simp] theorem setCq_tm (q : Nat) (x : Cq) (d : Dev) : (setCq q x d).tm = d.tm := rfl
@[simp] theorem setCq_spec (q : Nat) (x : Cq) (d : Dev) : (setCq q x d).spec = d.spec := rfl
@[simp] theorem setCq_frames (q : Nat) (x : Cq) (d : Dev) : (setCq q x d).frames = d.frames := rfl
@[simp] theorem setCq_copies (q : Nat) (x : Cq) (d : Dev) : (setCq q x d).copies = d.copies := rfl
@[simp] theorem setCq_nextFrame (q : Nat) (x : Cq) (d : Dev) : (setCq q x d).nextFrame = d.nextFrame := rfl
@[simp] theorem setCq_nextCopy (q : Nat) (x : Cq) (d : Dev) : (setCq q x d).nextCopy = d.nextCopy := rfl
@[simp] theorem setCq_ports (q : Nat) (x : Cq) (d : Dev) : (setCq q x d).ports = d.ports := rfl
@[simp] theorem setCq_masters (q : Nat) (x : Cq) (d : Dev) : (setCq q x d).masters = d.masters := rfl
@[simp] theorem setCq_power (q : Nat) (x : Cq) (d : Dev) : (setCq q x d).power = d.power := rfl
@[simp] theorem setCq_release (q : Nat) (x : Cq) (d : Dev) : (setCq q x d).release = d.release := rfl
@[simp] theorem setCq_cistern (q : Nat) (x : Cq) (d : Dev) : (setCq q x d).cistern = d.cistern := rfl
@[simp] theorem setCq_steward (q : Nat) (x : Cq) (d : Dev) : (setCq q x d).steward = d.steward := rfl
@[simp] theorem setCq_cascade (q : Nat) (x : Cq) (d : Dev) : (setCq q x d).cascade = d.cascade := rfl
@[simp] theorem setCq_tables (q : Nat) (x : Cq) (d : Dev) : (setCq q x d).tables = d.tables := rfl
@[simp] theorem setCq_out (q : Nat) (x : Cq) (d : Dev) : (setCq q x d).out = d.out := rfl
@[simp] theorem setUnit_clock (u : Nat) (x : PUnit) (d : Dev) : (setUnit u x d).clock = d.clock := rfl
@[simp] theorem setUnit_freeIdx (u : Nat) (x : PUnit) (d : Dev) : (setUnit u x d).freeIdx = d.freeIdx := rfl
@[simp] theorem setUnit_boxes (u : Nat) (x : PUnit) (d : Dev) : (setUnit u x d).boxes = d.boxes := rfl
@[simp] theorem setUnit_fns (u : Nat) (x : PUnit) (d : Dev) : (setUnit u x d).fns = d.fns := rfl
@[simp] theorem setUnit_helm (u : Nat) (x : PUnit) (d : Dev) : (setUnit u x d).helm = d.helm := rfl
@[simp] theorem setUnit_coll (u : Nat) (x : PUnit) (d : Dev) : (setUnit u x d).coll = d.coll := rfl
@[simp] theorem setUnit_guard (u : Nat) (x : PUnit) (d : Dev) : (setUnit u x d).guard = d.guard := rfl
@[simp] theorem setUnit_time (u : Nat) (x : PUnit) (d : Dev) : (setUnit u x d).time = d.time := rfl
@[simp] theorem setUnit_ptp (u : Nat) (x : PUnit) (d : Dev) : (setUnit u x d).ptp = d.ptp := rfl
@[simp] theorem setUnit_ledger (u : Nat) (x : PUnit) (d : Dev) : (setUnit u x d).ledger = d.ledger := rfl
@[simp] theorem setUnit_pair (u : Nat) (x : PUnit) (d : Dev) : (setUnit u x d).pair = d.pair := rfl
@[simp] theorem setUnit_counters (u : Nat) (x : PUnit) (d : Dev) : (setUnit u x d).counters = d.counters := rfl
@[simp] theorem setUnit_tm (u : Nat) (x : PUnit) (d : Dev) : (setUnit u x d).tm = d.tm := rfl
@[simp] theorem setUnit_spec (u : Nat) (x : PUnit) (d : Dev) : (setUnit u x d).spec = d.spec := rfl
@[simp] theorem setUnit_frames (u : Nat) (x : PUnit) (d : Dev) : (setUnit u x d).frames = d.frames := rfl
@[simp] theorem setUnit_copies (u : Nat) (x : PUnit) (d : Dev) : (setUnit u x d).copies = d.copies := rfl
@[simp] theorem setUnit_nextFrame (u : Nat) (x : PUnit) (d : Dev) : (setUnit u x d).nextFrame = d.nextFrame := rfl
@[simp] theorem setUnit_nextCopy (u : Nat) (x : PUnit) (d : Dev) : (setUnit u x d).nextCopy = d.nextCopy := rfl
@[simp] theorem setUnit_ports (u : Nat) (x : PUnit) (d : Dev) : (setUnit u x d).ports = d.ports := rfl
@[simp] theorem setUnit_masters (u : Nat) (x : PUnit) (d : Dev) : (setUnit u x d).masters = d.masters := rfl
@[simp] theorem setUnit_release (u : Nat) (x : PUnit) (d : Dev) : (setUnit u x d).release = d.release := rfl
@[simp] theorem setUnit_dma (u : Nat) (x : PUnit) (d : Dev) : (setUnit u x d).dma = d.dma := rfl
@[simp] theorem setUnit_cistern (u : Nat) (x : PUnit) (d : Dev) : (setUnit u x d).cistern = d.cistern := rfl
@[simp] theorem setUnit_steward (u : Nat) (x : PUnit) (d : Dev) : (setUnit u x d).steward = d.steward := rfl
@[simp] theorem setUnit_cascade (u : Nat) (x : PUnit) (d : Dev) : (setUnit u x d).cascade = d.cascade := rfl
@[simp] theorem setUnit_tables (u : Nat) (x : PUnit) (d : Dev) : (setUnit u x d).tables = d.tables := rfl
@[simp] theorem setUnit_out (u : Nat) (x : PUnit) (d : Dev) : (setUnit u x d).out = d.out := rfl
@[simp] theorem setConf_clock (g : Nat) (x : ConfGroup) (d : Dev) : (setConf g x d).clock = d.clock := rfl
@[simp] theorem setConf_freeIdx (g : Nat) (x : ConfGroup) (d : Dev) : (setConf g x d).freeIdx = d.freeIdx := rfl
@[simp] theorem setConf_boxes (g : Nat) (x : ConfGroup) (d : Dev) : (setConf g x d).boxes = d.boxes := rfl
@[simp] theorem setConf_fns (g : Nat) (x : ConfGroup) (d : Dev) : (setConf g x d).fns = d.fns := rfl
@[simp] theorem setConf_helm (g : Nat) (x : ConfGroup) (d : Dev) : (setConf g x d).helm = d.helm := rfl
@[simp] theorem setConf_coll (g : Nat) (x : ConfGroup) (d : Dev) : (setConf g x d).coll = d.coll := rfl
@[simp] theorem setConf_guard (g : Nat) (x : ConfGroup) (d : Dev) : (setConf g x d).guard = d.guard := rfl
@[simp] theorem setConf_time (g : Nat) (x : ConfGroup) (d : Dev) : (setConf g x d).time = d.time := rfl
@[simp] theorem setConf_ptp (g : Nat) (x : ConfGroup) (d : Dev) : (setConf g x d).ptp = d.ptp := rfl
@[simp] theorem setConf_ledger (g : Nat) (x : ConfGroup) (d : Dev) : (setConf g x d).ledger = d.ledger := rfl
@[simp] theorem setConf_pair (g : Nat) (x : ConfGroup) (d : Dev) : (setConf g x d).pair = d.pair := rfl
@[simp] theorem setConf_counters (g : Nat) (x : ConfGroup) (d : Dev) : (setConf g x d).counters = d.counters := rfl
@[simp] theorem setConf_tm (g : Nat) (x : ConfGroup) (d : Dev) : (setConf g x d).tm = d.tm := rfl
@[simp] theorem setConf_spec (g : Nat) (x : ConfGroup) (d : Dev) : (setConf g x d).spec = d.spec := rfl
@[simp] theorem setConf_frames (g : Nat) (x : ConfGroup) (d : Dev) : (setConf g x d).frames = d.frames := rfl
@[simp] theorem setConf_copies (g : Nat) (x : ConfGroup) (d : Dev) : (setConf g x d).copies = d.copies := rfl
@[simp] theorem setConf_nextFrame (g : Nat) (x : ConfGroup) (d : Dev) : (setConf g x d).nextFrame = d.nextFrame := rfl
@[simp] theorem setConf_nextCopy (g : Nat) (x : ConfGroup) (d : Dev) : (setConf g x d).nextCopy = d.nextCopy := rfl
@[simp] theorem setConf_ports (g : Nat) (x : ConfGroup) (d : Dev) : (setConf g x d).ports = d.ports := rfl
@[simp] theorem setConf_masters (g : Nat) (x : ConfGroup) (d : Dev) : (setConf g x d).masters = d.masters := rfl
@[simp] theorem setConf_power (g : Nat) (x : ConfGroup) (d : Dev) : (setConf g x d).power = d.power := rfl
@[simp] theorem setConf_dma (g : Nat) (x : ConfGroup) (d : Dev) : (setConf g x d).dma = d.dma := rfl
@[simp] theorem setConf_cistern (g : Nat) (x : ConfGroup) (d : Dev) : (setConf g x d).cistern = d.cistern := rfl
@[simp] theorem setConf_steward (g : Nat) (x : ConfGroup) (d : Dev) : (setConf g x d).steward = d.steward := rfl
@[simp] theorem setConf_cascade (g : Nat) (x : ConfGroup) (d : Dev) : (setConf g x d).cascade = d.cascade := rfl
@[simp] theorem setConf_tables (g : Nat) (x : ConfGroup) (d : Dev) : (setConf g x d).tables = d.tables := rfl
@[simp] theorem setConf_out (g : Nat) (x : ConfGroup) (d : Dev) : (setConf g x d).out = d.out := rfl
@[simp] theorem setLevel_clock (g : Nat) (x : LevelGroup) (d : Dev) : (setLevel g x d).clock = d.clock := rfl
@[simp] theorem setLevel_freeIdx (g : Nat) (x : LevelGroup) (d : Dev) : (setLevel g x d).freeIdx = d.freeIdx := rfl
@[simp] theorem setLevel_boxes (g : Nat) (x : LevelGroup) (d : Dev) : (setLevel g x d).boxes = d.boxes := rfl
@[simp] theorem setLevel_fns (g : Nat) (x : LevelGroup) (d : Dev) : (setLevel g x d).fns = d.fns := rfl
@[simp] theorem setLevel_helm (g : Nat) (x : LevelGroup) (d : Dev) : (setLevel g x d).helm = d.helm := rfl
@[simp] theorem setLevel_coll (g : Nat) (x : LevelGroup) (d : Dev) : (setLevel g x d).coll = d.coll := rfl
@[simp] theorem setLevel_guard (g : Nat) (x : LevelGroup) (d : Dev) : (setLevel g x d).guard = d.guard := rfl
@[simp] theorem setLevel_time (g : Nat) (x : LevelGroup) (d : Dev) : (setLevel g x d).time = d.time := rfl
@[simp] theorem setLevel_ptp (g : Nat) (x : LevelGroup) (d : Dev) : (setLevel g x d).ptp = d.ptp := rfl
@[simp] theorem setLevel_ledger (g : Nat) (x : LevelGroup) (d : Dev) : (setLevel g x d).ledger = d.ledger := rfl
@[simp] theorem setLevel_pair (g : Nat) (x : LevelGroup) (d : Dev) : (setLevel g x d).pair = d.pair := rfl
@[simp] theorem setLevel_counters (g : Nat) (x : LevelGroup) (d : Dev) : (setLevel g x d).counters = d.counters := rfl
@[simp] theorem setLevel_tm (g : Nat) (x : LevelGroup) (d : Dev) : (setLevel g x d).tm = d.tm := rfl
@[simp] theorem setLevel_spec (g : Nat) (x : LevelGroup) (d : Dev) : (setLevel g x d).spec = d.spec := rfl
@[simp] theorem setLevel_frames (g : Nat) (x : LevelGroup) (d : Dev) : (setLevel g x d).frames = d.frames := rfl
@[simp] theorem setLevel_copies (g : Nat) (x : LevelGroup) (d : Dev) : (setLevel g x d).copies = d.copies := rfl
@[simp] theorem setLevel_nextFrame (g : Nat) (x : LevelGroup) (d : Dev) : (setLevel g x d).nextFrame = d.nextFrame := rfl
@[simp] theorem setLevel_nextCopy (g : Nat) (x : LevelGroup) (d : Dev) : (setLevel g x d).nextCopy = d.nextCopy := rfl
@[simp] theorem setLevel_ports (g : Nat) (x : LevelGroup) (d : Dev) : (setLevel g x d).ports = d.ports := rfl
@[simp] theorem setLevel_masters (g : Nat) (x : LevelGroup) (d : Dev) : (setLevel g x d).masters = d.masters := rfl
@[simp] theorem setLevel_power (g : Nat) (x : LevelGroup) (d : Dev) : (setLevel g x d).power = d.power := rfl
@[simp] theorem setLevel_dma (g : Nat) (x : LevelGroup) (d : Dev) : (setLevel g x d).dma = d.dma := rfl
@[simp] theorem setLevel_cistern (g : Nat) (x : LevelGroup) (d : Dev) : (setLevel g x d).cistern = d.cistern := rfl
@[simp] theorem setLevel_steward (g : Nat) (x : LevelGroup) (d : Dev) : (setLevel g x d).steward = d.steward := rfl
@[simp] theorem setLevel_cascade (g : Nat) (x : LevelGroup) (d : Dev) : (setLevel g x d).cascade = d.cascade := rfl
@[simp] theorem setLevel_tables (g : Nat) (x : LevelGroup) (d : Dev) : (setLevel g x d).tables = d.tables := rfl
@[simp] theorem setLevel_out (g : Nat) (x : LevelGroup) (d : Dev) : (setLevel g x d).out = d.out := rfl
@[simp] theorem setChan_clock (c : Nat) (x : Channel) (d : Dev) : (setChan c x d).clock = d.clock := rfl
@[simp] theorem setChan_freeIdx (c : Nat) (x : Channel) (d : Dev) : (setChan c x d).freeIdx = d.freeIdx := rfl
@[simp] theorem setChan_boxes (c : Nat) (x : Channel) (d : Dev) : (setChan c x d).boxes = d.boxes := rfl
@[simp] theorem setChan_fns (c : Nat) (x : Channel) (d : Dev) : (setChan c x d).fns = d.fns := rfl
@[simp] theorem setChan_helm (c : Nat) (x : Channel) (d : Dev) : (setChan c x d).helm = d.helm := rfl
@[simp] theorem setChan_coll (c : Nat) (x : Channel) (d : Dev) : (setChan c x d).coll = d.coll := rfl
@[simp] theorem setChan_guard (c : Nat) (x : Channel) (d : Dev) : (setChan c x d).guard = d.guard := rfl
@[simp] theorem setChan_time (c : Nat) (x : Channel) (d : Dev) : (setChan c x d).time = d.time := rfl
@[simp] theorem setChan_ptp (c : Nat) (x : Channel) (d : Dev) : (setChan c x d).ptp = d.ptp := rfl
@[simp] theorem setChan_ledger (c : Nat) (x : Channel) (d : Dev) : (setChan c x d).ledger = d.ledger := rfl
@[simp] theorem setChan_pair (c : Nat) (x : Channel) (d : Dev) : (setChan c x d).pair = d.pair := rfl
@[simp] theorem setChan_counters (c : Nat) (x : Channel) (d : Dev) : (setChan c x d).counters = d.counters := rfl
@[simp] theorem setChan_tm (c : Nat) (x : Channel) (d : Dev) : (setChan c x d).tm = d.tm := rfl
@[simp] theorem setChan_spec (c : Nat) (x : Channel) (d : Dev) : (setChan c x d).spec = d.spec := rfl
@[simp] theorem setChan_frames (c : Nat) (x : Channel) (d : Dev) : (setChan c x d).frames = d.frames := rfl
@[simp] theorem setChan_copies (c : Nat) (x : Channel) (d : Dev) : (setChan c x d).copies = d.copies := rfl
@[simp] theorem setChan_nextFrame (c : Nat) (x : Channel) (d : Dev) : (setChan c x d).nextFrame = d.nextFrame := rfl
@[simp] theorem setChan_nextCopy (c : Nat) (x : Channel) (d : Dev) : (setChan c x d).nextCopy = d.nextCopy := rfl
@[simp] theorem setChan_ports (c : Nat) (x : Channel) (d : Dev) : (setChan c x d).ports = d.ports := rfl
@[simp] theorem setChan_masters (c : Nat) (x : Channel) (d : Dev) : (setChan c x d).masters = d.masters := rfl
@[simp] theorem setChan_power (c : Nat) (x : Channel) (d : Dev) : (setChan c x d).power = d.power := rfl
@[simp] theorem setChan_release (c : Nat) (x : Channel) (d : Dev) : (setChan c x d).release = d.release := rfl
@[simp] theorem setChan_dma (c : Nat) (x : Channel) (d : Dev) : (setChan c x d).dma = d.dma := rfl
@[simp] theorem setChan_steward (c : Nat) (x : Channel) (d : Dev) : (setChan c x d).steward = d.steward := rfl
@[simp] theorem setChan_cascade (c : Nat) (x : Channel) (d : Dev) : (setChan c x d).cascade = d.cascade := rfl
@[simp] theorem setChan_tables (c : Nat) (x : Channel) (d : Dev) : (setChan c x d).tables = d.tables := rfl
@[simp] theorem setChan_out (c : Nat) (x : Channel) (d : Dev) : (setChan c x d).out = d.out := rfl
@[simp] theorem setBasin_clock (b : Nat) (x : Basin) (d : Dev) : (setBasin b x d).clock = d.clock := rfl
@[simp] theorem setBasin_freeIdx (b : Nat) (x : Basin) (d : Dev) : (setBasin b x d).freeIdx = d.freeIdx := rfl
@[simp] theorem setBasin_boxes (b : Nat) (x : Basin) (d : Dev) : (setBasin b x d).boxes = d.boxes := rfl
@[simp] theorem setBasin_fns (b : Nat) (x : Basin) (d : Dev) : (setBasin b x d).fns = d.fns := rfl
@[simp] theorem setBasin_helm (b : Nat) (x : Basin) (d : Dev) : (setBasin b x d).helm = d.helm := rfl
@[simp] theorem setBasin_coll (b : Nat) (x : Basin) (d : Dev) : (setBasin b x d).coll = d.coll := rfl
@[simp] theorem setBasin_guard (b : Nat) (x : Basin) (d : Dev) : (setBasin b x d).guard = d.guard := rfl
@[simp] theorem setBasin_time (b : Nat) (x : Basin) (d : Dev) : (setBasin b x d).time = d.time := rfl
@[simp] theorem setBasin_ptp (b : Nat) (x : Basin) (d : Dev) : (setBasin b x d).ptp = d.ptp := rfl
@[simp] theorem setBasin_ledger (b : Nat) (x : Basin) (d : Dev) : (setBasin b x d).ledger = d.ledger := rfl
@[simp] theorem setBasin_pair (b : Nat) (x : Basin) (d : Dev) : (setBasin b x d).pair = d.pair := rfl
@[simp] theorem setBasin_counters (b : Nat) (x : Basin) (d : Dev) : (setBasin b x d).counters = d.counters := rfl
@[simp] theorem setBasin_tm (b : Nat) (x : Basin) (d : Dev) : (setBasin b x d).tm = d.tm := rfl
@[simp] theorem setBasin_spec (b : Nat) (x : Basin) (d : Dev) : (setBasin b x d).spec = d.spec := rfl
@[simp] theorem setBasin_frames (b : Nat) (x : Basin) (d : Dev) : (setBasin b x d).frames = d.frames := rfl
@[simp] theorem setBasin_copies (b : Nat) (x : Basin) (d : Dev) : (setBasin b x d).copies = d.copies := rfl
@[simp] theorem setBasin_nextFrame (b : Nat) (x : Basin) (d : Dev) : (setBasin b x d).nextFrame = d.nextFrame := rfl
@[simp] theorem setBasin_nextCopy (b : Nat) (x : Basin) (d : Dev) : (setBasin b x d).nextCopy = d.nextCopy := rfl
@[simp] theorem setBasin_ports (b : Nat) (x : Basin) (d : Dev) : (setBasin b x d).ports = d.ports := rfl
@[simp] theorem setBasin_masters (b : Nat) (x : Basin) (d : Dev) : (setBasin b x d).masters = d.masters := rfl
@[simp] theorem setBasin_power (b : Nat) (x : Basin) (d : Dev) : (setBasin b x d).power = d.power := rfl
@[simp] theorem setBasin_release (b : Nat) (x : Basin) (d : Dev) : (setBasin b x d).release = d.release := rfl
@[simp] theorem setBasin_dma (b : Nat) (x : Basin) (d : Dev) : (setBasin b x d).dma = d.dma := rfl
@[simp] theorem setBasin_cistern (b : Nat) (x : Basin) (d : Dev) : (setBasin b x d).cistern = d.cistern := rfl
@[simp] theorem setBasin_steward (b : Nat) (x : Basin) (d : Dev) : (setBasin b x d).steward = d.steward := rfl
@[simp] theorem setBasin_cascade (b : Nat) (x : Basin) (d : Dev) : (setBasin b x d).cascade = d.cascade := rfl
@[simp] theorem setBasin_out (b : Nat) (x : Basin) (d : Dev) : (setBasin b x d).out = d.out := rfl
@[simp] theorem setLedger_clock (x : Ledger) (d : Dev) : (setLedger x d).clock = d.clock := rfl
@[simp] theorem setLedger_freeIdx (x : Ledger) (d : Dev) : (setLedger x d).freeIdx = d.freeIdx := rfl
@[simp] theorem setLedger_boxes (x : Ledger) (d : Dev) : (setLedger x d).boxes = d.boxes := rfl
@[simp] theorem setLedger_fns (x : Ledger) (d : Dev) : (setLedger x d).fns = d.fns := rfl
@[simp] theorem setLedger_helm (x : Ledger) (d : Dev) : (setLedger x d).helm = d.helm := rfl
@[simp] theorem setLedger_coll (x : Ledger) (d : Dev) : (setLedger x d).coll = d.coll := rfl
@[simp] theorem setLedger_guard (x : Ledger) (d : Dev) : (setLedger x d).guard = d.guard := rfl
@[simp] theorem setLedger_time (x : Ledger) (d : Dev) : (setLedger x d).time = d.time := rfl
@[simp] theorem setLedger_ptp (x : Ledger) (d : Dev) : (setLedger x d).ptp = d.ptp := rfl
@[simp] theorem setLedger_pair (x : Ledger) (d : Dev) : (setLedger x d).pair = d.pair := rfl
@[simp] theorem setLedger_counters (x : Ledger) (d : Dev) : (setLedger x d).counters = d.counters := rfl
@[simp] theorem setLedger_tm (x : Ledger) (d : Dev) : (setLedger x d).tm = d.tm := rfl
@[simp] theorem setLedger_spec (x : Ledger) (d : Dev) : (setLedger x d).spec = d.spec := rfl
@[simp] theorem setLedger_frames (x : Ledger) (d : Dev) : (setLedger x d).frames = d.frames := rfl
@[simp] theorem setLedger_copies (x : Ledger) (d : Dev) : (setLedger x d).copies = d.copies := rfl
@[simp] theorem setLedger_nextFrame (x : Ledger) (d : Dev) : (setLedger x d).nextFrame = d.nextFrame := rfl
@[simp] theorem setLedger_nextCopy (x : Ledger) (d : Dev) : (setLedger x d).nextCopy = d.nextCopy := rfl
@[simp] theorem setLedger_ports (x : Ledger) (d : Dev) : (setLedger x d).ports = d.ports := rfl
@[simp] theorem setLedger_masters (x : Ledger) (d : Dev) : (setLedger x d).masters = d.masters := rfl
@[simp] theorem setLedger_power (x : Ledger) (d : Dev) : (setLedger x d).power = d.power := rfl
@[simp] theorem setLedger_release (x : Ledger) (d : Dev) : (setLedger x d).release = d.release := rfl
@[simp] theorem setLedger_dma (x : Ledger) (d : Dev) : (setLedger x d).dma = d.dma := rfl
@[simp] theorem setLedger_cistern (x : Ledger) (d : Dev) : (setLedger x d).cistern = d.cistern := rfl
@[simp] theorem setLedger_steward (x : Ledger) (d : Dev) : (setLedger x d).steward = d.steward := rfl
@[simp] theorem setLedger_cascade (x : Ledger) (d : Dev) : (setLedger x d).cascade = d.cascade := rfl
@[simp] theorem setLedger_tables (x : Ledger) (d : Dev) : (setLedger x d).tables = d.tables := rfl
@[simp] theorem setLedger_out (x : Ledger) (d : Dev) : (setLedger x d).out = d.out := rfl
@[simp] theorem setCascade_clock (x : Cascade) (d : Dev) : (setCascade x d).clock = d.clock := rfl
@[simp] theorem setCascade_freeIdx (x : Cascade) (d : Dev) : (setCascade x d).freeIdx = d.freeIdx := rfl
@[simp] theorem setCascade_boxes (x : Cascade) (d : Dev) : (setCascade x d).boxes = d.boxes := rfl
@[simp] theorem setCascade_fns (x : Cascade) (d : Dev) : (setCascade x d).fns = d.fns := rfl
@[simp] theorem setCascade_helm (x : Cascade) (d : Dev) : (setCascade x d).helm = d.helm := rfl
@[simp] theorem setCascade_coll (x : Cascade) (d : Dev) : (setCascade x d).coll = d.coll := rfl
@[simp] theorem setCascade_guard (x : Cascade) (d : Dev) : (setCascade x d).guard = d.guard := rfl
@[simp] theorem setCascade_time (x : Cascade) (d : Dev) : (setCascade x d).time = d.time := rfl
@[simp] theorem setCascade_ptp (x : Cascade) (d : Dev) : (setCascade x d).ptp = d.ptp := rfl
@[simp] theorem setCascade_ledger (x : Cascade) (d : Dev) : (setCascade x d).ledger = d.ledger := rfl
@[simp] theorem setCascade_pair (x : Cascade) (d : Dev) : (setCascade x d).pair = d.pair := rfl
@[simp] theorem setCascade_counters (x : Cascade) (d : Dev) : (setCascade x d).counters = d.counters := rfl
@[simp] theorem setCascade_tm (x : Cascade) (d : Dev) : (setCascade x d).tm = d.tm := rfl
@[simp] theorem setCascade_spec (x : Cascade) (d : Dev) : (setCascade x d).spec = d.spec := rfl
@[simp] theorem setCascade_frames (x : Cascade) (d : Dev) : (setCascade x d).frames = d.frames := rfl
@[simp] theorem setCascade_copies (x : Cascade) (d : Dev) : (setCascade x d).copies = d.copies := rfl
@[simp] theorem setCascade_nextFrame (x : Cascade) (d : Dev) : (setCascade x d).nextFrame = d.nextFrame := rfl
@[simp] theorem setCascade_nextCopy (x : Cascade) (d : Dev) : (setCascade x d).nextCopy = d.nextCopy := rfl
@[simp] theorem setCascade_ports (x : Cascade) (d : Dev) : (setCascade x d).ports = d.ports := rfl
@[simp] theorem setCascade_masters (x : Cascade) (d : Dev) : (setCascade x d).masters = d.masters := rfl
@[simp] theorem setCascade_power (x : Cascade) (d : Dev) : (setCascade x d).power = d.power := rfl
@[simp] theorem setCascade_release (x : Cascade) (d : Dev) : (setCascade x d).release = d.release := rfl
@[simp] theorem setCascade_dma (x : Cascade) (d : Dev) : (setCascade x d).dma = d.dma := rfl
@[simp] theorem setCascade_cistern (x : Cascade) (d : Dev) : (setCascade x d).cistern = d.cistern := rfl
@[simp] theorem setCascade_steward (x : Cascade) (d : Dev) : (setCascade x d).steward = d.steward := rfl
@[simp] theorem setCascade_tables (x : Cascade) (d : Dev) : (setCascade x d).tables = d.tables := rfl
@[simp] theorem setCascade_out (x : Cascade) (d : Dev) : (setCascade x d).out = d.out := rfl
@[simp] theorem setPair_clock (x : Pair) (d : Dev) : (setPair x d).clock = d.clock := rfl
@[simp] theorem setPair_freeIdx (x : Pair) (d : Dev) : (setPair x d).freeIdx = d.freeIdx := rfl
@[simp] theorem setPair_boxes (x : Pair) (d : Dev) : (setPair x d).boxes = d.boxes := rfl
@[simp] theorem setPair_fns (x : Pair) (d : Dev) : (setPair x d).fns = d.fns := rfl
@[simp] theorem setPair_helm (x : Pair) (d : Dev) : (setPair x d).helm = d.helm := rfl
@[simp] theorem setPair_coll (x : Pair) (d : Dev) : (setPair x d).coll = d.coll := rfl
@[simp] theorem setPair_guard (x : Pair) (d : Dev) : (setPair x d).guard = d.guard := rfl
@[simp] theorem setPair_time (x : Pair) (d : Dev) : (setPair x d).time = d.time := rfl
@[simp] theorem setPair_ptp (x : Pair) (d : Dev) : (setPair x d).ptp = d.ptp := rfl
@[simp] theorem setPair_ledger (x : Pair) (d : Dev) : (setPair x d).ledger = d.ledger := rfl
@[simp] theorem setPair_counters (x : Pair) (d : Dev) : (setPair x d).counters = d.counters := rfl
@[simp] theorem setPair_tm (x : Pair) (d : Dev) : (setPair x d).tm = d.tm := rfl
@[simp] theorem setPair_spec (x : Pair) (d : Dev) : (setPair x d).spec = d.spec := rfl
@[simp] theorem setPair_frames (x : Pair) (d : Dev) : (setPair x d).frames = d.frames := rfl
@[simp] theorem setPair_copies (x : Pair) (d : Dev) : (setPair x d).copies = d.copies := rfl
@[simp] theorem setPair_nextFrame (x : Pair) (d : Dev) : (setPair x d).nextFrame = d.nextFrame := rfl
@[simp] theorem setPair_nextCopy (x : Pair) (d : Dev) : (setPair x d).nextCopy = d.nextCopy := rfl
@[simp] theorem setPair_ports (x : Pair) (d : Dev) : (setPair x d).ports = d.ports := rfl
@[simp] theorem setPair_masters (x : Pair) (d : Dev) : (setPair x d).masters = d.masters := rfl
@[simp] theorem setPair_power (x : Pair) (d : Dev) : (setPair x d).power = d.power := rfl
@[simp] theorem setPair_release (x : Pair) (d : Dev) : (setPair x d).release = d.release := rfl
@[simp] theorem setPair_dma (x : Pair) (d : Dev) : (setPair x d).dma = d.dma := rfl
@[simp] theorem setPair_cistern (x : Pair) (d : Dev) : (setPair x d).cistern = d.cistern := rfl
@[simp] theorem setPair_steward (x : Pair) (d : Dev) : (setPair x d).steward = d.steward := rfl
@[simp] theorem setPair_cascade (x : Pair) (d : Dev) : (setPair x d).cascade = d.cascade := rfl
@[simp] theorem setPair_tables (x : Pair) (d : Dev) : (setPair x d).tables = d.tables := rfl
@[simp] theorem setPair_out (x : Pair) (d : Dev) : (setPair x d).out = d.out := rfl
@[simp] theorem setTime_clock (x : Time) (d : Dev) : (setTime x d).clock = d.clock := rfl
@[simp] theorem setTime_freeIdx (x : Time) (d : Dev) : (setTime x d).freeIdx = d.freeIdx := rfl
@[simp] theorem setTime_boxes (x : Time) (d : Dev) : (setTime x d).boxes = d.boxes := rfl
@[simp] theorem setTime_fns (x : Time) (d : Dev) : (setTime x d).fns = d.fns := rfl
@[simp] theorem setTime_helm (x : Time) (d : Dev) : (setTime x d).helm = d.helm := rfl
@[simp] theorem setTime_coll (x : Time) (d : Dev) : (setTime x d).coll = d.coll := rfl
@[simp] theorem setTime_guard (x : Time) (d : Dev) : (setTime x d).guard = d.guard := rfl
@[simp] theorem setTime_ptp (x : Time) (d : Dev) : (setTime x d).ptp = d.ptp := rfl
@[simp] theorem setTime_ledger (x : Time) (d : Dev) : (setTime x d).ledger = d.ledger := rfl
@[simp] theorem setTime_pair (x : Time) (d : Dev) : (setTime x d).pair = d.pair := rfl
@[simp] theorem setTime_counters (x : Time) (d : Dev) : (setTime x d).counters = d.counters := rfl
@[simp] theorem setTime_tm (x : Time) (d : Dev) : (setTime x d).tm = d.tm := rfl
@[simp] theorem setTime_spec (x : Time) (d : Dev) : (setTime x d).spec = d.spec := rfl
@[simp] theorem setTime_frames (x : Time) (d : Dev) : (setTime x d).frames = d.frames := rfl
@[simp] theorem setTime_copies (x : Time) (d : Dev) : (setTime x d).copies = d.copies := rfl
@[simp] theorem setTime_nextFrame (x : Time) (d : Dev) : (setTime x d).nextFrame = d.nextFrame := rfl
@[simp] theorem setTime_nextCopy (x : Time) (d : Dev) : (setTime x d).nextCopy = d.nextCopy := rfl
@[simp] theorem setTime_ports (x : Time) (d : Dev) : (setTime x d).ports = d.ports := rfl
@[simp] theorem setTime_masters (x : Time) (d : Dev) : (setTime x d).masters = d.masters := rfl
@[simp] theorem setTime_power (x : Time) (d : Dev) : (setTime x d).power = d.power := rfl
@[simp] theorem setTime_release (x : Time) (d : Dev) : (setTime x d).release = d.release := rfl
@[simp] theorem setTime_dma (x : Time) (d : Dev) : (setTime x d).dma = d.dma := rfl
@[simp] theorem setTime_cistern (x : Time) (d : Dev) : (setTime x d).cistern = d.cistern := rfl
@[simp] theorem setTime_steward (x : Time) (d : Dev) : (setTime x d).steward = d.steward := rfl
@[simp] theorem setTime_cascade (x : Time) (d : Dev) : (setTime x d).cascade = d.cascade := rfl
@[simp] theorem setTime_tables (x : Time) (d : Dev) : (setTime x d).tables = d.tables := rfl
@[simp] theorem setTime_out (x : Time) (d : Dev) : (setTime x d).out = d.out := rfl
@[simp] theorem setPower_clock (x : Power) (d : Dev) : (setPower x d).clock = d.clock := rfl
@[simp] theorem setPower_freeIdx (x : Power) (d : Dev) : (setPower x d).freeIdx = d.freeIdx := rfl
@[simp] theorem setPower_boxes (x : Power) (d : Dev) : (setPower x d).boxes = d.boxes := rfl
@[simp] theorem setPower_fns (x : Power) (d : Dev) : (setPower x d).fns = d.fns := rfl
@[simp] theorem setPower_helm (x : Power) (d : Dev) : (setPower x d).helm = d.helm := rfl
@[simp] theorem setPower_coll (x : Power) (d : Dev) : (setPower x d).coll = d.coll := rfl
@[simp] theorem setPower_guard (x : Power) (d : Dev) : (setPower x d).guard = d.guard := rfl
@[simp] theorem setPower_time (x : Power) (d : Dev) : (setPower x d).time = d.time := rfl
@[simp] theorem setPower_ptp (x : Power) (d : Dev) : (setPower x d).ptp = d.ptp := rfl
@[simp] theorem setPower_ledger (x : Power) (d : Dev) : (setPower x d).ledger = d.ledger := rfl
@[simp] theorem setPower_pair (x : Power) (d : Dev) : (setPower x d).pair = d.pair := rfl
@[simp] theorem setPower_counters (x : Power) (d : Dev) : (setPower x d).counters = d.counters := rfl
@[simp] theorem setPower_tm (x : Power) (d : Dev) : (setPower x d).tm = d.tm := rfl
@[simp] theorem setPower_spec (x : Power) (d : Dev) : (setPower x d).spec = d.spec := rfl
@[simp] theorem setPower_frames (x : Power) (d : Dev) : (setPower x d).frames = d.frames := rfl
@[simp] theorem setPower_copies (x : Power) (d : Dev) : (setPower x d).copies = d.copies := rfl
@[simp] theorem setPower_nextFrame (x : Power) (d : Dev) : (setPower x d).nextFrame = d.nextFrame := rfl
@[simp] theorem setPower_nextCopy (x : Power) (d : Dev) : (setPower x d).nextCopy = d.nextCopy := rfl
@[simp] theorem setPower_ports (x : Power) (d : Dev) : (setPower x d).ports = d.ports := rfl
@[simp] theorem setPower_masters (x : Power) (d : Dev) : (setPower x d).masters = d.masters := rfl
@[simp] theorem setPower_release (x : Power) (d : Dev) : (setPower x d).release = d.release := rfl
@[simp] theorem setPower_dma (x : Power) (d : Dev) : (setPower x d).dma = d.dma := rfl
@[simp] theorem setPower_cistern (x : Power) (d : Dev) : (setPower x d).cistern = d.cistern := rfl
@[simp] theorem setPower_steward (x : Power) (d : Dev) : (setPower x d).steward = d.steward := rfl
@[simp] theorem setPower_cascade (x : Power) (d : Dev) : (setPower x d).cascade = d.cascade := rfl
@[simp] theorem setPower_tables (x : Power) (d : Dev) : (setPower x d).tables = d.tables := rfl
@[simp] theorem setPower_out (x : Power) (d : Dev) : (setPower x d).out = d.out := rfl
@[simp] theorem setSteward_clock (x : Steward) (d : Dev) : (setSteward x d).clock = d.clock := rfl
@[simp] theorem setSteward_freeIdx (x : Steward) (d : Dev) : (setSteward x d).freeIdx = d.freeIdx := rfl
@[simp] theorem setSteward_boxes (x : Steward) (d : Dev) : (setSteward x d).boxes = d.boxes := rfl
@[simp] theorem setSteward_fns (x : Steward) (d : Dev) : (setSteward x d).fns = d.fns := rfl
@[simp] theorem setSteward_helm (x : Steward) (d : Dev) : (setSteward x d).helm = d.helm := rfl
@[simp] theorem setSteward_coll (x : Steward) (d : Dev) : (setSteward x d).coll = d.coll := rfl
@[simp] theorem setSteward_guard (x : Steward) (d : Dev) : (setSteward x d).guard = d.guard := rfl
@[simp] theorem setSteward_time (x : Steward) (d : Dev) : (setSteward x d).time = d.time := rfl
@[simp] theorem setSteward_ptp (x : Steward) (d : Dev) : (setSteward x d).ptp = d.ptp := rfl
@[simp] theorem setSteward_ledger (x : Steward) (d : Dev) : (setSteward x d).ledger = d.ledger := rfl
@[simp] theorem setSteward_pair (x : Steward) (d : Dev) : (setSteward x d).pair = d.pair := rfl
@[simp] theorem setSteward_counters (x : Steward) (d : Dev) : (setSteward x d).counters = d.counters := rfl
@[simp] theorem setSteward_tm (x : Steward) (d : Dev) : (setSteward x d).tm = d.tm := rfl
@[simp] theorem setSteward_spec (x : Steward) (d : Dev) : (setSteward x d).spec = d.spec := rfl
@[simp] theorem setSteward_frames (x : Steward) (d : Dev) : (setSteward x d).frames = d.frames := rfl
@[simp] theorem setSteward_copies (x : Steward) (d : Dev) : (setSteward x d).copies = d.copies := rfl
@[simp] theorem setSteward_nextFrame (x : Steward) (d : Dev) : (setSteward x d).nextFrame = d.nextFrame := rfl
@[simp] theorem setSteward_nextCopy (x : Steward) (d : Dev) : (setSteward x d).nextCopy = d.nextCopy := rfl
@[simp] theorem setSteward_ports (x : Steward) (d : Dev) : (setSteward x d).ports = d.ports := rfl
@[simp] theorem setSteward_masters (x : Steward) (d : Dev) : (setSteward x d).masters = d.masters := rfl
@[simp] theorem setSteward_power (x : Steward) (d : Dev) : (setSteward x d).power = d.power := rfl
@[simp] theorem setSteward_release (x : Steward) (d : Dev) : (setSteward x d).release = d.release := rfl
@[simp] theorem setSteward_dma (x : Steward) (d : Dev) : (setSteward x d).dma = d.dma := rfl
@[simp] theorem setSteward_cistern (x : Steward) (d : Dev) : (setSteward x d).cistern = d.cistern := rfl
@[simp] theorem setSteward_cascade (x : Steward) (d : Dev) : (setSteward x d).cascade = d.cascade := rfl
@[simp] theorem setSteward_tables (x : Steward) (d : Dev) : (setSteward x d).tables = d.tables := rfl
@[simp] theorem setSteward_out (x : Steward) (d : Dev) : (setSteward x d).out = d.out := rfl

-- One entry written, another read -----------------------------------------------------------------------------------------------------

@[simp] theorem portOf_setFn (f n : Nat) (x : Fn) (d : Dev) : portOf (setFn f x d) n = portOf d n := rfl
@[simp] theorem masterOf_setFn (f n : Nat) (x : Fn) (d : Dev) : masterOf (setFn f x d) n = masterOf d n := rfl
@[simp] theorem frameOf_setFn (f n : Nat) (x : Fn) (d : Dev) : frameOf (setFn f x d) n = frameOf d n := rfl
@[simp] theorem copyOf_setFn (f n : Nat) (x : Fn) (d : Dev) : copyOf (setFn f x d) n = copyOf d n := rfl
@[simp] theorem schedOf_setFn (f n : Nat) (x : Fn) (d : Dev) : schedOf (setFn f x d) n = schedOf d n := rfl
@[simp] theorem queueOf_setFn (f n : Nat) (x : Fn) (d : Dev) : queueOf (setFn f x d) n = queueOf d n := rfl
@[simp] theorem groupOf_setFn (f n : Nat) (x : Fn) (d : Dev) : groupOf (setFn f x d) n = groupOf d n := rfl
@[simp] theorem streamOf_setFn (f n : Nat) (x : Fn) (d : Dev) : streamOf (setFn f x d) n = streamOf d n := rfl
@[simp] theorem classOf_setFn (f n : Nat) (x : Fn) (d : Dev) : classOf (setFn f x d) n = classOf d n := rfl
@[simp] theorem ringOf_setFn (f n : Nat) (x : Fn) (d : Dev) : ringOf (setFn f x d) n = ringOf d n := rfl
@[simp] theorem cqOf_setFn (f n : Nat) (x : Fn) (d : Dev) : cqOf (setFn f x d) n = cqOf d n := rfl
@[simp] theorem unitOf_setFn (f n : Nat) (x : Fn) (d : Dev) : unitOf (setFn f x d) n = unitOf d n := rfl
@[simp] theorem confOf_setFn (f n : Nat) (x : Fn) (d : Dev) : confOf (setFn f x d) n = confOf d n := rfl
@[simp] theorem levelOf_setFn (f n : Nat) (x : Fn) (d : Dev) : levelOf (setFn f x d) n = levelOf d n := rfl
@[simp] theorem chanOf_setFn (f n : Nat) (x : Fn) (d : Dev) : chanOf (setFn f x d) n = chanOf d n := rfl
@[simp] theorem basinState_setFn (f n : Nat) (x : Fn) (d : Dev) : basinState (setFn f x d) n = basinState d n := rfl
@[simp] theorem fnOf_setPort (p n : Nat) (x : Port) (d : Dev) : fnOf (setPort p x d) n = fnOf d n := rfl
@[simp] theorem masterOf_setPort (p n : Nat) (x : Port) (d : Dev) : masterOf (setPort p x d) n = masterOf d n := rfl
@[simp] theorem frameOf_setPort (p n : Nat) (x : Port) (d : Dev) : frameOf (setPort p x d) n = frameOf d n := rfl
@[simp] theorem copyOf_setPort (p n : Nat) (x : Port) (d : Dev) : copyOf (setPort p x d) n = copyOf d n := rfl
@[simp] theorem schedOf_setPort (p n : Nat) (x : Port) (d : Dev) : schedOf (setPort p x d) n = schedOf d n := rfl
@[simp] theorem queueOf_setPort (p n : Nat) (x : Port) (d : Dev) : queueOf (setPort p x d) n = queueOf d n := rfl
@[simp] theorem groupOf_setPort (p n : Nat) (x : Port) (d : Dev) : groupOf (setPort p x d) n = groupOf d n := rfl
@[simp] theorem streamOf_setPort (p n : Nat) (x : Port) (d : Dev) : streamOf (setPort p x d) n = streamOf d n := rfl
@[simp] theorem classOf_setPort (p n : Nat) (x : Port) (d : Dev) : classOf (setPort p x d) n = classOf d n := rfl
@[simp] theorem ringOf_setPort (p n : Nat) (x : Port) (d : Dev) : ringOf (setPort p x d) n = ringOf d n := rfl
@[simp] theorem cqOf_setPort (p n : Nat) (x : Port) (d : Dev) : cqOf (setPort p x d) n = cqOf d n := rfl
@[simp] theorem unitOf_setPort (p n : Nat) (x : Port) (d : Dev) : unitOf (setPort p x d) n = unitOf d n := rfl
@[simp] theorem confOf_setPort (p n : Nat) (x : Port) (d : Dev) : confOf (setPort p x d) n = confOf d n := rfl
@[simp] theorem levelOf_setPort (p n : Nat) (x : Port) (d : Dev) : levelOf (setPort p x d) n = levelOf d n := rfl
@[simp] theorem chanOf_setPort (p n : Nat) (x : Port) (d : Dev) : chanOf (setPort p x d) n = chanOf d n := rfl
@[simp] theorem basinState_setPort (p n : Nat) (x : Port) (d : Dev) : basinState (setPort p x d) n = basinState d n := rfl
@[simp] theorem fnOf_setMaster (m n : Nat) (x : I2cMaster) (d : Dev) : fnOf (setMaster m x d) n = fnOf d n := rfl
@[simp] theorem portOf_setMaster (m n : Nat) (x : I2cMaster) (d : Dev) : portOf (setMaster m x d) n = portOf d n := rfl
@[simp] theorem frameOf_setMaster (m n : Nat) (x : I2cMaster) (d : Dev) : frameOf (setMaster m x d) n = frameOf d n := rfl
@[simp] theorem copyOf_setMaster (m n : Nat) (x : I2cMaster) (d : Dev) : copyOf (setMaster m x d) n = copyOf d n := rfl
@[simp] theorem schedOf_setMaster (m n : Nat) (x : I2cMaster) (d : Dev) : schedOf (setMaster m x d) n = schedOf d n := rfl
@[simp] theorem queueOf_setMaster (m n : Nat) (x : I2cMaster) (d : Dev) : queueOf (setMaster m x d) n = queueOf d n := rfl
@[simp] theorem groupOf_setMaster (m n : Nat) (x : I2cMaster) (d : Dev) : groupOf (setMaster m x d) n = groupOf d n := rfl
@[simp] theorem streamOf_setMaster (m n : Nat) (x : I2cMaster) (d : Dev) : streamOf (setMaster m x d) n = streamOf d n := rfl
@[simp] theorem classOf_setMaster (m n : Nat) (x : I2cMaster) (d : Dev) : classOf (setMaster m x d) n = classOf d n := rfl
@[simp] theorem ringOf_setMaster (m n : Nat) (x : I2cMaster) (d : Dev) : ringOf (setMaster m x d) n = ringOf d n := rfl
@[simp] theorem cqOf_setMaster (m n : Nat) (x : I2cMaster) (d : Dev) : cqOf (setMaster m x d) n = cqOf d n := rfl
@[simp] theorem unitOf_setMaster (m n : Nat) (x : I2cMaster) (d : Dev) : unitOf (setMaster m x d) n = unitOf d n := rfl
@[simp] theorem confOf_setMaster (m n : Nat) (x : I2cMaster) (d : Dev) : confOf (setMaster m x d) n = confOf d n := rfl
@[simp] theorem levelOf_setMaster (m n : Nat) (x : I2cMaster) (d : Dev) : levelOf (setMaster m x d) n = levelOf d n := rfl
@[simp] theorem chanOf_setMaster (m n : Nat) (x : I2cMaster) (d : Dev) : chanOf (setMaster m x d) n = chanOf d n := rfl
@[simp] theorem basinState_setMaster (m n : Nat) (x : I2cMaster) (d : Dev) : basinState (setMaster m x d) n = basinState d n := rfl
@[simp] theorem fnOf_setFrame (i n : Nat) (x : Frame) (d : Dev) : fnOf (setFrame i x d) n = fnOf d n := rfl
@[simp] theorem portOf_setFrame (i n : Nat) (x : Frame) (d : Dev) : portOf (setFrame i x d) n = portOf d n := rfl
@[simp] theorem masterOf_setFrame (i n : Nat) (x : Frame) (d : Dev) : masterOf (setFrame i x d) n = masterOf d n := rfl
@[simp] theorem copyOf_setFrame (i n : Nat) (x : Frame) (d : Dev) : copyOf (setFrame i x d) n = copyOf d n := rfl
@[simp] theorem schedOf_setFrame (i n : Nat) (x : Frame) (d : Dev) : schedOf (setFrame i x d) n = schedOf d n := rfl
@[simp] theorem queueOf_setFrame (i n : Nat) (x : Frame) (d : Dev) : queueOf (setFrame i x d) n = queueOf d n := rfl
@[simp] theorem groupOf_setFrame (i n : Nat) (x : Frame) (d : Dev) : groupOf (setFrame i x d) n = groupOf d n := rfl
@[simp] theorem streamOf_setFrame (i n : Nat) (x : Frame) (d : Dev) : streamOf (setFrame i x d) n = streamOf d n := rfl
@[simp] theorem classOf_setFrame (i n : Nat) (x : Frame) (d : Dev) : classOf (setFrame i x d) n = classOf d n := rfl
@[simp] theorem ringOf_setFrame (i n : Nat) (x : Frame) (d : Dev) : ringOf (setFrame i x d) n = ringOf d n := rfl
@[simp] theorem cqOf_setFrame (i n : Nat) (x : Frame) (d : Dev) : cqOf (setFrame i x d) n = cqOf d n := rfl
@[simp] theorem unitOf_setFrame (i n : Nat) (x : Frame) (d : Dev) : unitOf (setFrame i x d) n = unitOf d n := rfl
@[simp] theorem confOf_setFrame (i n : Nat) (x : Frame) (d : Dev) : confOf (setFrame i x d) n = confOf d n := rfl
@[simp] theorem levelOf_setFrame (i n : Nat) (x : Frame) (d : Dev) : levelOf (setFrame i x d) n = levelOf d n := rfl
@[simp] theorem chanOf_setFrame (i n : Nat) (x : Frame) (d : Dev) : chanOf (setFrame i x d) n = chanOf d n := rfl
@[simp] theorem basinState_setFrame (i n : Nat) (x : Frame) (d : Dev) : basinState (setFrame i x d) n = basinState d n := rfl
@[simp] theorem fnOf_setCopy (i n : Nat) (x : Copy) (d : Dev) : fnOf (setCopy i x d) n = fnOf d n := rfl
@[simp] theorem portOf_setCopy (i n : Nat) (x : Copy) (d : Dev) : portOf (setCopy i x d) n = portOf d n := rfl
@[simp] theorem masterOf_setCopy (i n : Nat) (x : Copy) (d : Dev) : masterOf (setCopy i x d) n = masterOf d n := rfl
@[simp] theorem frameOf_setCopy (i n : Nat) (x : Copy) (d : Dev) : frameOf (setCopy i x d) n = frameOf d n := rfl
@[simp] theorem schedOf_setCopy (i n : Nat) (x : Copy) (d : Dev) : schedOf (setCopy i x d) n = schedOf d n := rfl
@[simp] theorem queueOf_setCopy (i n : Nat) (x : Copy) (d : Dev) : queueOf (setCopy i x d) n = queueOf d n := rfl
@[simp] theorem groupOf_setCopy (i n : Nat) (x : Copy) (d : Dev) : groupOf (setCopy i x d) n = groupOf d n := rfl
@[simp] theorem streamOf_setCopy (i n : Nat) (x : Copy) (d : Dev) : streamOf (setCopy i x d) n = streamOf d n := rfl
@[simp] theorem classOf_setCopy (i n : Nat) (x : Copy) (d : Dev) : classOf (setCopy i x d) n = classOf d n := rfl
@[simp] theorem ringOf_setCopy (i n : Nat) (x : Copy) (d : Dev) : ringOf (setCopy i x d) n = ringOf d n := rfl
@[simp] theorem cqOf_setCopy (i n : Nat) (x : Copy) (d : Dev) : cqOf (setCopy i x d) n = cqOf d n := rfl
@[simp] theorem unitOf_setCopy (i n : Nat) (x : Copy) (d : Dev) : unitOf (setCopy i x d) n = unitOf d n := rfl
@[simp] theorem confOf_setCopy (i n : Nat) (x : Copy) (d : Dev) : confOf (setCopy i x d) n = confOf d n := rfl
@[simp] theorem levelOf_setCopy (i n : Nat) (x : Copy) (d : Dev) : levelOf (setCopy i x d) n = levelOf d n := rfl
@[simp] theorem chanOf_setCopy (i n : Nat) (x : Copy) (d : Dev) : chanOf (setCopy i x d) n = chanOf d n := rfl
@[simp] theorem basinState_setCopy (i n : Nat) (x : Copy) (d : Dev) : basinState (setCopy i x d) n = basinState d n := rfl
@[simp] theorem fnOf_setSched (p n : Nat) (x : Sched) (d : Dev) : fnOf (setSched p x d) n = fnOf d n := rfl
@[simp] theorem portOf_setSched (p n : Nat) (x : Sched) (d : Dev) : portOf (setSched p x d) n = portOf d n := rfl
@[simp] theorem masterOf_setSched (p n : Nat) (x : Sched) (d : Dev) : masterOf (setSched p x d) n = masterOf d n := rfl
@[simp] theorem frameOf_setSched (p n : Nat) (x : Sched) (d : Dev) : frameOf (setSched p x d) n = frameOf d n := rfl
@[simp] theorem copyOf_setSched (p n : Nat) (x : Sched) (d : Dev) : copyOf (setSched p x d) n = copyOf d n := rfl
@[simp] theorem queueOf_setSched (p n : Nat) (x : Sched) (d : Dev) : queueOf (setSched p x d) n = queueOf d n := rfl
@[simp] theorem groupOf_setSched (p n : Nat) (x : Sched) (d : Dev) : groupOf (setSched p x d) n = groupOf d n := rfl
@[simp] theorem streamOf_setSched (p n : Nat) (x : Sched) (d : Dev) : streamOf (setSched p x d) n = streamOf d n := rfl
@[simp] theorem classOf_setSched (p n : Nat) (x : Sched) (d : Dev) : classOf (setSched p x d) n = classOf d n := rfl
@[simp] theorem ringOf_setSched (p n : Nat) (x : Sched) (d : Dev) : ringOf (setSched p x d) n = ringOf d n := rfl
@[simp] theorem cqOf_setSched (p n : Nat) (x : Sched) (d : Dev) : cqOf (setSched p x d) n = cqOf d n := rfl
@[simp] theorem unitOf_setSched (p n : Nat) (x : Sched) (d : Dev) : unitOf (setSched p x d) n = unitOf d n := rfl
@[simp] theorem confOf_setSched (p n : Nat) (x : Sched) (d : Dev) : confOf (setSched p x d) n = confOf d n := rfl
@[simp] theorem levelOf_setSched (p n : Nat) (x : Sched) (d : Dev) : levelOf (setSched p x d) n = levelOf d n := rfl
@[simp] theorem chanOf_setSched (p n : Nat) (x : Sched) (d : Dev) : chanOf (setSched p x d) n = chanOf d n := rfl
@[simp] theorem basinState_setSched (p n : Nat) (x : Sched) (d : Dev) : basinState (setSched p x d) n = basinState d n := rfl
@[simp] theorem fnOf_setQueue (q n : Nat) (x : Queue) (d : Dev) : fnOf (setQueue q x d) n = fnOf d n := rfl
@[simp] theorem portOf_setQueue (q n : Nat) (x : Queue) (d : Dev) : portOf (setQueue q x d) n = portOf d n := rfl
@[simp] theorem masterOf_setQueue (q n : Nat) (x : Queue) (d : Dev) : masterOf (setQueue q x d) n = masterOf d n := rfl
@[simp] theorem frameOf_setQueue (q n : Nat) (x : Queue) (d : Dev) : frameOf (setQueue q x d) n = frameOf d n := rfl
@[simp] theorem copyOf_setQueue (q n : Nat) (x : Queue) (d : Dev) : copyOf (setQueue q x d) n = copyOf d n := rfl
@[simp] theorem schedOf_setQueue (q n : Nat) (x : Queue) (d : Dev) : schedOf (setQueue q x d) n = schedOf d n := rfl
@[simp] theorem groupOf_setQueue (q n : Nat) (x : Queue) (d : Dev) : groupOf (setQueue q x d) n = groupOf d n := rfl
@[simp] theorem streamOf_setQueue (q n : Nat) (x : Queue) (d : Dev) : streamOf (setQueue q x d) n = streamOf d n := rfl
@[simp] theorem classOf_setQueue (q n : Nat) (x : Queue) (d : Dev) : classOf (setQueue q x d) n = classOf d n := rfl
@[simp] theorem ringOf_setQueue (q n : Nat) (x : Queue) (d : Dev) : ringOf (setQueue q x d) n = ringOf d n := rfl
@[simp] theorem cqOf_setQueue (q n : Nat) (x : Queue) (d : Dev) : cqOf (setQueue q x d) n = cqOf d n := rfl
@[simp] theorem unitOf_setQueue (q n : Nat) (x : Queue) (d : Dev) : unitOf (setQueue q x d) n = unitOf d n := rfl
@[simp] theorem confOf_setQueue (q n : Nat) (x : Queue) (d : Dev) : confOf (setQueue q x d) n = confOf d n := rfl
@[simp] theorem levelOf_setQueue (q n : Nat) (x : Queue) (d : Dev) : levelOf (setQueue q x d) n = levelOf d n := rfl
@[simp] theorem chanOf_setQueue (q n : Nat) (x : Queue) (d : Dev) : chanOf (setQueue q x d) n = chanOf d n := rfl
@[simp] theorem basinState_setQueue (q n : Nat) (x : Queue) (d : Dev) : basinState (setQueue q x d) n = basinState d n := rfl
@[simp] theorem fnOf_setGroup (g n : Nat) (x : Group) (d : Dev) : fnOf (setGroup g x d) n = fnOf d n := rfl
@[simp] theorem portOf_setGroup (g n : Nat) (x : Group) (d : Dev) : portOf (setGroup g x d) n = portOf d n := rfl
@[simp] theorem masterOf_setGroup (g n : Nat) (x : Group) (d : Dev) : masterOf (setGroup g x d) n = masterOf d n := rfl
@[simp] theorem frameOf_setGroup (g n : Nat) (x : Group) (d : Dev) : frameOf (setGroup g x d) n = frameOf d n := rfl
@[simp] theorem copyOf_setGroup (g n : Nat) (x : Group) (d : Dev) : copyOf (setGroup g x d) n = copyOf d n := rfl
@[simp] theorem schedOf_setGroup (g n : Nat) (x : Group) (d : Dev) : schedOf (setGroup g x d) n = schedOf d n := rfl
@[simp] theorem queueOf_setGroup (g n : Nat) (x : Group) (d : Dev) : queueOf (setGroup g x d) n = queueOf d n := rfl
@[simp] theorem streamOf_setGroup (g n : Nat) (x : Group) (d : Dev) : streamOf (setGroup g x d) n = streamOf d n := rfl
@[simp] theorem classOf_setGroup (g n : Nat) (x : Group) (d : Dev) : classOf (setGroup g x d) n = classOf d n := rfl
@[simp] theorem ringOf_setGroup (g n : Nat) (x : Group) (d : Dev) : ringOf (setGroup g x d) n = ringOf d n := rfl
@[simp] theorem cqOf_setGroup (g n : Nat) (x : Group) (d : Dev) : cqOf (setGroup g x d) n = cqOf d n := rfl
@[simp] theorem unitOf_setGroup (g n : Nat) (x : Group) (d : Dev) : unitOf (setGroup g x d) n = unitOf d n := rfl
@[simp] theorem confOf_setGroup (g n : Nat) (x : Group) (d : Dev) : confOf (setGroup g x d) n = confOf d n := rfl
@[simp] theorem levelOf_setGroup (g n : Nat) (x : Group) (d : Dev) : levelOf (setGroup g x d) n = levelOf d n := rfl
@[simp] theorem chanOf_setGroup (g n : Nat) (x : Group) (d : Dev) : chanOf (setGroup g x d) n = chanOf d n := rfl
@[simp] theorem basinState_setGroup (g n : Nat) (x : Group) (d : Dev) : basinState (setGroup g x d) n = basinState d n := rfl
@[simp] theorem fnOf_setStream (s n : Nat) (x : Stream) (d : Dev) : fnOf (setStream s x d) n = fnOf d n := rfl
@[simp] theorem portOf_setStream (s n : Nat) (x : Stream) (d : Dev) : portOf (setStream s x d) n = portOf d n := rfl
@[simp] theorem masterOf_setStream (s n : Nat) (x : Stream) (d : Dev) : masterOf (setStream s x d) n = masterOf d n := rfl
@[simp] theorem frameOf_setStream (s n : Nat) (x : Stream) (d : Dev) : frameOf (setStream s x d) n = frameOf d n := rfl
@[simp] theorem copyOf_setStream (s n : Nat) (x : Stream) (d : Dev) : copyOf (setStream s x d) n = copyOf d n := rfl
@[simp] theorem schedOf_setStream (s n : Nat) (x : Stream) (d : Dev) : schedOf (setStream s x d) n = schedOf d n := rfl
@[simp] theorem queueOf_setStream (s n : Nat) (x : Stream) (d : Dev) : queueOf (setStream s x d) n = queueOf d n := rfl
@[simp] theorem groupOf_setStream (s n : Nat) (x : Stream) (d : Dev) : groupOf (setStream s x d) n = groupOf d n := rfl
@[simp] theorem classOf_setStream (s n : Nat) (x : Stream) (d : Dev) : classOf (setStream s x d) n = classOf d n := rfl
@[simp] theorem ringOf_setStream (s n : Nat) (x : Stream) (d : Dev) : ringOf (setStream s x d) n = ringOf d n := rfl
@[simp] theorem cqOf_setStream (s n : Nat) (x : Stream) (d : Dev) : cqOf (setStream s x d) n = cqOf d n := rfl
@[simp] theorem unitOf_setStream (s n : Nat) (x : Stream) (d : Dev) : unitOf (setStream s x d) n = unitOf d n := rfl
@[simp] theorem confOf_setStream (s n : Nat) (x : Stream) (d : Dev) : confOf (setStream s x d) n = confOf d n := rfl
@[simp] theorem levelOf_setStream (s n : Nat) (x : Stream) (d : Dev) : levelOf (setStream s x d) n = levelOf d n := rfl
@[simp] theorem chanOf_setStream (s n : Nat) (x : Stream) (d : Dev) : chanOf (setStream s x d) n = chanOf d n := rfl
@[simp] theorem basinState_setStream (s n : Nat) (x : Stream) (d : Dev) : basinState (setStream s x d) n = basinState d n := rfl
@[simp] theorem fnOf_setClass (c n : Nat) (x : Class) (d : Dev) : fnOf (setClass c x d) n = fnOf d n := rfl
@[simp] theorem portOf_setClass (c n : Nat) (x : Class) (d : Dev) : portOf (setClass c x d) n = portOf d n := rfl
@[simp] theorem masterOf_setClass (c n : Nat) (x : Class) (d : Dev) : masterOf (setClass c x d) n = masterOf d n := rfl
@[simp] theorem frameOf_setClass (c n : Nat) (x : Class) (d : Dev) : frameOf (setClass c x d) n = frameOf d n := rfl
@[simp] theorem copyOf_setClass (c n : Nat) (x : Class) (d : Dev) : copyOf (setClass c x d) n = copyOf d n := rfl
@[simp] theorem schedOf_setClass (c n : Nat) (x : Class) (d : Dev) : schedOf (setClass c x d) n = schedOf d n := rfl
@[simp] theorem queueOf_setClass (c n : Nat) (x : Class) (d : Dev) : queueOf (setClass c x d) n = queueOf d n := rfl
@[simp] theorem groupOf_setClass (c n : Nat) (x : Class) (d : Dev) : groupOf (setClass c x d) n = groupOf d n := rfl
@[simp] theorem streamOf_setClass (c n : Nat) (x : Class) (d : Dev) : streamOf (setClass c x d) n = streamOf d n := rfl
@[simp] theorem ringOf_setClass (c n : Nat) (x : Class) (d : Dev) : ringOf (setClass c x d) n = ringOf d n := rfl
@[simp] theorem cqOf_setClass (c n : Nat) (x : Class) (d : Dev) : cqOf (setClass c x d) n = cqOf d n := rfl
@[simp] theorem unitOf_setClass (c n : Nat) (x : Class) (d : Dev) : unitOf (setClass c x d) n = unitOf d n := rfl
@[simp] theorem confOf_setClass (c n : Nat) (x : Class) (d : Dev) : confOf (setClass c x d) n = confOf d n := rfl
@[simp] theorem levelOf_setClass (c n : Nat) (x : Class) (d : Dev) : levelOf (setClass c x d) n = levelOf d n := rfl
@[simp] theorem chanOf_setClass (c n : Nat) (x : Class) (d : Dev) : chanOf (setClass c x d) n = chanOf d n := rfl
@[simp] theorem basinState_setClass (c n : Nat) (x : Class) (d : Dev) : basinState (setClass c x d) n = basinState d n := rfl
@[simp] theorem fnOf_setRing (r n : Nat) (x : Ring) (d : Dev) : fnOf (setRing r x d) n = fnOf d n := rfl
@[simp] theorem portOf_setRing (r n : Nat) (x : Ring) (d : Dev) : portOf (setRing r x d) n = portOf d n := rfl
@[simp] theorem masterOf_setRing (r n : Nat) (x : Ring) (d : Dev) : masterOf (setRing r x d) n = masterOf d n := rfl
@[simp] theorem frameOf_setRing (r n : Nat) (x : Ring) (d : Dev) : frameOf (setRing r x d) n = frameOf d n := rfl
@[simp] theorem copyOf_setRing (r n : Nat) (x : Ring) (d : Dev) : copyOf (setRing r x d) n = copyOf d n := rfl
@[simp] theorem schedOf_setRing (r n : Nat) (x : Ring) (d : Dev) : schedOf (setRing r x d) n = schedOf d n := rfl
@[simp] theorem queueOf_setRing (r n : Nat) (x : Ring) (d : Dev) : queueOf (setRing r x d) n = queueOf d n := rfl
@[simp] theorem groupOf_setRing (r n : Nat) (x : Ring) (d : Dev) : groupOf (setRing r x d) n = groupOf d n := rfl
@[simp] theorem streamOf_setRing (r n : Nat) (x : Ring) (d : Dev) : streamOf (setRing r x d) n = streamOf d n := rfl
@[simp] theorem classOf_setRing (r n : Nat) (x : Ring) (d : Dev) : classOf (setRing r x d) n = classOf d n := rfl
@[simp] theorem cqOf_setRing (r n : Nat) (x : Ring) (d : Dev) : cqOf (setRing r x d) n = cqOf d n := rfl
@[simp] theorem unitOf_setRing (r n : Nat) (x : Ring) (d : Dev) : unitOf (setRing r x d) n = unitOf d n := rfl
@[simp] theorem confOf_setRing (r n : Nat) (x : Ring) (d : Dev) : confOf (setRing r x d) n = confOf d n := rfl
@[simp] theorem levelOf_setRing (r n : Nat) (x : Ring) (d : Dev) : levelOf (setRing r x d) n = levelOf d n := rfl
@[simp] theorem chanOf_setRing (r n : Nat) (x : Ring) (d : Dev) : chanOf (setRing r x d) n = chanOf d n := rfl
@[simp] theorem basinState_setRing (r n : Nat) (x : Ring) (d : Dev) : basinState (setRing r x d) n = basinState d n := rfl
@[simp] theorem fnOf_setCq (q n : Nat) (x : Cq) (d : Dev) : fnOf (setCq q x d) n = fnOf d n := rfl
@[simp] theorem portOf_setCq (q n : Nat) (x : Cq) (d : Dev) : portOf (setCq q x d) n = portOf d n := rfl
@[simp] theorem masterOf_setCq (q n : Nat) (x : Cq) (d : Dev) : masterOf (setCq q x d) n = masterOf d n := rfl
@[simp] theorem frameOf_setCq (q n : Nat) (x : Cq) (d : Dev) : frameOf (setCq q x d) n = frameOf d n := rfl
@[simp] theorem copyOf_setCq (q n : Nat) (x : Cq) (d : Dev) : copyOf (setCq q x d) n = copyOf d n := rfl
@[simp] theorem schedOf_setCq (q n : Nat) (x : Cq) (d : Dev) : schedOf (setCq q x d) n = schedOf d n := rfl
@[simp] theorem queueOf_setCq (q n : Nat) (x : Cq) (d : Dev) : queueOf (setCq q x d) n = queueOf d n := rfl
@[simp] theorem groupOf_setCq (q n : Nat) (x : Cq) (d : Dev) : groupOf (setCq q x d) n = groupOf d n := rfl
@[simp] theorem streamOf_setCq (q n : Nat) (x : Cq) (d : Dev) : streamOf (setCq q x d) n = streamOf d n := rfl
@[simp] theorem classOf_setCq (q n : Nat) (x : Cq) (d : Dev) : classOf (setCq q x d) n = classOf d n := rfl
@[simp] theorem ringOf_setCq (q n : Nat) (x : Cq) (d : Dev) : ringOf (setCq q x d) n = ringOf d n := rfl
@[simp] theorem unitOf_setCq (q n : Nat) (x : Cq) (d : Dev) : unitOf (setCq q x d) n = unitOf d n := rfl
@[simp] theorem confOf_setCq (q n : Nat) (x : Cq) (d : Dev) : confOf (setCq q x d) n = confOf d n := rfl
@[simp] theorem levelOf_setCq (q n : Nat) (x : Cq) (d : Dev) : levelOf (setCq q x d) n = levelOf d n := rfl
@[simp] theorem chanOf_setCq (q n : Nat) (x : Cq) (d : Dev) : chanOf (setCq q x d) n = chanOf d n := rfl
@[simp] theorem basinState_setCq (q n : Nat) (x : Cq) (d : Dev) : basinState (setCq q x d) n = basinState d n := rfl
@[simp] theorem fnOf_setUnit (u n : Nat) (x : PUnit) (d : Dev) : fnOf (setUnit u x d) n = fnOf d n := rfl
@[simp] theorem portOf_setUnit (u n : Nat) (x : PUnit) (d : Dev) : portOf (setUnit u x d) n = portOf d n := rfl
@[simp] theorem masterOf_setUnit (u n : Nat) (x : PUnit) (d : Dev) : masterOf (setUnit u x d) n = masterOf d n := rfl
@[simp] theorem frameOf_setUnit (u n : Nat) (x : PUnit) (d : Dev) : frameOf (setUnit u x d) n = frameOf d n := rfl
@[simp] theorem copyOf_setUnit (u n : Nat) (x : PUnit) (d : Dev) : copyOf (setUnit u x d) n = copyOf d n := rfl
@[simp] theorem schedOf_setUnit (u n : Nat) (x : PUnit) (d : Dev) : schedOf (setUnit u x d) n = schedOf d n := rfl
@[simp] theorem queueOf_setUnit (u n : Nat) (x : PUnit) (d : Dev) : queueOf (setUnit u x d) n = queueOf d n := rfl
@[simp] theorem groupOf_setUnit (u n : Nat) (x : PUnit) (d : Dev) : groupOf (setUnit u x d) n = groupOf d n := rfl
@[simp] theorem streamOf_setUnit (u n : Nat) (x : PUnit) (d : Dev) : streamOf (setUnit u x d) n = streamOf d n := rfl
@[simp] theorem classOf_setUnit (u n : Nat) (x : PUnit) (d : Dev) : classOf (setUnit u x d) n = classOf d n := rfl
@[simp] theorem ringOf_setUnit (u n : Nat) (x : PUnit) (d : Dev) : ringOf (setUnit u x d) n = ringOf d n := rfl
@[simp] theorem cqOf_setUnit (u n : Nat) (x : PUnit) (d : Dev) : cqOf (setUnit u x d) n = cqOf d n := rfl
@[simp] theorem confOf_setUnit (u n : Nat) (x : PUnit) (d : Dev) : confOf (setUnit u x d) n = confOf d n := rfl
@[simp] theorem levelOf_setUnit (u n : Nat) (x : PUnit) (d : Dev) : levelOf (setUnit u x d) n = levelOf d n := rfl
@[simp] theorem chanOf_setUnit (u n : Nat) (x : PUnit) (d : Dev) : chanOf (setUnit u x d) n = chanOf d n := rfl
@[simp] theorem basinState_setUnit (u n : Nat) (x : PUnit) (d : Dev) : basinState (setUnit u x d) n = basinState d n := rfl
@[simp] theorem fnOf_setConf (g n : Nat) (x : ConfGroup) (d : Dev) : fnOf (setConf g x d) n = fnOf d n := rfl
@[simp] theorem portOf_setConf (g n : Nat) (x : ConfGroup) (d : Dev) : portOf (setConf g x d) n = portOf d n := rfl
@[simp] theorem masterOf_setConf (g n : Nat) (x : ConfGroup) (d : Dev) : masterOf (setConf g x d) n = masterOf d n := rfl
@[simp] theorem frameOf_setConf (g n : Nat) (x : ConfGroup) (d : Dev) : frameOf (setConf g x d) n = frameOf d n := rfl
@[simp] theorem copyOf_setConf (g n : Nat) (x : ConfGroup) (d : Dev) : copyOf (setConf g x d) n = copyOf d n := rfl
@[simp] theorem schedOf_setConf (g n : Nat) (x : ConfGroup) (d : Dev) : schedOf (setConf g x d) n = schedOf d n := rfl
@[simp] theorem queueOf_setConf (g n : Nat) (x : ConfGroup) (d : Dev) : queueOf (setConf g x d) n = queueOf d n := rfl
@[simp] theorem groupOf_setConf (g n : Nat) (x : ConfGroup) (d : Dev) : groupOf (setConf g x d) n = groupOf d n := rfl
@[simp] theorem streamOf_setConf (g n : Nat) (x : ConfGroup) (d : Dev) : streamOf (setConf g x d) n = streamOf d n := rfl
@[simp] theorem classOf_setConf (g n : Nat) (x : ConfGroup) (d : Dev) : classOf (setConf g x d) n = classOf d n := rfl
@[simp] theorem ringOf_setConf (g n : Nat) (x : ConfGroup) (d : Dev) : ringOf (setConf g x d) n = ringOf d n := rfl
@[simp] theorem cqOf_setConf (g n : Nat) (x : ConfGroup) (d : Dev) : cqOf (setConf g x d) n = cqOf d n := rfl
@[simp] theorem unitOf_setConf (g n : Nat) (x : ConfGroup) (d : Dev) : unitOf (setConf g x d) n = unitOf d n := rfl
@[simp] theorem levelOf_setConf (g n : Nat) (x : ConfGroup) (d : Dev) : levelOf (setConf g x d) n = levelOf d n := rfl
@[simp] theorem chanOf_setConf (g n : Nat) (x : ConfGroup) (d : Dev) : chanOf (setConf g x d) n = chanOf d n := rfl
@[simp] theorem basinState_setConf (g n : Nat) (x : ConfGroup) (d : Dev) : basinState (setConf g x d) n = basinState d n := rfl
@[simp] theorem fnOf_setLevel (g n : Nat) (x : LevelGroup) (d : Dev) : fnOf (setLevel g x d) n = fnOf d n := rfl
@[simp] theorem portOf_setLevel (g n : Nat) (x : LevelGroup) (d : Dev) : portOf (setLevel g x d) n = portOf d n := rfl
@[simp] theorem masterOf_setLevel (g n : Nat) (x : LevelGroup) (d : Dev) : masterOf (setLevel g x d) n = masterOf d n := rfl
@[simp] theorem frameOf_setLevel (g n : Nat) (x : LevelGroup) (d : Dev) : frameOf (setLevel g x d) n = frameOf d n := rfl
@[simp] theorem copyOf_setLevel (g n : Nat) (x : LevelGroup) (d : Dev) : copyOf (setLevel g x d) n = copyOf d n := rfl
@[simp] theorem schedOf_setLevel (g n : Nat) (x : LevelGroup) (d : Dev) : schedOf (setLevel g x d) n = schedOf d n := rfl
@[simp] theorem queueOf_setLevel (g n : Nat) (x : LevelGroup) (d : Dev) : queueOf (setLevel g x d) n = queueOf d n := rfl
@[simp] theorem groupOf_setLevel (g n : Nat) (x : LevelGroup) (d : Dev) : groupOf (setLevel g x d) n = groupOf d n := rfl
@[simp] theorem streamOf_setLevel (g n : Nat) (x : LevelGroup) (d : Dev) : streamOf (setLevel g x d) n = streamOf d n := rfl
@[simp] theorem classOf_setLevel (g n : Nat) (x : LevelGroup) (d : Dev) : classOf (setLevel g x d) n = classOf d n := rfl
@[simp] theorem ringOf_setLevel (g n : Nat) (x : LevelGroup) (d : Dev) : ringOf (setLevel g x d) n = ringOf d n := rfl
@[simp] theorem cqOf_setLevel (g n : Nat) (x : LevelGroup) (d : Dev) : cqOf (setLevel g x d) n = cqOf d n := rfl
@[simp] theorem unitOf_setLevel (g n : Nat) (x : LevelGroup) (d : Dev) : unitOf (setLevel g x d) n = unitOf d n := rfl
@[simp] theorem confOf_setLevel (g n : Nat) (x : LevelGroup) (d : Dev) : confOf (setLevel g x d) n = confOf d n := rfl
@[simp] theorem chanOf_setLevel (g n : Nat) (x : LevelGroup) (d : Dev) : chanOf (setLevel g x d) n = chanOf d n := rfl
@[simp] theorem basinState_setLevel (g n : Nat) (x : LevelGroup) (d : Dev) : basinState (setLevel g x d) n = basinState d n := rfl
@[simp] theorem fnOf_setChan (c n : Nat) (x : Channel) (d : Dev) : fnOf (setChan c x d) n = fnOf d n := rfl
@[simp] theorem portOf_setChan (c n : Nat) (x : Channel) (d : Dev) : portOf (setChan c x d) n = portOf d n := rfl
@[simp] theorem masterOf_setChan (c n : Nat) (x : Channel) (d : Dev) : masterOf (setChan c x d) n = masterOf d n := rfl
@[simp] theorem frameOf_setChan (c n : Nat) (x : Channel) (d : Dev) : frameOf (setChan c x d) n = frameOf d n := rfl
@[simp] theorem copyOf_setChan (c n : Nat) (x : Channel) (d : Dev) : copyOf (setChan c x d) n = copyOf d n := rfl
@[simp] theorem schedOf_setChan (c n : Nat) (x : Channel) (d : Dev) : schedOf (setChan c x d) n = schedOf d n := rfl
@[simp] theorem queueOf_setChan (c n : Nat) (x : Channel) (d : Dev) : queueOf (setChan c x d) n = queueOf d n := rfl
@[simp] theorem groupOf_setChan (c n : Nat) (x : Channel) (d : Dev) : groupOf (setChan c x d) n = groupOf d n := rfl
@[simp] theorem streamOf_setChan (c n : Nat) (x : Channel) (d : Dev) : streamOf (setChan c x d) n = streamOf d n := rfl
@[simp] theorem classOf_setChan (c n : Nat) (x : Channel) (d : Dev) : classOf (setChan c x d) n = classOf d n := rfl
@[simp] theorem ringOf_setChan (c n : Nat) (x : Channel) (d : Dev) : ringOf (setChan c x d) n = ringOf d n := rfl
@[simp] theorem cqOf_setChan (c n : Nat) (x : Channel) (d : Dev) : cqOf (setChan c x d) n = cqOf d n := rfl
@[simp] theorem unitOf_setChan (c n : Nat) (x : Channel) (d : Dev) : unitOf (setChan c x d) n = unitOf d n := rfl
@[simp] theorem confOf_setChan (c n : Nat) (x : Channel) (d : Dev) : confOf (setChan c x d) n = confOf d n := rfl
@[simp] theorem levelOf_setChan (c n : Nat) (x : Channel) (d : Dev) : levelOf (setChan c x d) n = levelOf d n := rfl
@[simp] theorem basinState_setChan (c n : Nat) (x : Channel) (d : Dev) : basinState (setChan c x d) n = basinState d n := rfl
@[simp] theorem fnOf_setBasin (b n : Nat) (x : Basin) (d : Dev) : fnOf (setBasin b x d) n = fnOf d n := rfl
@[simp] theorem portOf_setBasin (b n : Nat) (x : Basin) (d : Dev) : portOf (setBasin b x d) n = portOf d n := rfl
@[simp] theorem masterOf_setBasin (b n : Nat) (x : Basin) (d : Dev) : masterOf (setBasin b x d) n = masterOf d n := rfl
@[simp] theorem frameOf_setBasin (b n : Nat) (x : Basin) (d : Dev) : frameOf (setBasin b x d) n = frameOf d n := rfl
@[simp] theorem copyOf_setBasin (b n : Nat) (x : Basin) (d : Dev) : copyOf (setBasin b x d) n = copyOf d n := rfl
@[simp] theorem schedOf_setBasin (b n : Nat) (x : Basin) (d : Dev) : schedOf (setBasin b x d) n = schedOf d n := rfl
@[simp] theorem queueOf_setBasin (b n : Nat) (x : Basin) (d : Dev) : queueOf (setBasin b x d) n = queueOf d n := rfl
@[simp] theorem groupOf_setBasin (b n : Nat) (x : Basin) (d : Dev) : groupOf (setBasin b x d) n = groupOf d n := rfl
@[simp] theorem streamOf_setBasin (b n : Nat) (x : Basin) (d : Dev) : streamOf (setBasin b x d) n = streamOf d n := rfl
@[simp] theorem classOf_setBasin (b n : Nat) (x : Basin) (d : Dev) : classOf (setBasin b x d) n = classOf d n := rfl
@[simp] theorem ringOf_setBasin (b n : Nat) (x : Basin) (d : Dev) : ringOf (setBasin b x d) n = ringOf d n := rfl
@[simp] theorem cqOf_setBasin (b n : Nat) (x : Basin) (d : Dev) : cqOf (setBasin b x d) n = cqOf d n := rfl
@[simp] theorem unitOf_setBasin (b n : Nat) (x : Basin) (d : Dev) : unitOf (setBasin b x d) n = unitOf d n := rfl
@[simp] theorem confOf_setBasin (b n : Nat) (x : Basin) (d : Dev) : confOf (setBasin b x d) n = confOf d n := rfl
@[simp] theorem levelOf_setBasin (b n : Nat) (x : Basin) (d : Dev) : levelOf (setBasin b x d) n = levelOf d n := rfl
@[simp] theorem chanOf_setBasin (b n : Nat) (x : Basin) (d : Dev) : chanOf (setBasin b x d) n = chanOf d n := rfl

end Sys2Proof.Machine
end

