-- ==== Sys2Proof/Tests/Slice0.lean ====
section
/-!
SUPPORT. Tests: ill-formed commands are refused, words decode, single steps give what the spec's rules give, and every clause of every
statement has a state and operands that meet its hypotheses.
-/

namespace Sys2Proof.Tests
open Sys2Proof Sys2Proof.Machine

set_option Elab.async false

-- Small devices and commands ------------------------------------------------------------------------------------------------------

/-- Helm runs on release 3.1, and everything else is as after reset. -/
def ready : Dev := { helm := { state := 1, fwRelease := 0x0301 } }
def st (d : Dev) : State := { dev := d }
/-- A request of `n` bytes, zeros but for the fields given at their offsets. -/
def req (n : Nat) (l : List (Nat × List Byte)) : List Byte := l.foldl (fun b e => overwrite b e.1 e.2) (List.replicate n 0)
def rq (n : Nat) (l : List (Nat × List Byte)) : Cmd := { t := 0, box := 0, tag := 0, req := req n l }
/-- The device a step leaves. -/
def dev_ (o : Host.Outcome State Fault Refusal) : Dev := match o with | .next s => s.dev | _ => {}
def snap0 : Snapshot := { current := 0, genA := {}, genB := {}, defs := [(2, { kind := 1 })], em := [], mcast := [], conf := [], level := [], streams := [], digestsA := [], digestsB := [], digestA := [], digestB := [] }
def inService : Tbl Channel := (List.range 16).map fun k => (k, { inService := true })
/-- The sentence $GPZDA,123456.00,15,06,2024,00,00*00. -/
def zdaText : List Byte := [0x24, 0x47, 0x50, 0x5A, 0x44, 0x41, 0x2C] ++ [0x31, 0x32, 0x33, 0x34, 0x35, 0x36, 0x2E, 0x30, 0x30, 0x2C] ++ [0x31, 0x35, 0x2C, 0x30, 0x36, 0x2C, 0x32, 0x30, 0x32, 0x34, 0x2C] ++ [0x30, 0x30, 0x2C, 0x30, 0x30, 0x2A, 0x30, 0x30]

-- Hypotheses over values that no evaluation reaches ---------------------------------------------------------------------------------

theorem trusted_root {d : Dev} (h : d.cascade.rootHash = sha256 (certificate 2)) : rootTrusted d = true := by
  unfold rootTrusted; rw [h]; exact beq_self_eq_true _

theorem join_ok {d : Dev} {m : CMsg} (hc : m.cascadeId = d.cascade.cascadeId) (hr : rootTrusted d = true)
    (h : (!(d.cascade.expelled.contains (m.body.take 16) || (!d.cascade.open_ && !(d.cascade.allow.any fun e => e.1 == m.body.take 16)))
      && (assign d (m.body.take 16) (joinPaired m.body) (beAt m.body 20 4)).isSome && decide (beAt m.body 26 1 ≤ d.cascade.maxHops)
      && slice m.body 16 2 == [0x42, 0x30] && beAt m.body 18 2 == d.helm.fwRelease) = true) : joinCause d m true true = 0 := by
  simp only [Bool.and_eq_true, Bool.not_eq_true', decide_eq_true_eq, beq_iff_eq] at h
  obtain ⟨⟨⟨⟨h1, h2⟩, h3⟩, h4⟩, h5⟩ := h
  simp only [joinCause, hc, hr, h1, h4, h5]
  cases e : assign d (m.body.take 16) (joinPaired m.body) (beAt m.body 20 4) with
  | none => rw [e] at h2; cases h2
  | some n => simp; omega

theorem held_first {d : Dev} {h : Hold} {hs : List Hold} {a : Word64} {p : Nat × Nat} (e : d.guard.holds = h :: hs)
    (ha : Config.holdAddress h.stream h.seq = a) (hp : (h.stream, h.seq) = p) : heldAt d a = some p := by
  subst hp; unfold heldAt; rw [e]; simp [ha]

theorem slice_first {g z : List Byte} (h : g.length = 32) : slice ([1, 1] ++ g ++ z) 2 32 = g := by
  have := slice_part [1, 1] g z
  rwa [h] at this

theorem slice_second {a g : List Byte} (h1 : a.length = 32) (h2 : g.length = 32) : slice ([1, 1] ++ a ++ g) 34 32 = g := by
  have := slice_part ([1, 1] ++ a) g []
  rw [h2] at this
  simpa [h1] using this

theorem not_ne (x : Byte) : ~~~x ≠ x := by revert x; decide

theorem slice_not {g z : List Byte} (h : g.length = 32) : slice ([1, 1] ++ g.map (~~~ ·) ++ z) 2 32 ≠ g := by
  rw [slice_first (by simpa using h)]
  match g, h with
  | x :: t, _ =>
    intro e
    exact not_ne x (List.cons.inj e).1

theorem pairs_two {P : Nat → Nat → Prop} {n : Nat} (hn : n = 2) (h : P 0 1) : ∀ j k, j < k → k < n → P j k := by
  intro j k h1 h2
  obtain rfl : k = 1 := by omega
  obtain rfl : j = 0 := by omega
  exact h

-- Well-formedness: for each check one command that fails it and nothing else ---------------------------------------------------------

/-- A mailbox past 15, a TAG past 16 bits, a request past 4,096 bytes, and each operand past its range. -/
theorem test_wf_refuses :
    ([.portStatus { t := 0, box := 16, tag := 0, req := [] }, .portStatus { t := 0, box := 0, tag := 65536, req := [] },
      .portStatus { t := 0, box := 0, tag := 0, req := List.replicate 4097 0 }, .unknownOpcode (rq 0 []) 65536, .registerWrite 0 2 0 0,
      .registerWrite 0 0 (2 ^ 23) 0, .timeLatch 0 0 2, .statusClear 0 0 128 0 [], .classCountRead 0 0 16 [], .counterRead 0 0 (2 ^ 22) 0,
      .ringDoorbell 0 0 2048 0 none, .ringDoorbell 0 0 0 65536 none, .cqArmWrite 0 0 64 0, .frameArrival 0 512 [] 0, .frameArrival 0 0 [] (2 ^ 32),
      .portSelection 0 512, .learnRelease 0 8, .confRelease 0 64, .windowClose 0 0 2, .cqSignal 0 64] : List Instr).all (fun i => !i.wf) = true := by
  decide +kernel

theorem test_wf_refuses_messages :
    ([.beatMissing 0 79, .modulePoll 0 512 none, .moduleInt 0 16 [], .tetherLinkDown 0 4, .controlReceive 0 { subtype := 256, seq := 0, sent := 0, body := [] },
      .controlReceive 0 { subtype := 0, seq := 2 ^ 32, sent := 0, body := [] }, .controlReceive 0 { subtype := 0, seq := 0, sent := 2 ^ 64, body := [] },
      .pulsePattern 0 4, .sensorRead 0 [], .unitWake 0 73, .trainingDone 0 16 true, .mr4Read 0 0 (4, 0), .mr4Read 0 0 (0, 4), .coalesced 0 4096,
      .verdictReceive 0 512 { subtype := 0, cascadeId := 0, src := 0, srcUnit := 0, dst := 0, dstUnit := 0, seq := 0, body := [] },
      .verdictReceive 0 0 { subtype := 0, cascadeId := 2 ^ 32, src := 0, srcUnit := 0, dst := 0, dstUnit := 0, seq := 0, body := [] },
      .verdictReceive 0 0 { subtype := 0, cascadeId := 0, src := 256, srcUnit := 0, dst := 0, dstUnit := 0, seq := 0, body := [] },
      .ageSweep 0 16, .helmWatchdog 0 4, .holdPoolScrub 0 65536 0, .ptpMessageSend 0 0 65536 0 [], .conditionEnd 0 4096 0, .conditionEnd 0 0 64,
      .helmBootDone 0 true true 65536] : List Instr).all (fun i => !i.wf) = true := by
  decide +kernel

-- Standard check values ----------------------------------------------------------------------------------------------------------------

def digits19 : List Byte := [0x31, 0x32, 0x33, 0x34, 0x35, 0x36, 0x37, 0x38, 0x39]

/-- The published check values of the three CRCs over the string 123456789. -/
theorem test_crc_checks : (crc32 digits19, crc32c digits19, crc16 digits19) = (0xCBF43926, 0xE3069283, 0x29B1) := by decide +kernel

/-- FIPS 180-4's example: the digest of the string abc. -/
theorem test_sha256_abc : (sha256 [0x61, 0x62, 0x63]).take 8 = [0xBA, 0x78, 0x16, 0xBF, 0x8F, 0x01, 0xCF, 0xEA] := by decide +kernel

/-- The published vector of SipHash-2-4 for the key 00 to 0F and the empty string. -/
theorem test_siphash_empty : sipHash ((List.range 16).map (BitVec.ofNat 8)) [] = 0x726FDB47DD0E0E31 := by decide +kernel

/-- Little-endian outside packets, network order inside (R6). -/
theorem test_byte_orders : le 4 0x01020304 = [4, 3, 2, 1] ∧ be 4 0x01020304 = [1, 2, 3, 4] := by decide

-- Decoding of microwords: words written out from R373 and R374 ------------------------------------------------------------------------------

theorem test_decode_words :
    decodeMicro 0b000001_000101_000110_000000#24 = some (.mov 5 6) ∧ decodeMicro 0b000111_000001_000010_000011#24 = some (.shl 1 2 3)
      ∧ decodeMicro 0b001010_000111_100000000001#24 = some (.ldi 7 0x801) ∧ decodeMicro 0b010110_000101_000110_000000#24 = some (.crd 5 6)
      ∧ decodeMicro 0b011111_000000_000010_000101#24 = some (.token 0x085) ∧ decodeMicro 0b100011_000000_000000_000000#24 = none := by decide +kernel

-- Single steps ---------------------------------------------------------------------------------------------------------------------------

def stepDev (d : Dev) (i : Instr) : Dev := dev_ (step { pending := [i], dev := d })
/-- A routine whose next word, at the first address of the patch RAM, is `m`. -/
def routine (m : Micro) (regs : Tbl Word64) : Dev :=
  { ready with steward := { ops := [{ id := 4, code := 9, ticket := 6, state := 1 }], nextOp := 9, pc := 0x4000,
                            patch := [(0, storeWord (encodeMicro m).toNat)], regs } }

/-- R374: a sum wraps at 64 bits, and m0 stays 0. -/
theorem test_add_wraps : mreg (stepDev (routine (.add 1 2 3) [(2, -1), (3, 5)]) (.add 0 1 2 3 true)) 1 = 4 := by decide +kernel
theorem test_m0_reads_zero : mreg (stepDev (routine (.mov 0 2) [(2, 9)]) (.mov 0 0 2 true)) 0 = 0 := by decide +kernel

/-- R374: only the low six bits of mC count a shift. -/
theorem test_shift_count : mreg (stepDev (routine (.shl 1 2 3) [(2, 1), (3, 65)]) (.shl 0 1 2 3 true)) 1 = 2 := by decide +kernel

/-- R374: SHLI and ADDI read and write the same register, ADDI with a signed IMM. -/
theorem test_shli : mreg (stepDev (routine (.shli 1 0x801) [(1, 3)]) (.shli 0 1 0x801 true)) 1 = 0x3801 := by decide +kernel
theorem test_addi_signed : mreg (stepDev (routine (.addi 1 0xFFF) [(1, 3)]) (.addi 0 1 0xFFF true)) 1 = 2 := by decide +kernel

/-- R374: CALL keeps the next word's address in m63. -/
theorem test_call_link :
    (mreg (stepDev (routine (.call 9) [(9, 0x7FFF)]) (.call 0 9 true)) 63,
     (stepDev (routine (.call 9) [(9, 0x7FFF)]) (.call 0 9 true)).steward.pc) = (0x4001, 0x7FFF) := by decide +kernel

/-- R375: a word whose stored parity does not fit does not execute. -/
theorem test_bad_parity : microAt { routine .nop [] with steward := { (routine .nop []).steward with patch := [(0, 2 ^ 24)] } } = none := by
  decide +kernel

/-- R411: the answer of an opcode that the firmware does not know. -/
theorem test_unknown_opcode : (boxOf (stepDev ready (.unknownOpcode (rq 0 []) 0x7777)) 0).state = 2 := by decide +kernel

/-- R84: port.disable of a Port that forwards nothing leaves it DISABLED. -/
theorem test_port_disable : (portOf (stepDev { ready with ports := [(0, { mode := 2, state := 4 })] } (.portDisable (rq 4 []))) 0).state = 0 := by decide +kernel

/-- R330, R343: a byte written to the Cistern reads back, the next one is unchanged, and a 0 leaves no entry. -/
theorem test_cistern_bytes :
    (tget 0 (putBytes 4 [7, 0] [(5, 9)]) 4, tget 0 (putBytes 4 [7, 0] [(5, 9)]) 5, putBytes 4 [7, 0] [(5, 9)]) = (7, 0, [(4, 7)]) := by decide +kernel

/-- The reset state's queue is empty. -/
theorem test_reset_queue : State.reset.pending = [] ∧ State.reset.dev.helm.state = 0 ∧ State.reset.dev.coll.mode = 1 := by decide +kernel

-- Witnesses: for each clause of each statement a state and operands that meet its hypotheses together --------------------------------

theorem witness_StepRunsFrontCommand :
    (∃ s : State, ∃ i : Instr, ∃ rest : List Instr, s.pending = i :: rest) ∧
    (∃ s : State, s.pending = []) :=
  ⟨⟨{ pending := [.nop 0 true] }, .nop 0 true, [], by decide +kernel⟩,
   ⟨{}, by decide +kernel⟩⟩

theorem witness_QueueStaysWellFormed :
    ∃ s : State, ∃ s' : State, s.pending.all Instr.wf = true ∧ step s = .next s' :=
  ⟨{ pending := [.perstDeassert 0] }, {}, by decide +kernel, rfl⟩

theorem witness_RefusedCommandChangesNothing :
    (∃ s : State, ∃ c : Cmd, ∃ host : Option (List Byte), ∃ reread : Option (List Byte), ∃ i : Instr, ∃ d : Dev, i ∈ mailboxForms c host reread ∧
          s.dev.helm.state = 1 ∧ c.box < 16 ∧ (boxOf s.dev c.box).state ≠ 1 ∧ exec i s = .next { s with dev := d } ∧ effective (boxOf d c.box).status
          = false) ∧
    (∃ s : State, ∃ c : Cmd, ∃ host : Option (List Byte), ∃ reread : Option (List Byte), ∃ i : Instr, ∃ d : Dev, i ∈ mailboxForms c host reread ∧
          s.dev.helm.state = 1 ∧ c.box < 16 ∧ (boxOf s.dev c.box).state ≠ 1 ∧ exec i s = .next { s with dev := d } ∧ effective (boxOf d c.box).status
          = false ∧ ∃ m, m ≠ c.box) :=
  ⟨⟨(st ready), (rq 4 [(0, le 1 9)]), none, none, .guardSafeExit (rq 4 [(0, le 1 9)]), (dev_ (execGuardSafeExit (rq 4 [(0, le 1 9)]) (st ready))),
         by decide +kernel, by decide +kernel, by decide +kernel, by decide +kernel, rfl, by decide +kernel⟩,
   ⟨(st ready), (rq 4 [(0, le 1 9)]), none, none, .guardSafeExit (rq 4 [(0, le 1 9)]), (dev_ (execGuardSafeExit (rq 4 [(0, le 1 9)]) (st ready))),
         by decide +kernel, by decide +kernel, by decide +kernel, by decide +kernel, rfl, by decide +kernel, 1, by decide +kernel⟩⟩

theorem witness_IgnoredDoorbell :
    (∃ s : State, ∃ c : Cmd, ∃ host : Option (List Byte), ∃ reread : Option (List Byte), ∃ i : Instr, ∃ op : Nat, (i, op) ∈ (mailboxForms c host
          reread).zip mailboxOpcodes ∧ c.box < 16 ∧ s.dev.helm.state ≠ 0 ∧ (boxOf s.dev c.box).state = 1 ∧ (boxOf s.dev c.box).opcode ≠ op) ∧
    (∃ s : State, ∃ c : Cmd, ∃ host : Option (List Byte), ∃ reread : Option (List Byte), ∃ i : Instr, ∃ op : Nat, (i, op) ∈ (mailboxForms c host
          reread).zip mailboxOpcodes ∧ c.box < 16 ∧ s.dev.helm.state = 0) ∧
    (∃ s : State, ∃ c : Cmd, ∃ host : Option (List Byte), ∃ reread : Option (List Byte), ∃ i : Instr, ∃ op : Nat, (i, op) ∈ (mailboxForms c host
          reread).zip mailboxOpcodes ∧ c.box < 16 ∧ s.dev.helm.state = 2 ∧ (boxOf s.dev c.box).state ≠ 1) :=
  ⟨⟨(st { ready with boxes := [(0, { state := 1, opcode := 1 })] }), (rq 4 [(0, le 1 9)]), none, none, .guardSafeExit (rq 4 [(0, le 1 9)]), 0x0301,
         by decide +kernel⟩,
   ⟨{}, (rq 4 [(0, le 1 9)]), none, none, .guardSafeExit (rq 4 [(0, le 1 9)]), 0x0301, by decide +kernel⟩,
   ⟨(st { ready with helm := { state := 2 } }), (rq 4 [(0, le 1 9)]), none, none, .guardSafeExit (rq 4 [(0, le 1 9)]), 0x0301, by decide +kernel⟩⟩

theorem witness_HelmComplete :
    (∃ s : State, ∃ c : Cmd, Takes s c 4 ∧ u32 c.req 0 = 0) ∧
    (∃ s : State, ∃ c : Cmd, Takes s c 16 ∧ u64 c.req 0 % 64 = 0 ∧ u32 c.req 8 ≤ 31457280 ∧ u32 c.req 12 = 0 ∧ s.dev.helm.update = none ∧
          s.dev.helm.open_.length < 1024) ∧
    (∃ s : State, ∃ c : Cmd, ∃ opcode : Nat, Takes s c 0 ∧ (fixedRequest.find? fun e => e.1 == opcode % 65536) = none) ∧
    (∃ s : State, ∃ n a : Nat, ∃ len : Nat, s.dev.helm.update = some (n, a, len)) ∧
    (∃ s : State, s.dev.helm.state ≠ 3) ∧
    (∃ s : State, s.dev.helm.state = 1) ∧
    (∃ s : State, s.dev.helm.state = 2) ∧
    (∃ s : State, ∃ t fn : Nat, 0 < (fnOf s.dev fn).evWritten ∧ (∀ a, (fnOf s.dev fn).evTold = some a → a + 160000 ≤ (now t s).clock)) :=
  ⟨⟨st ready, (rq 4 []), by decide +kernel⟩,
   ⟨st ready, (rq 16 [(8, le 4 4096)]), by decide +kernel⟩,
   ⟨st ready, (rq 0 []), 0x7777, by decide +kernel⟩,
   ⟨(st { ready with helm := { state := 1, fwRelease := 0x0301, update := some (1, 0, 4) } }), 1, 0, 4, by decide +kernel⟩,
   ⟨st ready, by decide +kernel⟩,
   ⟨st ready, by decide +kernel⟩,
   ⟨(st { ready with helm := { state := 2, fwRelease := 0x0301 } }), by decide +kernel⟩,
   ⟨(st { ready with fns := [(0, { evWritten := 2 })] }), 0, 0, by decide +kernel⟩⟩

theorem witness_CollectorCommandsComplete :
    (∃ s : State, ∃ c : Cmd, Takes s c 4 ∧ u8 c.req 0 ≠ 1 ∧ u8 c.req 0 ≤ 3 ∧ u8 c.req 1 = 0 ∧ u16 c.req 2 ≤ 3600) ∧
    (∃ s : State, ∃ c : Cmd, Takes s c 8 ∧ u16 c.req 2 ≠ 0 ∧ u16 c.req 0 + u16 c.req 2 ≤ 4096 ∧ u8 c.req 4 ≤ 1 ∧ leAt c.req 5 3 = 0) ∧
    (∃ s : State, ∃ word k : Nat, word < 128 ∧ k < 32 ∧ tget false s.dev.coll.status (32 * word + k) = true) ∧
    (∃ cls : Nat, cls < 16) :=
  ⟨⟨st ready, (rq 4 [(0, le 1 2)]), by decide +kernel⟩,
   ⟨st ready, (rq 8 [(0, le 2 4000), (2, le 2 96), (4, le 1 1)]), by decide +kernel⟩,
   ⟨(st { ready with coll := { status := [(4095, true)] } }), 127, 31, by decide +kernel⟩,
   ⟨15, by decide +kernel⟩⟩

theorem witness_FaultMessageComplete :
    (∃ s : State, ∃ w : Word64, triggers s.dev (msgSource w) (msgKind w) = false ∧ (tget {} s.dev.coll.reporters (msgSource w)).queue.headD w = w) ∧
    (∃ s : State, ∃ w : Word64, s.dev.pair.mode = 0 ∧ s.dev.coll.mode = 0 ∧ s.dev.guard.cause = 0 ∧ isGuardKind (msgKind w) = true ∧ tget false
          s.dev.coll.guard (msgSource w) = true ∧ (tget {} s.dev.coll.reporters (msgSource w)).queue.headD w = w) :=
  ⟨⟨(st { ready with coll := { mode := 0 } }), (faultWord 0x205 0x01 7), by decide +kernel⟩,
   ⟨(st { ready with coll := { mode := 0, guard := [(0x205, true)] } }), (faultWord 0x205 0x0A 7), by decide +kernel⟩⟩

theorem witness_CollectorEventsComplete :
    (∃ s : State, ∃ source : Nat, (tget {} s.dev.coll.reporters source).dropped ≠ 0 ∧ (tget {} s.dev.coll.reporters source).queue.length < 16) ∧
    (∃ s : State, ∃ t a : Nat, s.dev.coll.replayDone = some a ∧ s.dev.coll.mode = 3 ∧ a + s.dev.coll.recoveryTime * 16000000000 ≤ (now t s).clock) :=
  ⟨⟨(st { ready with coll := { reporters := [(0x205, { dropped := 2 })] } }), 0x205, by decide +kernel⟩,
   ⟨(st { ready with coll := { mode := 3, replayDone := some 0 } }), 160000000000, 0, by decide +kernel⟩⟩

theorem witness_GuardCommandsComplete :
    (∃ s : State, ∃ c : Cmd, Takes s c 28 ∧ u8 c.req 2 = 0 ∧ s.dev.pair.mode = 0 ∧ u16 c.req 6 = 0 ∧ 1 ≤ u8 c.req 3 ∧ u8 c.req 3 ≤ 4 ∧ portUnused
          s.dev (u16 c.req 4) = false ∧ ((slotsIn c.req (u8 c.req 3) (u32 c.req 8)).map (·.port)).any (portUnused s.dev) = false ∧ ((slotsIn c.req (u8
          c.req 3) (u32 c.req 8)).map (·.port)).Nodup ∧ (slotsIn c.req (u8 c.req 3) (u32 c.req 8)).any (fun sl => (queueRange s.dev sl.port).2 ≤
          sl.queue) = false ∧ (u16 c.req 4 :: (slotsIn c.req (u8 c.req 3) (u32 c.req 8)).map (·.port)).any (portPooled s.dev) = false ∧ (streamOf
          s.dev (u16 c.req 0)).slots = []) ∧
    (∃ s : State, ∃ c : Cmd, Takes s c 28 ∧ u8 c.req 2 = 1 ∧ u8 c.req 3 = 0 ∧ s.dev.pair.mode = 0 ∧ u16 c.req 6 = 0 ∧ streamBusy s.dev (u16 c.req 0) =
          false) ∧
    (∃ s : State, ∃ c : Cmd, Takes s c 28 ∧ u8 c.req 2 = 2 ∧ u8 c.req 3 = 0 ∧ u16 c.req 6 = 0) ∧
    (∃ s : State, ∃ c : Cmd, Takes s c 4 ∧ u32 c.req 0 = 0 ∧ s.dev.guard.cause = 0) ∧
    (∃ s : State, ∃ c : Cmd, Takes s c 4 ∧ u32 c.req 0 = 0 ∧ s.dev.pair.mode = 0 ∧ s.dev.guard.cause ≠ 0 ∧ (s.dev.guard.cause :: s.dev.guard.more).any
          (causeAsserted s.dev) = false) ∧
    (∃ s : State, ∃ c : Cmd, Takes s c 4 ∧ u32 c.req 0 = 0 ∧ s.dev.guard.cause ≠ 0 ∧ (s.dev.guard.cause :: s.dev.guard.more).any (causeAsserted s.dev)
          = true) :=
  ⟨⟨(st { ready with ports := [(0, { mode := 2, state := 4 }), (1, { mode := 2, state := 4 })] }), (rq 28 [(0, le 2 5), (3, le 1 1), (4, le 2 0), (8,
         le 4 100), (12, le 2 1)]), by decide +kernel⟩,
   ⟨(st { ready with guard := { streams := [(5, { slots := [{ port := 1, queue := 0, lastSent := 99 }] })] } }), (rq 28 [(0, le 2 5), (2, le 1 1)]),
         by decide +kernel⟩,
   ⟨st ready, (rq 28 [(0, le 2 5), (2, le 1 2)]), by decide +kernel⟩,
   ⟨st ready, (rq 4 []), by decide +kernel⟩,
   ⟨(st { ready with guard := { cause := 4, frozen := true, suspended := true } }), (rq 4 []), by decide +kernel⟩,
   ⟨(st { ready with guard := { cause := 3, frozen := true } }), (rq 4 []), by decide +kernel⟩⟩

theorem witness_GuardEventsComplete :
    (∃ s : State, ∃ t i : Nat, ∃ a : Nat, (frameOf s.dev i).cond = 2 ∧ (frameOf s.dev i).confirmed = some a ∧ (frameOf s.dev i).seq.isSome = true ∧
          (frameOf s.dev i).outcome = none ∧ a + 16000 ≤ (now t s).clock) ∧
    (∃ s : State, ∃ t i : Nat, ∃ a : Nat, (frameOf s.dev i).cond ≠ 2 ∧ (frameOf s.dev i).confirmed = some a ∧ (frameOf s.dev i).seq.isSome = true ∧
          (frameOf s.dev i).outcome = none ∧ a + 320000 ≤ (now t s).clock) ∧
    (∃ s : State, ∃ i st : Nat, ∃ n : Nat, (frameOf s.dev i).stream = some st ∧ (frameOf s.dev i).seq = some n ∧ islandAwake s.dev 0x4E = true ∧ (∀ r
          ∈ s.dev.guard.retains, r.stream = st → r.seq = n → ∀ k ∈ retainChannels s.dev r, (chanOf s.dev k).failed = false ∧ (chanOf s.dev k).training
          = false) ∧ (∀ r, s.dev.guard.retains.find? retainOpen = some r → r.stream = st ∧ r.seq = n)) ∧
    (∃ s : State, ∃ st n : Nat, s.dev.guard.holds.any (fun h => h.stream == st && h.seq == n) = true ∧ s.dev.guard.retains.any (fun r => r.stream ==
          st && r.seq == n && r.done && !r.lost) = false) ∧
    (∃ s : State, s.dev.guard.leaving = true ∧ s.dev.guard.frozen = true ∧ s.dev.guard.cause = 0) ∧
    (∃ s : State, s.dev.guard.storing = true) :=
  ⟨⟨(st
         { ready with frames := [(3, { state := 2, cond := 2, stream := some 5, seq := some 9, confirmed := some 0 })], guard := { ingressOpen := true, holds := [{ stream := 5, seq := 9, frame := { state := 2, stream := some 5, seq := some 9 }, slots := [] }], retains := [{ stream := 5, seq := 9, frame := { stream := some 5, seq := some 9 }, slots := [] }] }, pair := { mode := 1, role := 1 } }),
         16000, 3, 0, by decide +kernel⟩,
   ⟨(st
         { ready with frames := [(3, { state := 2, stream := some 5, seq := some 9, confirmed := some 0 })], guard := { ingressOpen := true, holds := [{ stream := 5, seq := 9, frame := { state := 2, stream := some 5, seq := some 9 }, slots := [] }], retains := [{ stream := 5, seq := 9, frame := { stream := some 5, seq := some 9 }, slots := [] }] } }),
         320000, 3, 0, by decide +kernel⟩,
   ⟨(st
         { ready with frames := [(3, { state := 2, stream := some 5, seq := some 9, confirmed := some 0 })], guard := { ingressOpen := true, holds := [{ stream := 5, seq := 9, frame := { state := 2, stream := some 5, seq := some 9 }, slots := [] }], retains := [{ stream := 5, seq := 9, frame := { stream := some 5, seq := some 9 }, slots := [] }] }, cistern := { channels := [(0, { inService := true })] } }),
         3, 5, 9, by decide +kernel⟩,
   ⟨(st
         { ready with guard := { ingressOpen := true, holds := [{ stream := 5, seq := 9, frame := { state := 2, stream := some 5, seq := some 9 }, slots := [] }], retains := [{ stream := 5, seq := 9, frame := { stream := some 5, seq := some 9 }, slots := [] }] } }),
         5, 9, by decide +kernel⟩,
   ⟨(st { ready with guard := { leaving := true, frozen := true } }), by decide +kernel⟩,
   ⟨(st { ready with guard := { storing := true, streams := [(5, { next := 7 })] } }), by decide +kernel⟩⟩

theorem witness_PortCommandsComplete :
    (∃ s : State, ∃ c : Cmd,
      let p := u16 c.req 0;
      let x := portOf s.dev p;
      let y := configured s.dev c.req; Takes s c 24 ∧ s.dev.power.bringup = true ∧ portUnused s.dev p = false ∧ portFieldsOk p c.req = true ∧ x.drain
          = none ∧ lanesClash s.dev p y.mode = false ∧ (guardedPort s.dev p = true → x.mode ≠ 0 → modeOf x = y.mode) ∧ (List.range (modeLanes y.mode -
          1)).any (fun k => guardedPort s.dev (p + 1 + k)) = false ∧ portPooled s.dev p = false ∧ (y.mode = 0x0C → portPooled s.dev (p + 8) = false) ∧
          portQueues s.dev p ≠ [] ∧ floorKept (setHeadroom (setPort p { y with state := if x.state = 0 then firstState y else x.state } (begun 0x0101
          c s.dev))) 0 0 = true ∧ floorKept (setHeadroom (setPort p { y with state := if x.state = 0 then firstState y else x.state } (begun 0x0101 c
          s.dev))) 1 0 = true) ∧
    (∃ s : State, ∃ c : Cmd,
      let p := u16 c.req 0; Takes s c 4 ∧ portUnused s.dev p = false ∧ u8 c.req 2 ≤ 1 ∧ u8 c.req 3 ≤ 1 ∧ (portOf s.dev p).state ≠ 0 ∧ (guardedPort
          s.dev p = false ∨ u8 c.req 3 = 1) ∧ (portOf s.dev p).drain = none ∧ (u8 c.req 2 = 0 → (portOf s.dev p).state = 4 → portBusy s.dev p =
          false)) ∧
    (∃ s : State, ∃ c : Cmd,
      let p := u16 c.req 0; Takes s c 4 ∧ portUnused s.dev p = false ∧ u8 c.req 2 = 0 ∧ u8 c.req 3 ≤ 1 ∧ (portOf s.dev p).state = 4 ∧ (guardedPort
          s.dev p = false ∨ u8 c.req 3 = 1) ∧ (portOf s.dev p).drain = none ∧ portBusy s.dev p = true ∧ s.dev.helm.open_.length < 1024) ∧
    (∃ s : State, ∃ c : Cmd,
      let p := u16 c.req 0; Takes s c 4 ∧ portUnused s.dev p = false ∧ u8 c.req 2 ≤ 1 ∧ u8 c.req 3 ≤ 1 ∧ ((portOf s.dev p).state = 0 ∨ guardedPort
          s.dev p = true ∧ u8 c.req 3 = 0)) ∧
    (∃ s : State, ∃ c : Cmd,
      let p := u16 c.req 0; Takes s c 4 ∧ portUnused s.dev p = false ∧ u16 c.req 2 = 0) ∧
    (∃ s : State, ∃ c : Cmd,
      let gs : List Cage := (List.range (u8 c.req 2)).map fun k =>
          { lane := u16 c.req (4 + 4 * k), path := u8 c.req (6 + 4 * k), addr := u8 c.req (7 + 4 * k) }; Takes s c 4 ∧ u8 c.req 0 ≤ 15 ∧ u8 c.req 1 ≤
          2 ∧ u8 c.req 2 ≤ 64 ∧ u8 c.req 3 = 0 ∧ 4 + 4 * u8 c.req 2 ≤ c.req.length ∧ (∀ g ∈ gs, masterFor g.lane = u8 c.req 0 ∧ g.addr < 64 ∧ (bitOf
          g.path 7 = true → bitOf g.path 6 = true)) ∧ (gs.map (·.lane)).Nodup) ∧
    (∃ s : State, ∃ c : Cmd, ∃ j : I2cJob, Takes s c 136 ∧ accessJob s.dev c.box c.req = .inr j) :=
  ⟨⟨(st { ready with power := { bringup := true } }), (rq 24 [(0, le 2 0), (2, le 1 2), (3, le 1 0), (8, le 2 1518)]), by decide +kernel⟩,
   ⟨(st { ready with ports := [(0, { mode := 2, state := 4 })] }), (rq 4 [(2, le 1 1)]), by decide +kernel⟩,
   ⟨(st { ready with ports := [(0, { mode := 2, state := 4 })], copies := [(0, { state := 1 })], tm := { queues := [(0, { copies := [0] })] } }), (rq
         4 []), by decide +kernel⟩,
   ⟨st ready, (rq 4 [(0, le 2 511)]), by decide +kernel⟩,
   ⟨(st { ready with ports := [(0, { mode := 2, state := 4 })] }), (rq 4 []), by decide +kernel⟩,
   ⟨st ready, (rq 8 [(2, le 1 1), (6, le 1 0), (7, le 1 5)]), by decide +kernel⟩,
   ⟨(st { ready with masters := [(0, { cages := [{ lane := 0, path := 0, addr := 0, present := true }] })] }), (rq 136 [(4, le 1 1), (6, le 1 1)]),
         { box := 0, lane := 0, op := 0, bank := 0, page := 1, offset := 0, length := 1, data := [0] }, by decide +kernel⟩⟩

theorem witness_PortEventsComplete :
    (∃ s : State, ∃ lane : Nat, ∃ g : Cage, s.dev.helm.state = 1 ∧ cageOf s.dev lane = some g ∧ (masterOf s.dev (masterFor lane)).jobs = [] ∧
          g.present = false) ∧
    (∃ s : State, ∃ lane : Nat, ∃ g : Cage, s.dev.helm.state = 1 ∧ cageOf s.dev lane = some g ∧ (masterOf s.dev (masterFor lane)).jobs = [] ∧
          g.present = true ∧ 2 ≤ g.missed) ∧
    (∃ s : State, ∃ lane : Nat, ∃ g : Cage, s.dev.helm.state = 1 ∧ cageOf s.dev lane = some g ∧ (masterOf s.dev (masterFor lane)).jobs ≠ []) ∧
    (∃ s : State, ∃ i2c ident : Nat, ∃ rev : Nat, ∃ apps : List Nat, ∃ replies : List (Nat × (Nat × Nat × List Nat)), ∃ g : Cage, s.dev.helm.state = 1
          ∧ (∀ h ∈ (masterOf s.dev i2c).cages, masterFor h.lane = i2c) ∧ (masterOf s.dev i2c).jobs = [] ∧ g ∈ (masterOf s.dev i2c).cages ∧ cageOf
          s.dev g.lane = some g ∧ g.present = false ∧ (replies.find? fun e => e.1 == g.lane) = some (g.lane, (ident, rev, apps))) ∧
    (∃ s : State, ∃ lane : Nat, ∃ g : Cage, s.dev.helm.state = 1 ∧ cageOf s.dev lane = some g ∧ (masterOf s.dev (masterFor lane)).jobs = [] ∧
          g.present = true) ∧
    (∃ s : State, ∃ lane : Nat, ∃ g : Cage, s.dev.helm.state = 1 ∧ cageOf s.dev lane = some g ∧ g.present = true ∧ g.lowPower = false ∧ g.ready =
          false) ∧
    (∃ s : State, ∃ i2c : Nat, ∃ j : I2cJob, ∃ rest : List I2cJob, (masterOf s.dev i2c).jobs = j :: rest ∧ j.box < 16) ∧
    (∃ s : State, ∃ port base : Nat, ∃ ability : Nat, (portOf s.dev port).state = 1 ∧ (portOf s.dev port).anFailedAt = none ∧ (∀ b m, resolveTech
          (portOf s.dev port).anAbility (base ||| ability) = some b → techMode b = some m → techFits s.dev port m = false)) ∧
    (∃ s : State, ∃ port base : Nat, ∃ ability b : Nat, ∃ m : Nat, (portOf s.dev port).state = 1 ∧ (portOf s.dev port).anFailedAt = none ∧ resolveTech
          (portOf s.dev port).anAbility (base ||| ability) = some b ∧ techMode b = some m ∧ techFits s.dev port m = true) ∧
    (∃ s : State, ∃ t port : Nat, ∃ a : Nat, (portOf s.dev port).anFailedAt = some a ∧ a + 8000000000 ≤ (now t s).clock) ∧
    (∃ s : State, ∃ port : Nat, (portOf s.dev port).state = 2) ∧
    (∃ s : State, ∃ port : Nat, (portOf s.dev port).state = 3) ∧
    (∃ s : State, ∃ t port : Nat, ∃ a : Nat, (portOf s.dev port).state = 3 ∧ (portOf s.dev port).alignedAt = some a ∧ a + 16000000 * (portOf s.dev
          port).upHold ≤ (now t s).clock) ∧
    (∃ s : State, ∃ port cause : Nat, (portOf s.dev port).state = 4 ∧ 1 ≤ cause ∧ cause ≤ 7) ∧
    (∃ s : State, ∃ port cause : Nat, (portOf s.dev port).state ≠ 4 ∧ (portOf s.dev port).state ≠ 0 ∧ 1 ≤ cause ∧ cause ≤ 7) ∧
    (∃ s : State, ∃ t port : Nat, ∃ n since : Nat, (portOf s.dev port).drain = some (n, since) ∧ (portBusy s.dev port = false ∨ since + 160000000 ≤
          (now t s).clock)) :=
  ⟨⟨(st { ready with masters := [(0, { cages := [{ lane := 0, path := 0, addr := 0 }] })] }), 0, { lane := 0, path := 0, addr := 0 },
         by decide +kernel⟩,
   ⟨(st { ready with masters := [(0, { cages := [{ lane := 0, path := 0, addr := 0, present := true, missed := 2 }] })] }), 0,
         { lane := 0, path := 0, addr := 0, present := true, missed := 2 }, by decide +kernel⟩,
   ⟨(st
         { ready with masters := [(0, { cages := [{ lane := 0, path := 0, addr := 0 }], jobs := [{ box := 0, lane := 0, op := 0, bank := 0, page := 0, offset := 0, length := 1, data := [] }] })] }),
         0, { lane := 0, path := 0, addr := 0 }, by decide +kernel⟩,
   ⟨(st { ready with masters := [(0, { cages := [{ lane := 0, path := 0, addr := 0 }] })] }), 0, 0x19, 0x50, [2], [(0, (0x19, 0x50, [2]))],
         { lane := 0, path := 0, addr := 0 }, by decide +kernel⟩,
   ⟨(st { ready with masters := [(0, { cages := [{ lane := 0, path := 0, addr := 0, present := true }] })] }), 0,
         { lane := 0, path := 0, addr := 0, present := true }, by decide +kernel⟩,
   ⟨(st { ready with masters := [(0, { cages := [{ lane := 0, path := 0, addr := 0, present := true, lowPower := false }] })] }), 0,
         { lane := 0, path := 0, addr := 0, present := true, lowPower := false }, by decide +kernel⟩,
   ⟨(st { ready with masters := [(0, { jobs := [{ box := 0, lane := 0, op := 0, bank := 0, page := 0, offset := 0, length := 1, data := [] }] })] }),
         0, { box := 0, lane := 0, op := 0, bank := 0, page := 0, offset := 0, length := 1, data := [] }, [], by decide +kernel⟩,
   ⟨(st { ready with ports := [(0, { mode := 2, state := 1, an := true })] }), 0, 0, 0, by decide +kernel, by decide +kernel, fun _ _ h => nomatch h⟩,
   ⟨(st { ready with ports := [(0, { mode := 2, state := 1, an := true, anAbility := 1 })] }), 0, 0, 1, 0, 1, by decide +kernel⟩,
   ⟨(st { ready with ports := [(0, { mode := 2, state := 1, an := true, anFailedAt := some 0 })] }), 8000000000, 0, 0, by decide +kernel⟩,
   ⟨(st { ready with ports := [(0, { mode := 2, state := 2, training := true })] }), 0, by decide +kernel⟩,
   ⟨(st { ready with ports := [(0, { mode := 2, state := 3 })] }), 0, by decide +kernel⟩,
   ⟨(st { ready with ports := [(0, { mode := 2, state := 3, alignedAt := some 0, upHold := 2 })] }), 32000000, 0, 0, by decide +kernel⟩,
   ⟨(st { ready with ports := [(0, { mode := 2, state := 4 })] }), 0, 7, by decide +kernel⟩,
   ⟨(st { ready with ports := [(0, { mode := 2, state := 2, training := true })] }), 0, 1, by decide +kernel⟩,
   ⟨(st { ready with ports := [(0, { mode := 2, state := 4, drain := some (1, 0) })] }), 0, 0, 1, 0, by decide +kernel⟩⟩

theorem witness_TimeCommandsComplete :
    (∃ s : State, ∃ c : Cmd,
      let q := c.req; Takes s c 36 ∧ 1 ≤ u32 q 0 ∧ u32 q 0 ≤ 10000000 ∧ u32 q 4 ≤ 10000000 ∧ (u16 q 8 = 0 ∨ 16 ≤ u16 q 8 ∧ u16 q 8 ≤ 1024) ∧ u16 q 10
          = 0 ∧ (u32 q 12 = 0 ∨ 1600 ≤ u32 q 12 ∧ u32 q 12 ≤ 1600000000) ∧ u16 q 16 ≤ 500 ∧ (u32 q 20 = 0 ∨ 16 ≤ u32 q 20 ∧ u32 q 20 ≤ 65534) ∧
          -500000000 ≤ signed 32 (u32 q 24) ∧ signed 32 (u32 q 24) ≤ 500000000 ∧ (u32 q 28 = 0 ∨ 100 ≤ u32 q 28 ∧ u32 q 28 ≤ 500000000) ∧ u8 q 32 ≤ 1
          ∧ leAt q 33 3 = 0) ∧
    (∃ s : State, ∃ c : Cmd,
      let q := c.req;
      let n := u8 q 0; Takes s c 4 ∧ n ≤ 4 ∧ u8 q 1 = 0 ∧ u16 q 2 ≤ 3600 ∧ 4 + 16 * n ≤ q.length ∧ (∀ i < n, leAt q (15 + 16 * i) 5 = 0) ∧ (∀ i < n,
          sourceOk s.dev (sourceIn q i) = true)) ∧
    (∃ s : State, ∃ c : Cmd, Takes s c 4 ∧ u32 c.req 0 = 0) ∧
    (∃ s : State, ∃ c : Cmd, Takes s c 12 ∧ signed 64 (u64 c.req 0) ≠ 0 ∧ u8 c.req 8 ≤ 1 ∧ leAt c.req 9 3 = 0 ∧ s.dev.time.step = none ∧ (u8 c.req 8 =
          1 ∨ groupsEnabled s.dev = false) ∧ s.dev.helm.open_.length < 1024) ∧
    (∃ s : State, ∃ c : Cmd,
      let q := c.req;
      let p := u16 q 0; Takes s c 12 ∧ portUnused s.dev p = false ∧ u8 q 2 ≤ 3 ∧ u8 q 3 ≤ 1 ∧ u8 q 4 ≤ 7 ∧ u8 q 5 ≤ 1 ∧ u16 q 10 = 0 ∧ (u8 q 2 = 3 →
          (ptpPort s.dev p).role = 3 → (ptpPort s.dev p).domains = ((List.range 4).map fun k => u8 q (6 + k)).filter (· != 0xFF))) ∧
    (∃ s : State, ∃ c : Cmd, Takes s c 12 ∧ signed 64 (u64 c.req 0) ≠ 0 ∧ u8 c.req 8 ≤ 1 ∧ leAt c.req 9 3 = 0 ∧ (groupsEnabled s.dev = true ∧ u8 c.req
          8 = 0 ∨ s.dev.time.step.isSome = true)) :=
  ⟨⟨st ready, (rq 36 [(0, le 4 1), (8, le 2 16), (12, le 4 1600), (16, le 2 500), (20, le 4 65534), (28, le 4 100), (32, le 1 1)]), by decide +kernel⟩,
   ⟨(st { ready with ports := [(0, { mode := 2, state := 4 })], ptp := { ports := [(0, { role := 3 })] } }), (rq 20 [(0, le 1 1), (4, le 1 1), (8, le
         2 65535)]), by decide +kernel⟩,
   ⟨st ready, (rq 4 []), by decide +kernel⟩,
   ⟨st ready, (rq 12 [(0, le 8 (2 ^ 64 - 5))]), by decide +kernel⟩,
   ⟨(st { ready with ports := [(0, { mode := 2, state := 4 })] }), (rq 12 [(2, le 1 3)]), by decide +kernel⟩,
   ⟨(st { ready with time := { step := some { beat := 9, amount := 1, ticket := none } } }), (rq 12 [(0, le 8 5)]), by decide +kernel⟩⟩

theorem witness_TimeEventsComplete :
    (∃ s : State, ∃ t i : Nat, i ∈ beatIslands ∧ islandAwake s.dev i = true ∧ (island s.dev i).beatAt + 16000 ≤ (now t s).clock) ∧
    (∃ s : State, ∃ t : Nat, ∃ x : Step, s.dev.time.step = some x ∧ x.beat * 4096 ≤ coreTicks (now t s).time.west) ∧
    (∃ sel : Nat, sel < 2) ∧
    (∃ s : State, s.dev.helm.state = 1) ∧
    (∃ s : State, ∃ t : Nat, ∃ east : Bool, (if east then s.dev.time.east else s.dev.time.west).updated + 4000000000 ≤ (now t s).clock ∧ isPresent
          s.dev (0x700 + b2n east) 0x1B = false) ∧
    (∃ s : State, ∃ t : Nat, ∃ m : Int, 16 < ((coreTicks (now t s).time.west : Int) - coreTicks (now t s).time.east + m).natAbs ∧ s.dev.time.mismatch
          = none ∧ s.dev.time.unresolved = false ∧ s.dev.time.westRepointed = false ∧ s.dev.time.eastRepointed = false) ∧
    (∃ s : State, ∃ a i : Nat, ∃ x : Source, ∃ r : Int × Int, ∃ east : Bool, s.dev.time.mismatch = some a ∧ s.dev.time.entry = some i ∧
          s.dev.time.sources[i]? = some x ∧ (x.kind = 1 ∨ x.kind = 4 ∨ x.kind = 5) ∧ resolves s.dev x = true ∧ wrongCore s.dev.time.west.servoTerm r.1
          r.2 = some east) ∧
    (∃ s : State, ∃ t a : Nat, s.dev.time.mismatch = some a ∧ a + 32000000000 ≤ (now t s).clock) :=
  ⟨⟨st ready, 16000, 0x40, by decide +kernel⟩,
   ⟨(st { ready with time := { step := some { beat := 2, amount := 100, ticket := none } } }), 8192, { beat := 2, amount := 100, ticket := none },
         by decide +kernel⟩,
   ⟨1, by decide +kernel⟩,
   ⟨st ready, by decide +kernel⟩,
   ⟨(st { ready with time := { servo := 2 } }), 4000000000, true, by decide +kernel⟩,
   ⟨st ready, 0, 17, by decide +kernel⟩,
   ⟨(st
         { ready with time := { mismatch := some 0, entry := some 0, src := 1, sources := [{ kind := 1, qualify := 3, port := 0, resolve := 256, refAccuracy := 0, asymmetry := 0, domain := 0 }] }, ports := [(0, { mode := 2, state := 4 }), (256, { mode := 2, state := 4 })], ptp := { ports := [(0, { role := 3, domains := [0] }), (256, { role := 3, domains := [0] })] } }),
         0, 0, { kind := 1, qualify := 3, port := 0, resolve := 256, refAccuracy := 0, asymmetry := 0, domain := 0 }, (100, 0), false,
         by decide +kernel⟩,
   ⟨(st { ready with time := { mismatch := some 0 } }), 32000000000, 0, by decide +kernel⟩⟩

theorem witness_ReferenceAndPtpEventsComplete :
    (∃ s : State, ∃ t i : Nat, ∃ x : Source, s.dev.time.sources[i]? = some x ∧ x.qualified = false ∧ sourceReady (now t s) x = true) ∧
    (∃ s : State, ∃ t i : Nat, ∃ x : Source, ∃ ten : Option Int × Option Int, s.dev.time.sources[i]? = some x ∧ x.qualified = true ∧ sourceGone
          (measureTen ten (now t s)) x = true) ∧
    (∃ s : State, ∃ t i : Nat, ∃ e : Nat, ∃ x : Source, s.dev.time.sources[i]? = some x ∧ x.qualified = true ∧ s.dev.time.entry = some e ∧ i < e ∧
          bestSource (now t s) = some i ∧ restored (now t s) x = true) ∧
    (∃ s : State, s.dev.time.mismatch = none) ∧
    (∃ s : State, ∃ a : Nat, s.dev.time.ppsAt = some a) ∧
    (∃ s : State, ∃ t : Nat,
      let off := s.dev.time.ppsOffset * 16;
      let sec := ((coreTicks (ppsCore (now t s)) : Int) - off) / 16000000000;
      let edge := (sec * 16000000000 + off).toNat; 0 ≤ sec ∧ s.dev.time.ppsOutAt ≠ some edge) ∧
    (∃ s : State, ∃ t e : Nat, s.dev.time.ppsOutAt = some e ∧ e + 3200000000 ≤ coreTicks (ppsCore (now t s)) ∧ s.dev.time.todSentFor ≠ some e) ∧
    (∃ s : State, ∃ port queue : Nat, ∃ bytes : List Byte, s.dev.helm.state = 1 ∧ sendsType (ptpPort s.dev port).role (ptpPort s.dev port).delay
          ((ptpAt bytes).map fun x => ptpType bytes x.1) = true ∧ (portOf s.dev port).state = 4 ∧ queue < (queueRange s.dev port).2) :=
  ⟨⟨(st
         { ready with time := { sources := [{ kind := 2, qualify := 3, port := 0, resolve := 0xFFFF, refAccuracy := 0, asymmetry := 0, domain := 0 }], ppsGoodSince := some 0, ppsAt := some 48000000000 } }),
         48000000000, 0, { kind := 2, qualify := 3, port := 0, resolve := 0xFFFF, refAccuracy := 0, asymmetry := 0, domain := 0 }, by decide +kernel⟩,
   ⟨(st
         { ready with time := { sources := [{ kind := 2, qualify := 3, port := 0, resolve := 0xFFFF, refAccuracy := 0, asymmetry := 0, domain := 0, qualified := true }], entry := some 0, src := 2 } }),
         0, 0, { kind := 2, qualify := 3, port := 0, resolve := 0xFFFF, refAccuracy := 0, asymmetry := 0, domain := 0, qualified := true }, (none,
         none), by decide +kernel⟩,
   ⟨(st
         { ready with time := { sources := [{ kind := 2, qualify := 3, port := 0, resolve := 0xFFFF, refAccuracy := 0, asymmetry := 0, domain := 0, qualified := true }, { kind := 3, qualify := 3, port := 0, resolve := 0xFFFF, refAccuracy := 0, asymmetry := 0, domain := 0, qualified := true }], entry := some 1, src := 3, waitRestore := 1 } }),
         16000000000, 0, 1,
         { kind := 2, qualify := 3, port := 0, resolve := 0xFFFF, refAccuracy := 0, asymmetry := 0, domain := 0, qualified := true },
         by decide +kernel⟩,
   ⟨st ready, by decide +kernel⟩,
   ⟨(st { ready with time := { ppsAt := some 0, todFormat := 1 } }), 0, by decide +kernel⟩,
   ⟨st ready, 0, by decide +kernel⟩,
   ⟨(st { ready with time := { ppsOutAt := some 0 } }), 3200000000, 0, by decide +kernel⟩,
   ⟨(st { ready with ports := [(0, { mode := 2, state := 4 })], ptp := { ports := [(0, { role := 3 })] } }), 0, 0, List.replicate 60 0,
         by decide +kernel⟩⟩

set_option maxRecDepth 20000 in
theorem witness_ParseAndTableCommandsComplete :
    (∃ s : State, ∃ c : Cmd, ∃ b : List Byte, Takes s c 16 ∧ refusedHere s.dev = false ∧ u64 c.req 0 % 64 = 0 ∧ 64 ≤ u32 c.req 8 ∧ u32 c.req 8 ≤ 65600
          ∧ u32 c.req 12 = 0 ∧ writable (begun 0x0501 c s.dev) = true ∧ imageError (u64 c.req 0) (u32 c.req 8) (padTo (u32 c.req 8) b) = none ∧
          opVerdict s.dev 4 0 = stOk ∧ s.dev.helm.open_.length < 1024) ∧
    (∃ s : State, ∃ c : Cmd,
      let b := u8 c.req 0; Takes s c 12 ∧ (b ≤ 7 ∨ b = 0xFF) ∧ u8 c.req 1 ≤ 2 ∧ u8 c.req 2 ≤ 2 ∧ u8 c.req 3 = 0 ∧ u32 c.req 4 ≤ 1000000 ∧ 1 ≤ u16
          c.req 8 ∧ u16 c.req 8 ≤ 1024 ∧ u16 c.req 10 = 0) ∧
    (∃ s : State, ∃ c : Cmd, Takes s c 4 ∧ u32 c.req 0 = 0) ∧
    (∃ s : State, ∃ c : Cmd,
      let q := c.req;
      let t := u8 q 0; Takes s c 24 ∧ refusedHere s.dev = false ∧ t ≤ 15 ∧ u8 q 1 ≠ 0 ∧ u8 q 1 ≤ 2 ∧ u8 q 2 ≤ 1 ∧ 1 ≤ u8 q 3 ∧ u8 q 3 ≤ (if u8 q 2 = 1
          then 48 else 12) ∧ 1 ≤ u8 q 5 ∧ u8 q 4 + u8 q 5 ≤ 64 ∧ u16 q 6 = 0 ∧ (∀ k < 16, k ≠ t → blocksOverlap (tableDef s.dev k) (u8 q 4) (u8 q 5) =
          false) ∧ segmentsOk (slice q 8 8) = true ∧ segmentsLen (slice q 8 8) ≤ u8 q 3 ∧ tableUsed s.dev t = false) ∧
    (∃ s : State, ∃ c : Cmd, ∃ code key : Nat, Takes s c 192 ∧ refusedHere s.dev = false ∧ askWrite c.req (begun 0x0602 c s.dev) = .op code key ∧
          opVerdict s.dev code key = stOk ∧ s.dev.helm.open_.length < 1024) ∧
    (∃ s : State, ∃ c : Cmd, Takes s c 192 ∧ refusedHere s.dev = false ∧ writeOk s.dev c.req = true ∧ u8 c.req 2 = 0 ∧ writable (begun 0x0602 c s.dev)
          = false) ∧
    (∃ s : State, ∃ c : Cmd, Takes s c 4 ∧ refusedHere s.dev = false ∧ u32 c.req 0 = 0 ∧ s.dev.tables.swap = none ∧ snapshotOut s.dev = false ∧ (genOf
          s.dev (inactive s.dev)).incomplete = false ∧ opVerdict s.dev 6 0 = stOk ∧ s.dev.helm.open_.length < 1024) ∧
    (∃ s : State, ∃ c : Cmd, Takes s c 4 ∧ refusedHere s.dev = false ∧ u32 c.req 0 = 0 ∧ writable (begun 0x0604 c s.dev) = true ∧ opVerdict s.dev 7 0
          = stOk ∧ s.dev.helm.open_.length < 1024) :=
  ⟨⟨st ready, (rq 16 [(8, le 4 320)]), (le 4 0x4E5A4731 ++ le 2 1 ++ le 2 1 ++ [0, 0, 0, 0] ++ le 4 (crc32 (List.replicate 256 0)) ++ List.replicate
         304 0), by decide +kernel⟩,
   ⟨st ready, (rq 12 [(0, le 1 255), (1, le 1 2), (4, le 4 1000000), (8, le 2 1)]), by decide +kernel⟩,
   ⟨st ready, (rq 4 []), by decide +kernel⟩,
   ⟨st ready, (rq 24 [(0, le 1 15), (1, le 1 2), (2, le 1 0), (3, le 1 6), (5, le 1 1), (8, le 1 5)]), by decide +kernel⟩,
   ⟨st ready, (rq 192 [(0, le 1 1)]), 2, 0, by decide +kernel⟩,
   ⟨(st { ready with tables := { swap := some { op := 0, beat := 4 } } }), (rq 192 [(0, le 1 1)]), by decide +kernel⟩,
   ⟨st ready, (rq 4 []), by decide +kernel⟩,
   ⟨st ready, (rq 4 []), by decide +kernel⟩⟩

theorem witness_TableEventsComplete :
    (∃ s : State, ∃ t : Nat, ∃ x : Swap, s.dev.tables.swap = some x ∧ x.flipped = false ∧ x.pushed = true ∧ beatReached (now t s) x.beat = true) ∧
    (∃ s : State, ∃ t : Nat, ∃ x : Swap, ∃ o : Op, s.dev.tables.swap = some x ∧ x.flipped = true ∧ swapOp s.dev = some o ∧ drained (now t s) (inactive
          s.dev) = true) ∧
    (∃ s : State, ∃ b g : Nat, ∃ i : Nat, b < 8 ∧ i < 16384 ∧ islandAwake s.dev (0x40 + b) = true ∧ (tget none (genOf s.dev (g % 2)).tcam i).isSome =
          true ∧ blockBusy s.dev (i / 1024) = false) ∧
    (∃ s : State, ∃ basin addr : Nat,
      let a := entryAddr addr;
      let tb := a / 2 ^ 24 % 16; islandAwake s.dev (0x40 + basin) = true ∧ (s.dev.tables.bad.any fun e => e.basin == basin && e.addr == a &&
          e.suspect) = true ∧ wordsFail (tableDef s.dev tb) (slotWords s.dev basin tb (a % 2 ^ 24)) = false) ∧
    (∃ s : State, ∃ basin addr : Nat,
      let a := entryAddr addr;
      let tb := a / 2 ^ 24 % 16; islandAwake s.dev (0x40 + basin) = true ∧ (s.dev.tables.bad.any fun e => e.basin == basin && e.addr == a &&
          e.suspect) = true ∧ (tableDef s.dev tb).kind ≠ 2) ∧
    (∃ s : State, ∃ basin addr : Nat,
      let a := entryAddr addr;
      let tb := a / 2 ^ 24 % 16; islandAwake s.dev (0x40 + basin) = true ∧ (s.dev.tables.bad.any fun e => e.basin == basin && e.addr == a &&
          e.suspect) = true ∧ (tableDef s.dev tb).kind = 2 ∧ basin < 8) :=
  ⟨⟨(st
         { ready with tables := { swap := some { op := 0, beat := 4, pushed := true } }, steward := { ops := [{ id := 0, code := 6, state := 2, beat := 4 }], nextOp := 1 } }),
         20000, { op := 0, beat := 4, pushed := true }, by decide +kernel⟩,
   ⟨(st
         { ready with tables := { swap := some { op := 0, beat := 4, flipped := true }, current := 1, genA := { zeroAt := some 0 } }, steward := { ops := [{ id := 0, code := 6, state := 2, beat := 4 }], nextOp := 1 } }),
         20000000000, { op := 0, beat := 4, flipped := true }, { id := 0, code := 6, state := 2, beat := 4 }, by decide +kernel⟩,
   ⟨(st { ready with tables := { genA := { tcam := [(3, some { wide := false, key := [], mask := [], result := 1 })] } } }), 7, 0, 3,
         by decide +kernel⟩,
   ⟨(st { ready with tables := { bad := [{ basin := 1, addr := entryAddr 5, at_ := 0, suspect := true }] } }), 1, 5, by decide +kernel⟩,
   ⟨(st { ready with tables := { bad := [{ basin := 1, addr := entryAddr 5, at_ := 0, suspect := true }] } }), 1, 5, by decide +kernel⟩,
   ⟨(st
         { ready with tables := { bad := [{ basin := 1, addr := entryAddr 5, at_ := 0, suspect := true }], defs := [(0, { kind := 2, keyBytes := 6 })] } }),
         1, 5, by decide +kernel⟩⟩

theorem witness_ActionsAndLearningComplete :
    (∃ s : State, ∃ c : Cmd,
      let size := if u8 c.req 0 = 0 then 32 else 128; Takes s c 8 ∧ refusedHere s.dev = false ∧ u8 c.req 0 ≤ 1 ∧ 1 ≤ u8 c.req 1 ∧ u8 c.req 1 ≤ (if u8
          c.req 0 = 0 then 120 else 30) ∧ u16 c.req 2 = 0 ∧ 8 + size * u8 c.req 1 ≤ c.req.length ∧ entryError s.dev c.req = none ∧ writable (begun
          0x0701 c s.dev) = true ∧ opVerdict s.dev 3 0 = stOk ∧ s.dev.helm.open_.length < 1024) ∧
    (∃ s : State, ∃ c : Cmd, Takes s c 16 ∧ refusedHere s.dev = false ∧ u16 c.req 0 ≤ 32767 ∧ u16 c.req 2 ≤ 512 ∧ u32 c.req 4 = 0 ∧ u64 c.req 8 % 8 =
          0 ∧ opVerdict s.dev 5 0 = stOk ∧ s.dev.helm.open_.length < 1024) ∧
    (∃ s : State, ∃ c : Cmd,
      let q := c.req; Takes s c 12 ∧ u8 q 0 ≤ 7 ∧ u8 q 1 ≤ 3 ∧ portUnused s.dev (u16 q 2) = false ∧ u16 q 4 ≤ 1023 ∧ (u16 q 6 = 0 ∨ 64 ≤ u16 q 6 ∧ u16
          q 6 ≤ 9216) ∧ 1 ≤ u32 q 8 ∧ u32 q 8 ≤ 16777216) ∧
    (∃ s : State, ∃ c : Cmd,
      let q := c.req;
      let t := u8 q 0;
      let segs := slice q 4 8;
      let reach := if u32 q 28 = 0 then 2000 else u32 q 28; Takes s c 32 ∧ t ≤ 15 ∧ (tableDef s.dev t).kind = 2 ∧ (u16 q 2 = 0xFFFF ∨ u16 q 2 ≤ 94) ∧
          segmentsOk segs = true ∧ segmentsLen segs = (tableDef s.dev t).keyBytes ∧ u32 q 12 ≤ 65535 ∧ templateBad s.dev.tables.genA (u32 q 12) =
          false ∧ templateBad s.dev.tables.genB (u32 q 12) = false ∧ u16 q 16 + 4095 ≤ 32767 ∧ u16 q 18 ≤ 3600 ∧ (u32 q 20 = 0 ∨ 8 ≤ u32 q 20 ∧ u32 q
          20 ≤ 1000000) ∧ u32 q 24 ≤ 60000 ∧ 500 ≤ reach ∧ reach ≤ 20000 ∧ minReach (begun 0x0704 c s.dev) ≤ reach ∧ (segs = (learnOf s.dev
          t).segments ∨ learnedUsed s.dev t = false)) ∧
    (∃ s : State, ∃ c : Cmd, Takes s c 4 ∧ u8 c.req 0 ≤ 15 ∧ (tableDef s.dev (u8 c.req 0)).kind = 2 ∧ (portUnused s.dev (u16 c.req 2) = false ∨ u16
          c.req 2 = 0xFFFF) ∧ opVerdict s.dev 9 (u8 c.req 0 + 1) = stOk ∧ s.dev.helm.open_.length < 1024) ∧
    (∃ s : State, ∃ c : Cmd,
      let h := if u16 c.req 0 = 0 then 64 else u16 c.req 0; Takes s c 4 ∧ 64 ≤ h ∧ h ≤ 256 ∧ h % 16 = 0 ∧ u8 c.req 2 ≤ 1 ∧ u8 c.req 3 = 0) ∧
    (∃ s : State, ∃ t basin : Nat, ∃ r : LearnReq, ∃ rest : List LearnReq, (basinState s.dev basin).queue = r :: rest ∧ r.released = false ∧ r.ticks +
          16 * s.dev.tables.reach ≤ basinTicks (now t s) basin ∧ opVerdict s.dev 8 (r.table + 1) = stOk) ∧
    (∃ s : State, ∃ t table : Nat, (tableDef s.dev table).kind = 2 ∧ (learnOf s.dev table).sweptAt + (learnOf s.dev table).ageTime * 2000000000 ≤ (now
          t s).clock ∧ opVerdict s.dev 9 (table + 1) = stOk) :=
  ⟨⟨(st { ready with ports := [(0, { mode := 2, state := 4 })] }), (rq 40 [(1, le 1 1)]), by decide +kernel⟩,
   ⟨st ready, (rq 16 [(0, le 2 7), (2, le 2 0)]), by decide +kernel⟩,
   ⟨(st { ready with ports := [(0, { mode := 2, state := 4 })] }), (rq 12 [(6, le 2 64), (8, le 4 1)]), by decide +kernel⟩,
   ⟨(st { ready with tables := { defs := [(0, { kind := 2, keyBytes := 6 })] } }), (rq 32 [(4, le 1 0), (5, le 1 6)]), by decide +kernel⟩,
   ⟨(st { ready with tables := { defs := [(2, { kind := 2 })] } }), (rq 4 [(0, le 1 2), (2, le 2 65535)]), by decide +kernel⟩,
   ⟨st ready, (rq 4 [(0, le 2 256), (2, le 1 1)]), by decide +kernel⟩,
   ⟨(st { ready with tables := { basins := [(1, { queue := [{ table := 2, key := [1], ticks := 0, port := 0, frame := 0 }] })] } }), 100000, 1,
         { table := 2, key := [1], ticks := 0, port := 0, frame := 0 }, [], by decide +kernel⟩,
   ⟨(st { ready with tables := { defs := [(2, { kind := 2 })] } }), 600000000000, 2, by decide +kernel⟩⟩

theorem witness_QueueCommandsComplete :
    (∃ s : State, ∃ c : Cmd, ∃ b : Nat,
      let p := u16 c.req 0;
      let n := u16 c.req 2;
      let base := u32 c.req 4; Takes s c 8 ∧ portUnused s.dev p = false ∧ 8 ≤ n ∧ n ≤ 1024 ∧ n % 8 = 0 ∧ (base = 0xFFFFFFFF ∨ base % 8 = 0 ∧ dieOf p *
          32768 ≤ base ∧ base + n ≤ dieOf p * 32768 + 32768) ∧ (portOf s.dev p).state = 0 ∧ (∀ q ∈ portQueues s.dev p, queueHolds s.dev q = false) ∧
          chooseBase s.dev p n base = some b) ∧
    (∃ s : State, ∃ c : Cmd,
      let b := u32 c.req 0;
      let n := u16 c.req 4;
      let inside := fun (p : Nat) => (portQueues s.dev p).all fun x => decide (b ≤ x) && decide (x < b + n); Takes s c 8 ∧ b + n ≤ 65536 ∧ u16 c.req 6
          = 0 ∧ (∀ k < n, queueHolds s.dev (b + k) = false) ∧ (∀ k < n, ∀ p, queuePort s.dev (b + k) = some p → (portOf s.dev p).state = 0 ∧
          (portUnused s.dev p = true ∨ inside p = true))) ∧
    (∃ s : State, ∃ c : Cmd, ∃ p : Nat,
      let q := c.req;
      let n := u32 q 0;
      let g := u16 q 4;
      let x := queueOf s.dev n;
      let more : Int := (u16 q 10 : Int) - x.minCells; Takes s c 16 ∧ queuePort s.dev n = some p ∧ g ≤ 8191 ∧ groupPort s.dev g = p ∧ u8 q 6 ≤ 7 ∧ u8
          q 7 ≤ 7 ∧ u16 q 8 ≠ 0 ∧ u16 q 10 ≤ 4095 ∧ u8 q 12 ≤ 11 ∧ leAt q 13 3 = 0 ∧ (g = queueGroup s.dev n ∨ x.copies = []) ∧ (more ≤ 0 ∨ floorKept
          s.dev 0 more = true ∧ floorKept s.dev 1 more = true)) ∧
    (∃ s : State, ∃ c : Cmd,
      let q := c.req;
      let g := u16 q 0;
      let p := u16 q 2; Takes s c 8 ∧ g ≤ 8191 ∧ portUnused s.dev p = false ∧ dieOf p = g / 4096 ∧ u8 q 4 ≤ 7 ∧ u8 q 5 = 0 ∧ u16 q 6 ≠ 0 ∧ (p =
          groupPort s.dev g ∨ ∀ x ∈ portQueues s.dev (groupPort s.dev g), queueGroup s.dev x ≠ g)) ∧
    (∃ s : State, ∃ c : Cmd,
      let q := c.req;
      let i := u16 q 2;
      let rate := u32 q 4;
      let burst := u32 q 8; Takes s c 12 ∧ u8 q 0 ≤ 2 ∧ u8 q 1 = 0 ∧ (u8 q 0 = 1 → i ≤ 8191) ∧ (u8 q 0 = 2 → portUnused s.dev i = false) ∧ rate % 8 =
          0 ∧ rate ≤ 800000000 ∧ burst ≤ 16777215) ∧
    (∃ s : State, ∃ c : Cmd,
      let die := u8 c.req 0;
      let n := if u32 c.req 4 = 0 then 16384 else u32 c.req 4; Takes s c 8 ∧ die ≤ 1 ∧ leAt c.req 1 3 = 0 ∧ 1024 ≤ n ∧ n ≤ 131072 ∧ guardUsed (begun
          0x0906 c s.dev) die ≤ n ∧ floorKept s.dev die ((n : Int) - guardCells s.dev die) = true) :=
  ⟨⟨(st { ready with ports := [(0, { mode := 2, state := 0 })] }), (rq 8 [(2, le 2 8), (4, le 4 0xFFFFFFFF)]), 0, by decide +kernel⟩,
   ⟨(st { ready with ports := [(0, { mode := 2, state := 0 })] }), (rq 8 [(4, le 2 128)]), by decide +kernel⟩,
   ⟨(st { ready with ports := [(0, { mode := 2, state := 4 })] }), (rq 16 [(4, le 2 0), (6, le 1 7), (7, le 1 1), (8, le 2 3), (12, le 1 11)]), 0,
         by decide +kernel⟩,
   ⟨(st { ready with ports := [(0, { mode := 2, state := 4 })] }), (rq 8 [(0, le 2 3), (4, le 1 2), (6, le 2 1)]), by decide +kernel⟩,
   ⟨(st { ready with ports := [(0, { mode := 2, state := 4 })] }), (rq 12 [(0, le 1 2), (4, le 4 8), (8, le 4 2000)]), by decide +kernel⟩,
   ⟨st ready, (rq 8 [(4, le 4 1024)]), by decide +kernel⟩⟩

theorem witness_PolicersGatesSamplesComplete :
    (∃ s : State, ∃ c : Cmd,
      let q := c.req; Takes s c 20 ∧ u16 q 0 ≤ 32767 ∧ u8 q 2 ≤ 2 ∧ u8 q 3 ≤ 1 ∧ 8 ≤ u32 q 4 ∧ u32 q 4 ≤ u32 q 8 ∧ u32 q 8 ≤ 800000000 ∧ 64 ≤ u32 q 12
          ∧ u32 q 12 ≤ 16777215 ∧ 64 ≤ u32 q 16 ∧ u32 q 16 ≤ 16777215) ∧
    (∃ s : State, ∃ c : Cmd,
      let q := c.req;
      let p := u16 q 0;
      let n := u16 q 2;
      let cycle := u32 q 16; Takes s c 24 ∧ portUnused s.dev p = false ∧ n ≤ 256 ∧ u32 q 4 = 0 ∧ 1000 ≤ cycle ∧ cycle ≤ 1000000000 ∧ u32 q 20 = 0 ∧ 24
          + 8 * n ≤ q.length ∧ (∀ k < n, 8 ≤ u32 q (28 + 8 * k) ∧ u32 q (28 + 8 * k) ≤ 1000000000 ∧ leAt q (25 + 8 * k) 3 = 0)) ∧
    (∃ s : State, ∃ c : Cmd,
      let q := c.req;
      let n := u16 q 8;
      let m := s.dev.tm.sampling; Takes s c 12 ∧ nameable s.dev (boxFn s.dev c.box) (u16 q 0) m.ring = true ∧ 6 ≤ u8 q 2 ∧ u8 q 2 ≤ 16 ∧ u8 q 3 ≤ 16 ∧
          1 ≤ u32 q 4 ∧ u32 q 4 ≤ 1000000 ∧ n ≤ 1024 ∧ u16 q 10 = 0 ∧ 12 + 2 * n ≤ q.length ∧ n * 1000 ≤ 16384 * u32 q 4) ∧
    (∃ s : State, ∃ c : Cmd,
      let n := u32 c.req 0; Takes s c 8 ∧ n ≤ 65535 ∧ u8 c.req 4 ≤ 1 ∧ leAt c.req 5 3 = 0) ∧
    (∃ s : State, ∃ t port : Nat, ∃ l : GateList, (schedOf s.dev port).pendGates = some l ∧ l.start ≤ gateTicks (now t s) port) ∧
    (∃ s : State, ∃ t : Nat,
      let m := s.dev.tm.sampling;
      let at_ := sampleTick (now t s) 0; at_ ≠ m.sampledAt ∧ sampleTick (now t s) 1 = at_ ∧ at_ ≠ m.sampledEast ∧ (∀ x ∈ m.open_, x.at_ ≠ at_)) ∧
    (∃ s : State, ∃ t : Nat,
      let m := s.dev.tm.sampling;
      let at_ := sampleTick (now t s) 1; sampleTick (now t s) 0 = m.sampledAt ∧ at_ ≠ m.sampledEast ∧ (m.open_.any fun x => x.at_ == at_) = true) ∧
    (∃ s : State, ∃ t : Nat, ∃ x : Sample, ∃ rest : List Sample, s.dev.tm.sampling.open_ = x :: rest ∧ x.at_ + 262144 ≤ tmTicks (now t s) 0 ∧ x.at_ +
          262144 ≤ tmTicks (now t s) 1) :=
  ⟨⟨st ready, (rq 20 [(0, le 2 32767), (2, le 1 1), (4, le 4 8), (8, le 4 8), (12, le 4 64), (16, le 4 64)]), by decide +kernel⟩,
   ⟨(st { ready with ports := [(0, { mode := 2, state := 4 })] }), (rq 32 [(2, le 2 1), (16, le 4 1000), (24, le 1 5), (28, le 4 1000)]),
         by decide +kernel⟩,
   ⟨st ready, (rq 14 [(0, le 2 65535), (2, le 1 6), (4, le 4 1000), (8, le 2 1), (12, le 2 3)]), by decide +kernel⟩,
   ⟨st ready, (rq 8 [(0, le 4 5), (4, le 1 1)]), by decide +kernel⟩,
   ⟨(st
         { ready with ports := [(0, { mode := 2, state := 4 })], tm := { scheds := [(0, { pendGates := some { start := 0, cycle := 1000, entries := [(1, 1000)] } })] } }),
         100, 0, { start := 0, cycle := 1000, entries := [(1, 1000)] }, by decide +kernel, Nat.zero_le _⟩,
   ⟨(st { ready with tm := { queues := [(5, { copies := [4] })] }, copies := [(4, { frame := 3, port := 0, queue := 5 })] }), 20000,
         by decide +kernel⟩,
   ⟨(st { ready with tm := { sampling := { period := 1000, sampledEast := 16384, open_ := [{ at_ := 0, queues := [], watched := [] }] } } }), 0,
         by decide +kernel⟩,
   ⟨(st { ready with tm := { sampling := { open_ := [{ at_ := 0, queues := [], watched := [] }] } } }), 300000,
         { at_ := 0, queues := [], watched := [] }, [], by decide +kernel⟩⟩

theorem witness_ReleaseCommandsComplete :
    (∃ s : State, ∃ c : Cmd,
      let q := c.req;
      let g := u8 q 0;
      let x := confOf s.dev g;
      let y : ConfGroup := { x with enabled := bitOf (u8 q 1) 0, recirc := bitOf (u8 q 1) 1, port := u16 q 2, queue := u16 q 4, window := u16 q 6 };
          Takes s c 8 ∧ sendingUnit s.dev = true ∧ g ≤ 63 ∧ u8 q 1 ≤ 3 ∧ portUnused s.dev (u16 q 2) = false ∧ u16 q 4 < (queueRange s.dev (u16 q 2)).2
          ∧ 40 ≤ u16 q 6 ∧ u16 q 6 ≤ 2000 ∧ (x.enabled = true → u16 q 2 = x.port ∧ u16 q 4 = x.queue) ∧ confMin s.dev y ≤ u16 q 6) ∧
    (∃ s : State, ∃ c : Cmd,
      let q := c.req;
      let g := u8 q 0;
      let p := u16 q 2;
      let o := signed 16 (u16 q 4);
      let x := confOf s.dev g;
      let rest := x.members.filter (fun m => m.1 != p);
      let y : ConfGroup := { x with members := if u8 q 1 = 0 then rest ++ [(p, o)] else rest }; Takes s c 8 ∧ sendingUnit s.dev = true ∧ g ≤ 63 ∧ u8 q
          1 ≤ 1 ∧ portUnused s.dev p = false ∧ -8000 ≤ o ∧ o ≤ 8000 ∧ u8 q 6 ≤ 1 ∧ u8 q 7 = 0 ∧ (u8 q 1 = 0 → u8 q 6 = 0 → confMin s.dev y ≤
          x.window)) ∧
    (∃ s : State, ∃ c : Cmd, ∃ host : Option (List Byte), ∃ b : List Byte,
      let q := c.req;
      let es := levelEntries b (u16 q 4); Takes s c 16 ∧ (host = some b ∨ u16 q 4 = 0 ∧ b = []) ∧ sendingUnit s.dev = true ∧ u8 q 1 ≤ 1 ∧ 20 ≤ u16 q 2
          ∧ u16 q 2 ≤ 2000 ∧ u16 q 4 ≤ 512 ∧ u16 q 6 = 0 ∧ u64 q 8 % 4 = 0 ∧ (es.map (·.1)).eraseDups.length = u16 q 4 ∧ (∀ e ∈ es, portUnused s.dev
          e.1 = false ∧ -8000 ≤ e.2 ∧ e.2 ≤ 8000)) ∧
    (∃ s : State, ∃ c : Cmd,
      let g := u8 c.req 1; Takes s c 4 ∧ u16 c.req 2 = 0 ∧ u8 c.req 0 = 0 ∧ g ≤ 63) ∧
    (∃ s : State, ∃ c : Cmd, Takes s c 4 ∧ u16 c.req 2 = 0 ∧ u8 c.req 0 = 1) :=
  ⟨⟨(st { ready with ports := [(0, { mode := 2, state := 4 })] }), (rq 8 [(0, le 1 3), (1, le 1 1), (6, le 2 2000)]), by decide +kernel⟩,
   ⟨(st { ready with ports := [(0, { mode := 2, state := 4 })] }), (rq 8 [(0, le 1 3), (4, le 2 0xE0C0), (6, le 1 1)]), by decide +kernel⟩,
   ⟨(st { ready with ports := [(0, { mode := 2, state := 4 })] }), (rq 16 [(0, le 1 255), (2, le 2 20), (4, le 2 1)]), (some [0, 0, 0xC0, 0xE0]), [0,
         0, 0xC0, 0xE0], by decide +kernel⟩,
   ⟨st ready, (rq 4 [(1, le 1 63)]), by decide +kernel⟩,
   ⟨st ready, (rq 4 [(0, le 1 1), (1, le 1 255)]), by decide +kernel⟩⟩

theorem witness_LaunchEventsComplete :
    (∃ s : State, ∃ t group : Nat, ∃ e : Nat × Nat × Nat, confNext (now t s) (confOf s.dev group) = some e) ∧
    (∃ s : State, ∃ t copy : Nat, ∃ g due : Nat,
      let c := copyOf s.dev copy; c.level = some (g, due) ∧ c.state = 0 ∧ c.verdict = true ∧ launchTick s.dev c ≤ portTicks (now t s) c.port + 224) ∧
    (∃ s : State, ∃ t copy : Nat, ∃ g due : Nat,
      let c := copyOf s.dev copy; c.level = some (g, due) ∧ c.state = 1 ∧ c.unequal = false ∧ launchTick s.dev c ≤ portTicks (now t s) c.port +
          startReach s.dev c.port ∧ portTicks (now t s) c.port ≤ launchTick s.dev c + startReach s.dev c.port ∧ c.listed = true ∧ canStart (now t s)
          copy = true ∧ grantWaits s.dev c.port = false ∧ (queueOf s.dev c.queue).copies.head? = some copy ∧ permitted s.dev copy) ∧
    (∃ s : State, ∃ t copy : Nat, ∃ g due : Nat, ∃ marker : Bool,
      let c := copyOf s.dev copy; c.level = some (g, due) ∧ c.state = 1 ∧ c.unequal = false ∧ launchTick s.dev c ≤ portTicks (now t s) c.port +
          startReach s.dev c.port ∧ (marker = true ∨ launchTick s.dev c + startReach s.dev c.port < portTicks (now t s) c.port ∨ c.listed = false ∨
          canStart (now t s) copy = false ∨ grantWaits s.dev c.port = true ∨ (queueOf s.dev c.queue).copies.head? ≠ some copy)) ∧
    (∃ s : State, ∃ t copy : Nat, ∃ due : Nat,
      let c := copyOf s.dev copy; c.launch = some due ∧ hasCopy s.dev copy = true ∧ c.state = 1 ∧ due ≤ portTicks (now t s) c.port ∧ canStart (now t
          s) copy = true ∧ (c.cut = true ∨ lrClear (now t s) c.port (c.out.length + 4 + (leavingTrailer (now t s) c).1.length) = true) ∧ (queueOf
          s.dev c.queue).copies.head? = some copy ∧ permitted s.dev copy) ∧
    (∃ s : State, ∃ t port : Nat, ∃ q i : Nat, portFree (now t s) port = true ∧ selectQueue (refreshPort port (now t s)) port = some q ∧ (queueOf
          s.dev q).copies.head? = some i ∧ permitted s.dev i) :=
  ⟨⟨(st
         { ready with release := { conf := [(2, { enabled := true, held := [(4, 100, 0)] })] }, copies := [(4, { frame := 3, port := 0, queue := 0, conf := some (2, 100), verdict := true })], frames := [(3, { state := 2, bytes := List.replicate 60 1 })] }),
         1000000, 2, (4, 100, 0), by decide +kernel⟩,
   ⟨(st
         { ready with copies := [(4, { frame := 3, port := 0, queue := 0, level := some (1, 500), verdict := true })], ports := [(0, { mode := 2, state := 4 })] }),
         160000, 4, 1, 500, by decide +kernel, by decide +kernel, by decide +kernel, Nat.le_trans (Nat.sub_le _ _) (by decide +kernel)⟩,
   ⟨(st
         { ready with copies := [(4, { frame := 3, port := 0, queue := 0, level := some (1, 0), verdict := true, state := 1, kind := 1, listed := true })], frames := [(3, { state := 2, bytes := List.replicate 60 1 })], tm := { queues := [(0, { copies := [4] })] }, ports := [(0, { mode := 2, state := 4 })], release := { level := [(1, { members := [(0, 0)] })] } }),
         0, 4, 1, 0, by decide +kernel, by decide +kernel, by decide +kernel, Nat.le_trans (Nat.sub_le _ _) (by decide +kernel), Nat.le_trans (m := 0)
         (by decide +kernel) (Nat.zero_le _), by decide +kernel⟩,
   ⟨(st
         { ready with copies := [(4, { frame := 3, port := 0, queue := 0, level := some (1, 500), verdict := true, state := 1, kind := 1, listed := false })], frames := [(3, { state := 2, bytes := List.replicate 60 1 })], tm := { queues := [(0, { copies := [4] })] }, ports := [(0, { mode := 2, state := 4 })], release := { level := [(1, { members := [(0, 0)] })] } }),
         1000, 4, 1, 500, false, by decide +kernel, by decide +kernel, by decide +kernel, Nat.le_trans (Nat.sub_le _ _) (by decide +kernel), Or.inr
         (Or.inr (Or.inl (by decide +kernel)))⟩,
   ⟨(st
         { ready with copies := [(4, { frame := 3, port := 0, queue := 0, launch := some 500, verdict := true, state := 1, kind := 1 })], frames := [(3, { state := 2, bytes := List.replicate 60 1 })], tm := { queues := [(0, { copies := [4] })] }, ports := [(0, { mode := 2, state := 4, flags := 4 })] }),
         1000, 4, 500, by decide +kernel⟩,
   ⟨(st
         { ready with ports := [(0, { mode := 2, state := 4 })], tm := { queues := [(0, { copies := [4], eligible := true })], groups := [(0, { eligible := true })] }, copies := [(4, { frame := 3, port := 0, queue := 0, verdict := true, state := 1, kind := 1 })], frames := [(3, { state := 2, bytes := List.replicate 60 1 })] }),
         0, 0, 0, 4, by decide +kernel⟩⟩

theorem witness_CopyEventsComplete :
    (∃ s : State, ∃ copy : Nat,
      let c := copyOf s.dev copy; hasCopy s.dev copy = true ∧ c.state < 3 ∧ c.verdict = false ∧ c.void = false ∧ (frameOf s.dev c.frame).state = 2) ∧
    (∃ s : State, ∃ copy : Nat,
      let c := copyOf s.dev copy; hasCopy s.dev copy = true ∧ c.state < 3 ∧ c.verdict = false ∧ c.conf = none ∧ (c.void = true ∨ (frameOf s.dev
          c.frame).state = 3)) ∧
    (∃ s : State, ∃ t copy : Nat,
      let c := copyOf s.dev copy; hasCopy s.dev copy = true ∧ c.state = 2 ∧ c.verdict = false ∧ copy ≠ s.dev.nextCopy ∧ c.out.length - 4 ≤ dueBytes
          (now t s) c) ∧
    (∃ s : State, ∃ copy : Nat,
      let c := copyOf s.dev copy; hasCopy s.dev copy = true ∧ c.state = 2 ∧ c.verdict = true) ∧
    (∃ s : State, ∃ copy : Nat,
      let c := copyOf s.dev copy; hasCopy s.dev copy = true ∧ c.state = 2 ∧ c.verdict = true ∧ copy ≠ s.dev.nextCopy) :=
  ⟨⟨(st
         { ready with copies := [(4, { frame := 3, port := 0, queue := 0, state := 1 })], frames := [(3, { state := 2, bytes := List.replicate 60 1 })], ports := [(0, { mode := 2, state := 4 })] }),
         4, by decide +kernel⟩,
   ⟨(st
         { ready with copies := [(4, { frame := 3, port := 0, queue := 0, state := 1 })], frames := [(3, { state := 3, bytes := List.replicate 60 1 })], ports := [(0, { mode := 2, state := 4 })] }),
         4, by decide +kernel⟩,
   ⟨(st
         { ready with copies := [(4, { frame := 3, port := 0, queue := 0, state := 2, departed := some 0, out := List.replicate 64 1 })], frames := [(3, { state := 1, bytes := List.replicate 60 1 })], ports := [(0, { mode := 2, state := 4 })] }),
         2000, 4, by decide +kernel⟩,
   ⟨(st
         { ready with copies := [(4, { frame := 3, port := 0, queue := 0, state := 2, verdict := true, out := List.replicate 64 1 })], frames := [(3, { state := 2, bytes := List.replicate 60 1 })], ports := [(0, { mode := 2, state := 4 })] }),
         4, by decide +kernel⟩,
   ⟨(st
         { ready with copies := [(4, { frame := 3, port := 0, queue := 0, state := 2, verdict := true, out := List.replicate 64 1 })], frames := [(3, { state := 2, bytes := List.replicate 60 1 })], ports := [(0, { mode := 2, state := 4 })] }),
         4, by decide +kernel⟩⟩

theorem witness_LedgerComplete :
    (∃ s : State, ∃ c : Cmd,
      let q := c.req;
      let l := s.dev.ledger;
      let n := if u8 q 5 = 0 then 64 else u8 q 5;
      let fn := boxFn s.dev c.box; Takes s c 32 ∧ nameable s.dev fn (u16 q 0) l.recordRing = true ∧ nameable s.dev fn (u16 q 2) l.sealRing = true ∧
          (u16 q 0 ≠ u16 q 2 ∨ u16 q 0 = 0xFFFF) ∧ u8 q 4 ≤ 3 ∧ 32 ≤ n ∧ n ≤ 256 ∧ n % 32 = 0 ∧ u16 q 6 = 0 ∧ u32 q 12 = 0) ∧
    (∃ s : State, ∃ c : Cmd, Takes s c 4 ∧ u32 c.req 0 = 0) ∧
    (∃ s : State, ∃ c : Cmd, Takes s c 4 ∧ u8 c.req 0 ≤ 2 ∧ leAt c.req 1 3 = 0) ∧
    (∃ s : State, ∃ t : Nat, ∃ r : LedgerRec, ∃ rest : List LedgerRec,
      let l := s.dev.ledger; l.queue = r :: rest ∧ l.rehash = false ∧ l.rehashed = false ∧ islandAwake s.dev 0x4E = true ∧ l.block.count < 65536 ∧
          blockTimed (now t s) = false ∧ l.newKey = none ∧ ringRoom s.dev = true ∧ l.lostReset.count = 0 ∧ l.lostFull.count = 0 ∧ l.lostRate.count = 0
          ∧ channelsTrain s.dev (recordAddr s.dev l.nextRecord) 32 = false ∧ storable s.dev (recordAddr s.dev l.nextRecord) (keyedRecord s.dev
          r).length = true) ∧
    (∃ s : State, ∃ t i : Nat, ∃ a p : Nat,
      let f := frameOf s.dev i; f.outcomeAt = some a ∧ a + 1600000 ≤ (now t s).clock ∧ f.recordDue = true ∧ f.recorded = 0 ∧ primaryCopy s.dev f =
          some p ∧ (copyOf s.dev p).state < 3) ∧
    (∃ s : State, ∃ t : Nat,
      let l := s.dev.ledger; l.rehash = false ∧ s.dev.helm.state ≠ 0 ∧ blockTimed (now t s) = true ∧ sealRoom s.dev = true) ∧
    (∃ s : State, ∃ b : ClosedBlock, ∃ rest : List ClosedBlock,
      let l := s.dev.ledger; l.closed = b :: rest ∧ ledgerHeld s.dev = false ∧ islandAwake s.dev 0x4E = true ∧ channelsTrain s.dev (sealAddr s.dev
          l.nextSeal) 256 = false) ∧
    (∃ s : State, ∃ t : Nat, ∃ b : ClosedBlock, ∃ rest : List ClosedBlock, s.dev.ledger.closed = b :: rest ∧ b.late = false ∧ b.closedAt + 3200000 ≤
          (now t s).clock) ∧
    (∃ s : State, ∃ t ring : Nat, ∃ b : List Byte,
      let x := ringOf s.dev ring; sourceOfRing s.dev ring = some 0 ∧ x.kind = 0 ∧ ringReady s.dev ring = true ∧ x.started = [] ∧ (waiting s.dev x.fn
          0).1 ≠ [] ∧ ledgerHeld s.dev = false ∧ islandAwake s.dev 0x4E = true ∧ outOfTurn (now t s) ring = false ∧ descOk x b = true ∧ 32 ≤ u32 b 4)
          :=
  ⟨⟨st ready, (rq 32 [(0, le 2 65535), (2, le 2 65535), (4, le 1 3), (5, le 1 32), (8, le 4 9)]), by decide +kernel⟩,
   ⟨st ready, (rq 4 []), by decide +kernel⟩,
   ⟨st ready, (rq 4 [(0, le 1 2)]), by decide +kernel⟩,
   ⟨(st { ready with cistern := { channels := inService }, ledger := { queue := [{ source := 1, bytes := [1, 2, 3] }] } }), 0,
         { source := 1, bytes := [1, 2, 3] }, [], by decide +kernel⟩,
   ⟨(st
         { ready with frames := [(3, { state := 2, outcomeAt := some 0, recordDue := true, copies := [4] })], copies := [(4, { frame := 3, port := 0, queue := 0, state := 1 })] }),
         1600000, 3, 0, 4, by decide +kernel⟩,
   ⟨(st { ready with ledger := { block := { first := 0, count := 1 }, nextRecord := 1 } }), 160000000000, by decide +kernel⟩,
   ⟨(st { ready with cistern := { channels := inService }, ledger := { closed := [{ head := [1, 2], closedAt := 0 }], nextSeal := 1 } }),
         { head := [1, 2], closedAt := 0 }, [], by decide +kernel⟩,
   ⟨(st { ready with ledger := { closed := [{ head := [1, 2], closedAt := 0 }] } }), 3200000, { head := [1, 2], closedAt := 0 }, [],
         by decide +kernel⟩,
   ⟨(st (memWrite (recordAddr ready 0) (List.replicate 32 7)
         { ready with cistern := { retrained := true, channels := inService }, ledger := { recordRing := some 5, nextRecord := 1 }, dma := { rings := [(5, { state := 1, kind := 0, tail := 1, base := 64 })], cqs := [(0, { enabled := true, base := 4096 })] } })),
         0, 5, (List.replicate 4 0 ++ le 4 32 ++ le 8 4096 ++ le 8 0 ++ List.replicate 8 0), by decide +kernel⟩⟩

theorem witness_DmaAndRingRegistersComplete :
    (∃ s : State, ∃ c : Cmd,
      let q := c.req;
      let r := u16 q 0;
      let x := ringOf s.dev r;
      let y := cqOf s.dev (u8 q 6);
      let fn := boxFn s.dev c.box; Takes s c 16 ∧ r ≤ 2047 ∧ u8 q 3 ≤ 7 ∧ u8 q 2 ≤ 3 ∧ (u8 q 2 = 3 ↔ 1024 ≤ r) ∧ 6 ≤ u8 q 4 ∧ u8 q 4 ≤ 16 ∧ u8 q 5 ≤ 3
          ∧ u8 q 6 ≤ 63 ∧ u8 q 7 ≠ 0 ∧ u64 q 8 % 64 = 0 ∧ bitOf (u8 q 3) 0 = true ∧ x.state = 0 ∧ y.enabled = true ∧ y.fn = fn) ∧
    (∃ s : State, ∃ c : Cmd,
      let q := c.req;
      let r := u16 q 0;
      let x := ringOf s.dev r;
      let fn := boxFn s.dev c.box; Takes s c 16 ∧ r ≤ 2047 ∧ u8 q 3 ≤ 7 ∧ u8 q 2 ≤ 3 ∧ (u8 q 2 = 3 ↔ 1024 ≤ r) ∧ 6 ≤ u8 q 4 ∧ u8 q 4 ≤ 16 ∧ u8 q 5 ≤ 3
          ∧ u8 q 6 ≤ 63 ∧ u8 q 7 ≠ 0 ∧ u64 q 8 % 64 = 0 ∧ bitOf (u8 q 3) 0 = false ∧ x.state = 1 ∧ x.fn = fn ∧ x.started = [] ∧ ringAvail x = 0 ∧
          s.dev.helm.open_.length < 1024) ∧
    (∃ s : State, ∃ c : Cmd,
      let q := c.req;
      let r := u16 q 0;
      let x := ringOf s.dev r;
      let fn := boxFn s.dev c.box; Takes s c 16 ∧ r ≤ 2047 ∧ u8 q 3 ≤ 7 ∧ u8 q 2 ≤ 3 ∧ (u8 q 2 = 3 ↔ 1024 ≤ r) ∧ 6 ≤ u8 q 4 ∧ u8 q 4 ≤ 16 ∧ u8 q 5 ≤ 3
          ∧ u8 q 6 ≤ 63 ∧ u8 q 7 ≠ 0 ∧ u64 q 8 % 64 = 0 ∧ bitOf (u8 q 3) 0 = false ∧ (x.state = 1 ∨ x.state = 3) ∧ x.fn = fn ∧ x.started ≠ [] ∧
          s.dev.helm.open_.length < 1024) ∧
    (∃ s : State, ∃ c : Cmd,
      let q := c.req;
      let n := u8 q 0; Takes s c 24 ∧ n ≤ 63 ∧ 6 ≤ u8 q 2 ∧ u8 q 2 ≤ 16 ∧ u8 q 3 = 0 ∧ 1 ≤ u16 q 4 ∧ u16 q 4 ≤ 1024 ∧ u16 q 6 = 0 ∧ u32 q 8 ≤ 1000000
          ∧ u32 q 12 = 0 ∧ u64 q 16 % 64 = 0 ∧ u8 q 1 = 1 ∧ (cqOf s.dev n).enabled = false) ∧
    (∃ s : State, ∃ c : Cmd,
      let q := c.req;
      let n := u8 q 0;
      let fn := boxFn s.dev c.box; Takes s c 24 ∧ n ≤ 63 ∧ 6 ≤ u8 q 2 ∧ u8 q 2 ≤ 16 ∧ u8 q 3 = 0 ∧ 1 ≤ u16 q 4 ∧ u16 q 4 ≤ 1024 ∧ u16 q 6 = 0 ∧ u32 q
          8 ≤ 1000000 ∧ u32 q 12 = 0 ∧ u64 q 16 % 64 = 0 ∧ u8 q 1 = 0 ∧ (cqOf s.dev n).fn = fn ∧ (∀ e ∈ s.dev.dma.rings, e.2.state = 0 ∨ e.2.cq ≠ n))
          ∧
    (∃ s : State, ∃ c : Cmd,
      let q := c.req;
      let x := ringOf s.dev (u16 q 4); Takes s c 8 ∧ u16 q 0 ≤ u16 q 2 ∧ u16 q 6 = 0 ∧ (u16 q 4 = 0xFFFF ∨ u16 q 4 < 1024 ∧ x.kind = 1 ∧ (x.state = 1
          ∨ x.state = 3) ∧ x.fn = boxFn s.dev c.box)) ∧
    (∃ s : State, ∃ fn ring : Nat,
      let x := ringOf s.dev ring; ring < 2048 ∧ x.fn = fn ∧ (x.state = 1 ∨ x.state = 3) ∧ x.started = []) ∧
    (∃ s : State, ∃ fn ring : Nat,
      let x := ringOf s.dev ring; ring < 2048 ∧ (x.state = 0 ∨ x.state = 5 ∧ x.fn = fn)) ∧
    (∃ s : State, ∃ fn cq : Nat, ∃ v : BitVec 32,
      let x := cqOf s.dev cq; cq < 64 ∧ x.fn = fn ∧ x.enabled = true ∧ bitOf v.toNat 0 = true) ∧
    (∃ s : State, ∃ t cq : Nat,
      let x := cqOf s.dev cq; x.enabled = true ∧ x.arm = true ∧ cqDue (now t s) x = true) :=
  ⟨⟨(st { ready with dma := { cqs := [(0, { enabled := true })] } }), (rq 16 [(0, le 2 5), (3, le 1 1), (4, le 1 6), (7, le 1 1)]), by decide +kernel⟩,
   ⟨(st { ready with dma := { rings := [(5, { state := 1, base := 64 })], cqs := [(0, { enabled := true })] } }), (rq 16 [(0, le 2 5), (4, le 1 6),
         (7, le 1 1)]), by decide +kernel⟩,
   ⟨(st
         { ready with dma := { rings := [(5, { state := 1, base := 64, started := [{ index := 0, last := false, noCq := false, addr := 4096, len := 64, used := 32, records := 1 }] })], cqs := [(0, { enabled := true })] } }),
         (rq 16 [(0, le 2 5), (4, le 1 6), (7, le 1 1)]), by decide +kernel⟩,
   ⟨st ready, (rq 24 [(0, le 1 63), (1, le 1 1), (2, le 1 6), (4, le 2 1), (16, le 8 4096)]), by decide +kernel⟩,
   ⟨(st { ready with dma := { cqs := [(63, { enabled := true })] } }), (rq 24 [(0, le 1 63), (2, le 1 6), (4, le 2 1)]), by decide +kernel⟩,
   ⟨st ready, (rq 8 [(2, le 2 65535), (4, le 2 65535)]), by decide +kernel⟩,
   ⟨(st { ready with dma := { rings := [(5, { state := 1 })] } }), 0, 5, by decide +kernel⟩,
   ⟨(st { ready with dma := { rings := [(5, { state := 0 })] } }), 0, 5, by decide +kernel⟩,
   ⟨(st { ready with dma := { cqs := [(3, { enabled := true })] } }), 0, 3, 1#32, by decide +kernel⟩,
   ⟨(st { ready with dma := { cqs := [(3, { enabled := true, arm := true, tail := 1, since := 1 })] } }), 100, 3, by decide +kernel⟩⟩

theorem witness_RingEventsComplete :
    (∃ s : State, ∃ t ring : Nat, ∃ src : Nat, ∃ b : List Byte,
      let x := ringOf s.dev ring; sourceOfRing s.dev ring = some src ∧ x.kind = 0 ∧ ringReady s.dev ring = true ∧ x.started = [] ∧ (waiting s.dev x.fn
          src).1 ≠ [] ∧ (src ≤ 1 → ledgerHeld s.dev = false ∧ islandAwake s.dev 0x4E = true) ∧ outOfTurn (now t s) ring = false ∧ descOk x b = true ∧
          recordSize src ≤ u32 b 4) ∧
    (∃ s : State, ∃ t ring : Nat, ∃ b : Started,
      let x := ringOf s.dev ring; x.started = [b] ∧ x.kind = 0 ∧ 0 < b.records ∧ b.oldest + 1600000 ≤ (now t s).clock ∧ b.result = none) ∧
    (∃ s : State, ∃ t ring : Nat, ∃ b : List Byte, ∃ ix : List Byte,
      let x := ringOf s.dev ring; x.kind = 2 ∧ ringReady s.dev ring = true ∧ outOfTurn (now t s) ring = false ∧ descOk x b = true ∧ u64 b 16 % 4 = 0 ∧
          u8 b 24 ≤ 2 ∧ leAt b 25 3 = 0 ∧ (u8 b 24 = 2 → islandAwake s.dev 0x4E = true ∧ ∀ a ∈ spillReads s.dev (u32 b 28) ix (u32 b 4), channelsTrain
          s.dev a 64 = false)) ∧
    (∃ s : State, ∃ t r : Nat, ∃ bytes : List Byte, ∃ b : List Byte, ∃ rest : List (Nat × List Byte),
      let x := ringOf s.dev r; s.dev.dma.punts = (r, bytes) :: rest ∧ ringReady s.dev r = true ∧ outOfTurn (now t s) r = false ∧ x.kind = 1 ∧ descOk x
          b = true ∧ 32 ≤ u32 b 4) ∧
    (∃ s : State, ∃ ring : Nat, ∃ b : List Byte,
      let x := ringOf s.dev ring; x.kind = 3 ∧ ringReady s.dev ring = true ∧ descOk x b = true ∧ injectOk s.dev b (u32 b 4) = true ∧ u8 b 16 = 0) ∧
    (∃ s : State, ∃ t ring : Nat, ∃ b : List Byte, ∃ raw : List Byte,
      let x := ringOf s.dev ring;
      let bytes := padFrame (swapBytes x.swap (padTo (u32 b 4) raw));
      let port := u16 b 18;
      let q := (localQueue s.dev port (u16 b 20)).1; x.kind = 3 ∧ ringReady s.dev ring = true ∧ descOk x b = true ∧ injectOk s.dev b (u32 b 4) = true
          ∧ u8 b 16 = 1 ∧ (portOf s.dev port).state = 4 ∧ bytes.length + 4 ≤ (portOf s.dev port).mtu ∧ (admitPart (now t s) { port := port } q
          false).isSome = true) :=
  ⟨⟨(st (memWrite (recordAddr ready 0) (List.replicate 32 7)
         { ready with cistern := { retrained := true, channels := inService }, ledger := { recordRing := some 5, nextRecord := 1 }, dma := { rings := [(5, { state := 1, kind := 0, tail := 1, base := 64 })], cqs := [(0, { enabled := true, base := 4096 })] } })),
         0, 5, 0, (List.replicate 4 0 ++ le 4 32 ++ le 8 4096 ++ le 8 0 ++ List.replicate 8 0), by decide +kernel⟩,
   ⟨(st
         { ready with dma := { rings := [(5, { state := 1, tail := 2, head := 1, started := [{ index := 0, last := false, noCq := false, addr := 4096, len := 64, used := 32, records := 1 }] })], cqs := [(0, { enabled := true })] } }),
         1600000, 5, { index := 0, last := false, noCq := false, addr := 4096, len := 64, used := 32, records := 1 }, by decide +kernel⟩,
   ⟨(st { ready with dma := { rings := [(5, { state := 1, kind := 2, tail := 1, base := 64 })], cqs := [(0, { enabled := true, base := 4096 })] } }),
         0, 5, (List.replicate 4 0 ++ le 4 8 ++ le 8 4096 ++ le 8 4096 ++ List.replicate 8 0), [1, 0, 0, 0, 2, 0, 0, 0], by decide +kernel⟩,
   ⟨(st
         { ready with dma := { rings := [(5, { state := 1, kind := 1, tail := 1, base := 64 })], cqs := [(0, { enabled := true, base := 4096 })], punt := [(0, 9, some 5)], punts := [(5, List.replicate 60 3)] } }),
         0, 5, List.replicate 60 3, (List.replicate 4 0 ++ le 4 64 ++ le 8 4096 ++ le 8 0 ++ List.replicate 8 0), [], by decide +kernel⟩,
   ⟨(st
         { ready with dma := { rings := [(1030, { state := 1, kind := 3, tail := 1, base := 64 })], cqs := [(0, { enabled := true, base := 4096 })] }, ports := [(0, { mode := 2, state := 4 })], guard := { ingressOpen := true } }),
         1030, (List.replicate 4 0 ++ le 4 60 ++ le 8 4096 ++ List.replicate 16 0), by decide +kernel⟩,
   ⟨(st
         { ready with dma := { rings := [(1030, { state := 1, kind := 3, tail := 1, base := 64 })], cqs := [(0, { enabled := true, base := 4096 })] }, ports := [(0, { mode := 2, state := 4 })], guard := { ingressOpen := true } }),
         0, 1030, (List.replicate 4 0 ++ le 4 60 ++ le 8 4096 ++ [1] ++ List.replicate 15 0), List.replicate 60 1, by decide +kernel⟩⟩

theorem witness_CountersComplete :
    (∃ s : State, ∃ c : Cmd, ∃ scope : Nat, ∃ bytes : Bool,
      let q := c.req;
      let first := u32 q 0;
      let n := u32 q 4;
      let k := if u8 q 11 = 1 then n / 2 else n; Takes s c 16 ∧ eventScope (u16 q 8) = some (scope, bytes) ∧ 1 ≤ n ∧ n ≤ 65536 ∧ first + n ≤ 1048576 ∧
          u8 q 10 ≤ 1 ∧ u8 q 11 ≤ 1 ∧ (u8 q 11 = 1 → first % 2 = 0 ∧ n % 2 = 0) ∧ (u8 q 10 = 1 → bytes = true) ∧ (u16 q 8 ≠ 0 → u32 q 12 + k ≤ scope)
          ∧ inWindow s.dev first n = false ∧ s.dev.helm.open_.length < 1024) ∧
    (∃ s : State, ∃ c : Cmd,
      let q := c.req;
      let k := if bitOf (u8 q 16) 1 then (s.dev.counters.shadow.map (·.2.1.length)).getD (u32 q 4) else u32 q 4; Takes s c 20 ∧ 1 ≤ u32 q 4 ∧ u32 q 0
          + u32 q 4 ≤ 1048576 ∧ u64 q 8 % 64 = 0 ∧ u8 q 16 ≤ 3 ∧ leAt q 17 3 = 0 ∧ (bitOf (u8 q 16) 1 = true → s.dev.counters.shadow.isSome = true) ∧
          u64 q 8 + 4 * k ≤ spillBytes s.dev ∧ opVerdict s.dev 0x0F 0 = stOk ∧ s.dev.helm.open_.length < 1024) ∧
    (∃ s : State, ∃ c : Cmd,
      let q := c.req;
      let port := u16 q 0;
      let dir := u8 q 2;
      let len := u32 q 4;
      let subs := u16 q 8;
      let base := u32 q 12;
      let others := s.dev.counters.windows.filter fun w => !(w.port == port && w.dir == dir); Takes s c 16 ∧ portUnused s.dev port = false ∧ dir ≤ 1 ∧
          u16 q 10 = 0 ∧ 1 ≤ len ∧ len ≤ 1000000 ∧ 1 ≤ subs ∧ subs ≤ 1024 ∧ len * 1000 % subs = 0 ∧ 64 ≤ len * 1000 / subs ∧ base % 8 = 0 ∧ base + 8 ≤
          1048576 ∧ u8 q 3 = 1 ∧ (∀ w ∈ others, w.base ≠ base)) ∧
    (∃ s : State, ∃ c : Cmd,
      let q := c.req;
      let port := u16 q 0;
      let dir := u8 q 2;
      let len := u32 q 4;
      let subs := u16 q 8;
      let base := u32 q 12; Takes s c 16 ∧ portUnused s.dev port = false ∧ dir ≤ 1 ∧ u16 q 10 = 0 ∧ 1 ≤ len ∧ len ≤ 1000000 ∧ 1 ≤ subs ∧ subs ≤ 1024 ∧
          len * 1000 % subs = 0 ∧ 64 ≤ len * 1000 / subs ∧ base % 8 = 0 ∧ base + 8 ≤ 1048576 ∧ u8 q 3 = 0) ∧
    (∃ s : State, ∃ t : Nat, ∃ p : PendProg, s.dev.counters.pending = [p] ∧ p.boundary ≤ bankTicks (now t s) p.runFirst ∧ p.runCount = 1 ∧
          p.prog.chain = false ∧ p.runFirst % 2 = 0 ∧ s.dev.counters.snaps = [] ∧ (p.ticket = none ∨ ∀ k ∈ s.dev.helm.open_,
      let x := fnOf s.dev k.fn; x.evRing.isSome = true ∧ x.evLost = 0 ∧ x.evq.length < 4096)) ∧
    (∃ s : State, ∃ t : Nat, ∃ n : Snap, ∃ rest : List Snap,
      let at_ := bankTicks (now t s) 0 / 65536 * 65536; s.dev.counters.pending = [] ∧ s.dev.counters.snaps = n :: rest ∧ n.boundary = none ∧ n.due ≤
          at_) ∧
    (∃ s : State, ∃ t port : Nat, ∃ dir : Nat, ∃ w : Window,
      let len := w.length * 16000;
      let end_ := windowEnd (now t s) w; (s.dev.counters.windows.filter fun w => w.port == port && w.dir == dir) = [w] ∧ w.from_ + len ≤ end_) ∧
    (∃ s : State, ∃ fn off : Nat, off % 4 = 0 ∧ (functions s.dev).contains fn = true) :=
  ⟨⟨st ready, (rq 16 [(0, le 4 8), (4, le 4 2), (8, le 2 256)]), 512, true, by decide +kernel⟩,
   ⟨st ready, (rq 20 [(4, le 4 1048576), (16, le 1 1)]), by decide +kernel⟩,
   ⟨(st { ready with ports := [(0, { mode := 2, state := 4 })] }), (rq 16 [(3, le 1 1), (4, le 4 1), (8, le 2 10), (12, le 4 8)]), by decide +kernel⟩,
   ⟨(st { ready with ports := [(0, { mode := 2, state := 4 })] }), (rq 16 [(4, le 4 1), (8, le 2 10), (12, le 4 8)]), by decide +kernel⟩,
   ⟨(st { ready with counters := { pending := [{ boundary := 5, runFirst := 2, runCount := 1, prog := { event := 0x101 }, ticket := none }] } }),
         1000, { boundary := 5, runFirst := 2, runCount := 1, prog := { event := 0x101 }, ticket := none }, by decide +kernel⟩,
   ⟨(st
         { ready with counters := { snaps := [{ first := 0, count := 4, offset := 0, clear := false, recover := false, ticket := none, due := 0, boundary := none }] } }),
         70000, { first := 0, count := 4, offset := 0, clear := false, recover := false, ticket := none, due := 0, boundary := none }, [],
         by decide +kernel⟩,
   ⟨(st
         { ready with counters := { windows := [{ port := 0, dir := 0, length := 1, subs := 10, base := 8, from_ := 0 }] }, ports := [(0, { mode := 2, state := 4 })] }),
         400000, 0, 0, { port := 0, dir := 0, length := 1, subs := 10, base := 8, from_ := 0 }, by decide +kernel⟩,
   ⟨st ready, 0, 8, by decide +kernel⟩⟩

theorem witness_FramePathComplete :
    (∃ s : State, ∃ t port : Nat, receives (now t s) port = true) ∧
    (∃ s : State, ∃ i : Nat,
      let f := frameOf s.dev i; hasFrame s.dev i = true ∧ f.state = 0 ∧ (f.pass = 2 → f.again = true) ∧ islandAwake s.dev (0x40 + basinOf f.port) =
          true) ∧
    (∃ s : State, ∃ i : Nat,
      let f := frameOf s.dev i; hasFrame s.dev i = true ∧ f.state = 1 ∧ f.enqueued = false ∧ f.again = false ∧ f.doomed = none) ∧
    (∃ s : State, ∃ t i : Nat, ∃ a : Nat,
      let f := frameOf s.dev i; hasFrame s.dev i = true ∧ f.state = 1 ∧ f.pass = 1 ∧ f.again = true ∧ f.lookedAt = some a ∧ a + 640 ≤ (now t s).clock)
          ∧
    (∃ s : State, ∃ t i : Nat,
      let f := frameOf s.dev i; hasFrame s.dev i = true ∧ f.state = 1 ∧ f.doomed = none ∧ received (now t s) f = f.bytes.length + 4 ∧ f.again = false
          ∧ f.injected = none ∧ f.bytes.length + 4 ≤ (portOf s.dev f.port).mtu ∧ crc32 f.bytes = f.fcs ∧ 60 ≤ f.bytes.length ∧ f.enqueued = true ∧
          deferred f = none) ∧
    (∃ s : State, ∃ t i : Nat,
      let f := frameOf s.dev i; hasFrame s.dev i = true ∧ f.state = 1 ∧ f.doomed = none ∧ received (now t s) f = f.bytes.length + 4 ∧ f.again = false
          ∧ f.injected = none ∧ f.bytes.length + 4 ≤ (portOf s.dev f.port).mtu ∧ crc32 f.bytes ≠ f.fcs) :=
  ⟨⟨(st { ready with ports := [(0, { mode := 2, state := 4 })], guard := { ingressOpen := true } }), 0, 0, by decide +kernel⟩,
   ⟨(st { ready with ports := [(0, { mode := 2, state := 4 })], frames := [(3, { state := 0, bytes := List.replicate 60 1 })] }), 3,
         by decide +kernel⟩,
   ⟨(st { ready with ports := [(0, { mode := 2, state := 4 })], frames := [(3, { state := 1, bytes := List.replicate 60 1 })] }), 3,
         by decide +kernel⟩,
   ⟨(st
         { ready with ports := [(0, { mode := 2, state := 4 })], frames := [(3, { state := 1, again := true, lookedAt := some 0, bytes := List.replicate 60 1 })] }),
         640, 3, 0, by decide +kernel⟩,
   ⟨(st
         { ready with ports := [(0, { mode := 2, state := 4 })], frames := [(3, { state := 1, enqueued := true, bytes := List.replicate 60 1, fcs := crc32 (List.replicate 60 1) })] }),
         1000000, 3, by decide +kernel⟩,
   ⟨(st
         { ready with ports := [(0, { mode := 2, state := 4 })], frames := [(3, { state := 1, enqueued := true, bytes := List.replicate 60 1, fcs := 5 })] }),
         1000000, 3, by decide +kernel⟩⟩

theorem witness_TetherSendsComplete :
    (∃ s : State, s.dev.pair.mode = 1 ∧ s.dev.pair.pcsUp = true ∧ s.dev.pair.tetherUp = false) ∧
    (∃ s : State, s.dev.pair.mode = 1 ∧ s.dev.pair.tetherUp = true) ∧
    (∃ s : State, s.dev.pair.mode = 1 ∧ s.dev.pair.tetherUp = true ∧ s.dev.pair.role ≤ 1 ∧ s.dev.guard.closed = false) ∧
    (∃ s : State, s.dev.pair.mode = 1 ∧ s.dev.pair.tetherUp = true ∧ s.dev.guard.finalDue = true ∧ (s.dev.pair.role ≠ 1 ∨ s.dev.guard.closed = true ∨
          s.dev.pair.planned = none)) ∧
    (∃ s : State, s.dev.pair.tetherUp = true) :=
  ⟨⟨(st { ready with pair := { mode := 1, pcsUp := true } }), by decide +kernel⟩,
   ⟨(st { ready with pair := { mode := 1, tetherUp := true } }), by decide +kernel⟩,
   ⟨(st { ready with pair := { mode := 1, tetherUp := true, role := 1 } }), by decide +kernel⟩,
   ⟨(st { ready with pair := { mode := 1, tetherUp := true, role := 1 }, guard := { finalDue := true } }), by decide +kernel⟩,
   ⟨(st { ready with pair := { mode := 1, tetherUp := true } }), by decide +kernel⟩⟩

theorem witness_TetherReceivesComplete :
    (∃ s : State, s.dev.pair.mode = 1 ∧ s.dev.pair.pcsUp = true ∧ s.dev.pair.tetherUp = false) ∧
    (∃ s : State, s.dev.pair.pcsUp = true) ∧
    (∃ msg : TMsg, msg.fcs = false) ∧
    (∃ s : State, ∃ msg : TMsg, msg.fcs = true ∧ s.dev.pair.mode = 1 ∧ s.dev.pair.tetherUp = true ∧ s.dev.pair.partnerLate = false ∧ s.dev.pair.role =
          0 ∧ beAt msg.body 0 1 = 2) ∧
    (∃ s : State, ∃ msg : TMsg, msg.fcs = true ∧ s.dev.pair.mode = 1 ∧ s.dev.pair.tetherUp = true ∧ s.dev.pair.partnerLate = false ∧ s.dev.pair.role =
          1 ∧ beAt msg.body 0 1 = 4) ∧
    (∃ s : State, ∃ k n : Nat, ∃ msg : TMsg, msg.fcs = true ∧ s.dev.pair.mode = 1 ∧ s.dev.pair.tetherUp = true ∧ 2 ≤ s.dev.pair.role ∧ 5 ≤
          msg.body.length ∧ sentEntries msg.body = [(k, n)] ∧ k < 2 ^ 18) ∧
    (∃ s : State, ∃ t : Nat, ∃ msg : TMsg, ∃ r : Receipt, msg.fcs = true ∧ s.dev.pair.mode = 1 ∧ s.dev.pair.tetherUp = true ∧ receiptEntries msg.body
          (now t s).clock = [r]) ∧
    (∃ s : State, ∃ msg : TMsg, msg.fcs = true ∧ s.dev.pair.mode = 1 ∧ s.dev.pair.tetherUp = true) ∧
    (∃ s : State, ∃ msg : TMsg, msg.fcs = true ∧ s.dev.pair.mode = 1 ∧ s.dev.pair.tetherUp = true ∧ sendingUnit s.dev = false ∧ s.dev.helm.state = 1 ∧
          s.dev.pair.mirrorIn = [] ∧ s.dev.pair.mirrorPart = [] ∧ msg.seq = s.dev.pair.mirrorNext ∧ s.dev.pair.mirrorNext < 2 ^ 32 ∧ beAt msg.body 0 2
          = 0x0C04) ∧
    (∃ s : State, ∃ msg : TMsg,
      let what := beAt msg.body 0 2; msg.fcs = true ∧ s.dev.pair.mode = 1 ∧ s.dev.pair.tetherUp = true ∧ 0x20 ≤ what) ∧
    (∃ s : State, ∃ msg : TMsg,
      let what := beAt msg.body 0 2; msg.fcs = true ∧ s.dev.pair.mode = 1 ∧ s.dev.pair.tetherUp = true ∧ what = 3 ∧ s.dev.pair.role ≤ 1 ∧
          s.dev.helm.state = 1 ∧ s.dev.pair.controlSeen.contains msg.seq = false) ∧
    (∃ s : State, ∃ msg : TMsg,
      let what := beAt msg.body 0 2; msg.fcs = true ∧ s.dev.pair.mode = 1 ∧ s.dev.pair.tetherUp = true ∧ what = 4 ∧ s.dev.pair.controlSeen.contains
          msg.seq = false) ∧
    (∃ s : State, ∃ msg : TMsg, msg.fcs = true ∧ s.dev.pair.mode = 1 ∧ s.dev.pair.tetherUp = true) ∧
    (∃ s : State, ∃ tk : Option Nat, ∃ again : Bool, s.dev.pair.mode = 1 ∧ s.dev.pair.tetherUp = true ∧ s.dev.pair.resync = some (0, tk, again) ∧
          s.dev.pair.role = 3 ∧ s.dev.pair.sync = 1 ∧ s.dev.helm.state = 1) :=
  ⟨⟨(st { ready with pair := { mode := 1, pcsUp := true } }), by decide +kernel⟩,
   ⟨(st { ready with pair := { mode := 1, pcsUp := true } }), by decide +kernel⟩,
   ⟨{ subtype := 0x21, seq := 0, sent := 0, body := [], fcs := false }, by decide +kernel⟩,
   ⟨(st { ready with pair := { mode := 1, tetherUp := true } }), { subtype := 0x21, seq := 0, sent := 0, body := [2] }, by decide +kernel⟩,
   ⟨(st { ready with pair := { mode := 1, tetherUp := true, role := 1 } }), { subtype := 0x21, seq := 0, sent := 0, body := [4] }, by decide +kernel⟩,
   ⟨(st
         { ready with pair := { mode := 1, tetherUp := true, role := 2 }, guard := { streams := [(5, { slots := [{ port := 0, queue := 0, lastSent := 3 }] })] } }),
         20, 7, { subtype := 0x22, seq := 0, sent := 0, body := (List.replicate 5 0 ++ be 4 20 ++ be 4 7) }, by decide +kernel⟩,
   ⟨(st { ready with pair := { mode := 1, tetherUp := true } }), 0, { subtype := 0x23, seq := 0, sent := 0, body := (List.replicate 16 0) },
         { stream := 0, seq := 0, digest := 0, decision := 0, at_ := 0 }, by decide +kernel⟩,
   ⟨(st { ready with pair := { mode := 1, tetherUp := true } }), { subtype := 0x25, seq := 0, sent := 0, body := [] }, by decide +kernel⟩,
   ⟨(st { ready with pair := { mode := 1, tetherUp := true, role := 2 } }), { subtype := 0x24, seq := 0, sent := 0, body := [0x0C, 0x04] },
         by decide +kernel⟩,
   ⟨(st { ready with pair := { mode := 1, tetherUp := true } }), { subtype := 0x28, seq := 0, sent := 0, body := [0, 0x24, 0, 0, 0, 7] },
         by decide +kernel⟩,
   ⟨(st { ready with pair := { mode := 1, tetherUp := true } }), { subtype := 0x28, seq := 0, sent := 0, body := [0, 3, 0, 0, 0, 0] },
         by decide +kernel⟩,
   ⟨(st { ready with pair := { mode := 1, tetherUp := true } }), { subtype := 0x28, seq := 0, sent := 0, body := [0, 4, 0, 0, 0, 7] },
         by decide +kernel⟩,
   ⟨(st { ready with pair := { mode := 1, tetherUp := true } }), { subtype := 0x26, seq := 0, sent := 0, body := [1] }, by decide +kernel⟩,
   ⟨(st { ready with pair := { mode := 1, tetherUp := true, role := 3, sync := 1, resync := some (0, none, false) } }), none, false,
         by decide +kernel⟩⟩

theorem witness_PairContactEventsComplete :
    (∃ s : State, s.dev.pair.pcsUp = true) ∧
    (∃ s : State, ∃ t : Nat, s.dev.pair.tetherUp = true ∧ s.dev.pair.pcsUp = true ∧ hasHeartbeat (now t s) = false) ∧
    (∃ s : State, ∃ t : Nat, s.dev.pair.mode = 1 ∧ s.dev.pair.contact = true ∧ contactLost (now t s) = true ∧ s.dev.pair.role = 1 ∧ maySend (now t s)
          = true) ∧
    (∃ s : State, ∃ t : Nat, s.dev.pair.mode = 1 ∧ s.dev.pair.contact = true ∧ contactLost (now t s) = true ∧ s.dev.pair.role = 1 ∧ maySend (now t s)
          = false) ∧
    (∃ s : State, ∃ t : Nat, ((s.dev.pair.missing ++ s.dev.pair.partialAt).any fun e => decide (32000 ≤ (now t s).clock - e.2)) = true ∧
          s.dev.pair.mode = 1 ∧ s.dev.pair.role = 2) ∧
    (∃ s : State, ∃ t : Nat, s.dev.pair.mode = 1 ∧ s.dev.pair.role = 2 ∧ (s.dev.pair.mirrorAt.any fun e => decide (160000000 ≤ (now t s).clock - e.2))
          = true) ∧
    (∃ s : State, ∃ t : Nat, ∃ w : Dispute, ∃ ws : List Dispute, s.dev.pair.disputed = w :: ws ∧ w.window < tetherTicks (now t s) / 4096 ∧ opVerdict
          s.dev 0x10 0 = stOk) ∧
    (∃ pattern : Nat, pattern ≤ 2) ∧
    (∃ s : State, ∃ t : Nat, s.dev.pair.pulse.isSome = true ∧ s.dev.pair.pulseAt + 64000 ≤ (now t s).clock) :=
  ⟨⟨(st { ready with pair := { mode := 1, pcsUp := true } }), by decide +kernel⟩,
   ⟨(st { ready with pair := { mode := 1, tetherUp := true, pcsUp := true } }), 0, by decide +kernel⟩,
   ⟨(st { ready with pair := { mode := 1, contact := true, role := 1 } }), 0, by decide +kernel⟩,
   ⟨(st { ready with pair := { mode := 1, contact := true, role := 1, rolePref := false } }), 0, by decide +kernel⟩,
   ⟨(st { ready with pair := { mode := 1, role := 2, missing := [(1, 0)] } }), 32000, by decide +kernel⟩,
   ⟨(st { ready with pair := { mode := 1, role := 2, mirrorAt := [(1, 0)] } }), 160000000, by decide +kernel⟩,
   ⟨(st { ready with pair := { mode := 1, disputed := [{ stream := 1, seq := 2, own := 3, theirs := 4, gen := 0, window := 0 }] } }), 4096,
         { stream := 1, seq := 2, own := 3, theirs := 4, gen := 0, window := 0 }, [], by decide +kernel⟩,
   ⟨2, by decide +kernel⟩,
   ⟨(st { ready with pair := { mode := 1, pulse := some 1 } }), 64000, by decide +kernel⟩⟩

theorem witness_PairRoleEventsComplete :
    (∃ s : State, ∃ t : Nat, s.dev.pair.mode = 1 ∧ s.dev.pair.role = 4 ∧ s.dev.guard.cause = 0 ∧ contactLost (now t s) = true ∧
          s.dev.pair.noContactSince + s.dev.pair.startWait * 16000000000 ≤ (now t s).clock ∧ maySend (now t s) = true) ∧
    (∃ s : State, ∃ a : Nat, s.dev.pair.trigger = some (a, 7, true) ∧ s.dev.pair.role = 2) ∧
    (∃ s : State, ∃ t a : Nat, ∃ final : Bool, s.dev.pair.trigger = some (a, 8, final) ∧ s.dev.pair.role = 2 ∧ contactLost (now t s) = true ∧ maySend
          (now t s) = false) ∧
    (∃ s : State, ∃ t beat : Nat, ∃ tk : Option Nat, s.dev.pair.planned = some (beat, tk) ∧ s.dev.pair.role = 1 ∧ s.dev.pair.tetherUp = true ∧
          s.dev.guard.frozen = false ∧ beat ≤ coreTicks (now t s).time.west / 4096 ∧ (∀ i ∈ transmitting s.dev, (copyOf s.dev i).slot = none)) ∧
    (∃ s : State, ∃ t : Nat,
      let p := s.dev.pair; p.mode = 1 ∧ p.revertive = true ∧ p.rolePref = true ∧ p.role = 2 ∧ p.partnerRole = 1 ∧ p.tetherUp = true ∧ p.planned = none
          ∧ p.resync = none ∧ p.sending = false ∧ p.goodSince + p.holdOff * 16000000000 ≤ (now t s).clock ∧ (∀ e ∈ s.dev.guard.streams, e.2.diverged =
          false)) ∧
    (∃ s : State, ∃ t : Nat, s.dev.pair.mode = 1 ∧ s.dev.pair.role = 3 ∧ s.dev.pair.autoResync = true ∧ s.dev.pair.tetherUp = true ∧ hasHeartbeat (now
          t s) = true ∧ s.dev.pair.resync = none ∧ s.dev.guard.cause = 0 ∧ causeCleared (now t s) = true ∧ s.dev.helm.state = 1) ∧
    (∃ s : State, ∃ t a : Nat, s.dev.pair.alignAt = some a ∧ s.dev.pair.role = 3 ∧ s.dev.pair.sync = 2 ∧ a + 160000 ≤ (now t s).clock) ∧
    (∃ s : State, ∃ scope : Nat, ∃ tk : Option Nat, ∃ again : Bool, s.dev.pair.resync = some (scope, tk, again) ∧ s.dev.pair.mode = 1 ∧
          s.dev.pair.role = 3 ∧ s.dev.pair.sync = 2 ∧ s.dev.guard.cause = 0 ∧ s.dev.pair.tetherUp = true ∧ allAligned s.dev = true) :=
  ⟨⟨(st { ready with pair := { mode := 1, role := 4 } }), 160000000000, by decide +kernel⟩,
   ⟨(st { ready with pair := { mode := 1, role := 2, trigger := some (0, 7, true) } }), 0, by decide +kernel⟩,
   ⟨(st { ready with pair := { mode := 1, role := 2, rolePref := false, trigger := some (0, 8, false) } }), 0, 0, false, by decide +kernel⟩,
   ⟨(st { ready with pair := { mode := 1, role := 1, tetherUp := true, planned := some (0, none) } }), 0, 0, none, by decide +kernel⟩,
   ⟨(st { ready with pair := { mode := 1, role := 2, partnerRole := 1, tetherUp := true } }), 960000000000, by decide +kernel⟩,
   ⟨(st { ready with pair := { mode := 1, role := 3, tetherUp := true, pcsUp := true, hbAt := some 0, tetherSince := some 0, lastCause := 1 } }), 0,
         by decide +kernel⟩,
   ⟨(st { ready with pair := { mode := 1, role := 3, sync := 2, alignAt := some 0 } }), 160000, 0, by decide +kernel⟩,
   ⟨(st { ready with pair := { mode := 1, role := 3, sync := 2, tetherUp := true, resync := some (0, none, false) } }), 0, none, false,
         by decide +kernel⟩⟩

theorem witness_PairCommandsComplete :
    (∃ s : State, ∃ c : Cmd,
      let q := c.req;
      let p := s.dev.pair; Takes s c 16 ∧ u8 q 4 = p.mode ∧ u8 q 4 ≤ 1 ∧ u8 q 5 ≤ 2 ∧ u8 q 6 ≤ 2 ∧ u8 q 7 ≤ 3 ∧ u16 q 8 ≤ 3600 ∧ u16 q 10 ≤ 600 ∧
          nameable s.dev (boxFn s.dev c.box) (u16 q 12) p.healthRing = true ∧ u16 q 14 = 0 ∧ (u32 q 0 = p.pairId ∧ u8 q 5 = p.downstream ∨ pairIdle
          (now c.t s) = true)) ∧
    (∃ s : State, ∃ c : Cmd,
      let q := c.req;
      let p := s.dev.pair; Takes s c 16 ∧ u8 q 4 ≠ p.mode ∧ u8 q 4 ≤ 1 ∧ u8 q 5 ≤ 2 ∧ u8 q 6 ≤ 2 ∧ u8 q 7 ≤ 3 ∧ u16 q 8 ≤ 3600 ∧ u16 q 10 ≤ 600 ∧
          nameable s.dev (boxFn s.dev c.box) (u16 q 12) p.healthRing = true ∧ u16 q 14 = 0 ∧ pairIdle (now c.t s) = true) ∧
    (∃ s : State, ∃ c : Cmd, Takes s c 4 ∧ u32 c.req 0 = 0) ∧
    (∃ s : State, ∃ c : Cmd, Takes s c 4 ∧ leAt c.req 1 3 = 0 ∧ s.dev.pair.mode = 1 ∧ u8 c.req 0 = 0 ∧ s.dev.pair.tetherUp = true ∧ s.dev.pair.role =
          1 ∧ s.dev.pair.partnerRole = 2 ∧ s.dev.pair.planned = none ∧ s.dev.helm.open_.length < 1024) ∧
    (∃ s : State, ∃ c : Cmd, Takes s c 4 ∧ leAt c.req 1 3 = 0 ∧ s.dev.pair.mode = 1 ∧ u8 c.req 0 = 1 ∧ s.dev.pair.role = 3 ∧ hasHeartbeat (now c.t s)
          = false ∧ s.dev.pair.pulse = none ∧ s.dev.guard.cause = 0) ∧
    (∃ s : State, ∃ c : Cmd, Takes s c 4 ∧ leAt c.req 1 3 = 0 ∧ s.dev.pair.mode = 1 ∧ u8 c.req 0 = 1 ∧ s.dev.pair.role = 4 ∧ hasHeartbeat (now c.t s)
          = false ∧ s.dev.pair.pulse = none ∧ s.dev.guard.cause = 0) ∧
    (∃ s : State, ∃ c : Cmd, Takes s c 36 ∧ sendingUnit s.dev = true ∧ u8 c.req 0 ≤ 1 ∧ leAt c.req 1 3 = 0) ∧
    (∃ s : State, ∃ c : Cmd, Takes s c 4 ∧ u8 c.req 0 ≤ 1 ∧ leAt c.req 1 3 = 0 ∧ s.dev.pair.mode = 1 ∧ s.dev.pair.role = 3 ∧ s.dev.pair.tetherUp =
          true ∧ s.dev.pair.resync = none ∧ s.dev.helm.open_.length < 1024) :=
  ⟨⟨st ready, (rq 16 [(0, le 4 7), (12, le 2 65535)]), by decide +kernel⟩,
   ⟨st ready, (rq 16 [(4, le 1 1), (12, le 2 65535)]), by decide +kernel⟩,
   ⟨st ready, (rq 4 []), by decide +kernel⟩,
   ⟨(st { ready with pair := { mode := 1, tetherUp := true, role := 1, partnerRole := 2 } }), (rq 4 []), by decide +kernel⟩,
   ⟨(st { ready with pair := { mode := 1, role := 3 } }), (rq 4 [(0, le 1 1)]), by decide +kernel⟩,
   ⟨(st { ready with pair := { mode := 1, role := 4 } }), (rq 4 [(0, le 1 1)]), by decide +kernel⟩,
   ⟨st ready, (rq 36 []), by decide +kernel⟩,
   ⟨(st { ready with pair := { mode := 1, role := 3, tetherUp := true } }), (rq 4 []), by decide +kernel⟩⟩

theorem witness_CisternCommandsComplete :
    (∃ s : State, ∃ c : Cmd,
      let q := c.req;
      let r := u32 q 0;
      let l := u32 q 4;
      let p := u32 q 8; Takes s c 16 ∧ r % 64 = 0 ∧ l % 64 = 0 ∧ p % 64 = 0 ∧ 1024 ≤ r ∧ 128 ≤ l ∧ u32 q 12 = 0 ∧ r + l + p + 1024 ≤ 52416) ∧
    (∃ s : State, ∃ c : Cmd,
      let q := c.req; Takes s c 16 ∧ (u32 q 0 % 64 ≠ 0 ∨ u32 q 4 % 64 ≠ 0 ∨ u32 q 8 % 64 ≠ 0 ∨ u32 q 0 < 1024 ∨ u32 q 4 < 128 ∨ 52416 < u32 q 0 + u32
          q 4 + u32 q 8 + 1024 ∨ u32 q 12 ≠ 0)) ∧
    (∃ s : State, ∃ c : Cmd, Takes s c 4 ∧ u32 c.req 0 = 0) ∧
    (∃ s : State, ∃ c : Cmd, Takes s c 4 ∧ u8 c.req 0 ≤ 63 ∧ leAt c.req 1 3 = 0 ∧ opVerdict s.dev 0x12 0 = stOk ∧ s.dev.helm.open_.length < 1024) ∧
    (∃ s : State, ∃ c : Cmd, Takes s c 1 ∧ u8 c.req 0 ≤ 15 ∧ (unitOf s.dev 72).step = 0 ∧ (s.dev.pair.mode = 0 → ∀ e ∈ s.dev.guard.streams, e.2.slots
          = []) ∧ opVerdict s.dev 0x0B (u8 c.req 0 + 1) = stOk ∧ s.dev.helm.open_.length < 1024) ∧
    (∃ s : State, ∃ c : Cmd, Takes s c 1 ∧ u8 c.req 0 ≤ 15 ∧ (unitOf s.dev 72).step = 0 ∧ (s.dev.pair.mode = 0 → ∀ e ∈ s.dev.guard.streams, e.2.slots
          = []) ∧ opVerdict s.dev 0x0B (u8 c.req 0 + 1) = stConflict) ∧
    (∃ s : State, ∃ c : Cmd, Takes s c 1 ∧ 15 < u8 c.req 0) ∧
    (∃ s : State, ∃ c : Cmd, Takes s c 1 ∧ u8 c.req 0 ≤ 15 ∧ s.dev.pair.mode = 0 ∧ (∃ e ∈ s.dev.guard.streams, e.2.slots ≠ [])) :=
  ⟨⟨st ready, (rq 16 [(0, le 4 1024), (4, le 4 128), (8, le 4 50240)]), by decide +kernel⟩,
   ⟨st ready, (rq 16 [(0, le 4 1024), (4, le 4 128), (8, le 4 50304)]), by decide +kernel⟩,
   ⟨st ready, (rq 4 []), by decide +kernel⟩,
   ⟨st ready, (rq 4 [(0, le 1 63)]), by decide +kernel⟩,
   ⟨st ready, (rq 1 [(0, le 1 15)]), by decide +kernel⟩,
   ⟨(st { ready with steward := { ops := [{ id := 0, code := 0x0D }], nextOp := 9 } }), (rq 1 []), by decide +kernel⟩,
   ⟨st ready, (rq 1 [(0, le 1 16)]), by decide +kernel⟩,
   ⟨(st { ready with guard := { streams := [(5, { slots := [{ port := 0, queue := 0, lastSent := 0 }] })] } }), (rq 1 [(0, le 1 3)]),
         by decide +kernel⟩⟩

theorem witness_CisternEventsComplete :
    (∃ s : State, ∃ op : Nat, ∃ o : Op, opOf s.dev op = some o ∧ o.code = 0x12 ∧ o.state ≠ 0 ∧ writesOpen s.dev (u8 o.req 0) (u64 o.host 0) = false) ∧
    (∃ s : State, ∃ op : Nat, ∃ o : Op, opOf s.dev op = some o ∧ o.code = 0x12 ∧ o.state ≠ 0 ∧ writesOpen s.dev (u8 o.req 0) (u64 o.host 0) = true) ∧
    (∃ s : State, ∃ channel : Nat, ∃ ok : Bool,
      let x := chanOf s.dev channel; channel < 16 ∧ x.trains = true ∧ (s.dev.steward.ops.find? fun o => o.code == 0x0B && o.state != 0 && o.key ==
          channel + 1) = none ∧ (x.verifying = false ∨ x.retried = true ∨ ok = true)) ∧
    (∃ s : State, ∃ channel : Nat, ∃ ok : Bool,
      let x := chanOf s.dev channel; channel < 16 ∧ x.trains = true ∧ (s.dev.steward.ops.find? fun o => o.code == 0x0B && o.state != 0 && o.key ==
          channel + 1) = none ∧ x.verifying = true ∧ x.retried = false ∧ ok = false) ∧
    (∃ s : State, ∃ channel : Nat, (16 ≤ channel ∨ (chanOf s.dev channel).trains = false)) ∧
    (∃ s : State, ∃ channel : Nat,
      let x := chanOf s.dev channel; channel < 16 ∧ x.inService = true ∧ s.dev.cistern.selfRefresh = false) ∧
    (∃ s : State, ∃ t channel : Nat,
      let x := chanOf s.dev channel; channel < 16 ∧ x.inService = true ∧ s.dev.cistern.selfRefresh = false ∧ (∀ a, x.mr4At = some a → a + 256000 ≤
          (now t s).clock)) ∧
    (∃ s : State, ∃ t channel : Nat, ∃ a : Nat, (chanOf s.dev channel).mr4At = some a ∧ (now t s).clock < a + 256000) ∧
    (∃ s : State, ∃ channel : Nat, channel < 16 ∧ (chanOf s.dev channel).inService = true) ∧
    (∃ s : State, s.dev.cistern.selfRefresh = false ∧ (∀ o ∈ s.dev.steward.ops, o.code ≠ 0x0B)) ∧
    (∃ s : State, ∃ toEnd : Bool, s.dev.cistern.selfRefresh = false ∧ (toEnd = false ∨ ∃ o ∈ s.dev.steward.ops, o.code = 0x0B) ∧ opVerdict s.dev 0x0C
          0 = stOk) ∧
    (∃ s : State, s.dev.cistern.selfRefresh = true) :=
  ⟨⟨(st { ready with steward := { ops := [{ id := 4, code := 0x12, state := 2 }], nextOp := 9 } }), 4, { id := 4, code := 0x12, state := 2 },
         by decide +kernel⟩,
   ⟨(st
         { ready with steward := { ops := [{ id := 4, code := 0x12, state := 2, req := [2] }], nextOp := 9 }, ledger := { queue := [{ source := 1, bytes := [1, 2, 3] }] } }),
         4, { id := 4, code := 0x12, state := 2, req := [2] }, by decide +kernel⟩,
   ⟨st ready, 15, false, by decide +kernel⟩,
   ⟨(st { ready with cistern := { channels := [(3, { training := true, verifying := true })] } }), 3, false, by decide +kernel⟩,
   ⟨st ready, 16, by decide +kernel⟩,
   ⟨(st { ready with cistern := { channels := [(3, { inService := true, owed := 9 })] } }), 3, by decide +kernel⟩,
   ⟨(st { ready with cistern := { channels := [(3, { inService := true, owed := 8 })] } }), 0, 3, by decide +kernel⟩,
   ⟨(st { ready with cistern := { channels := [(3, { inService := true, mr4At := some 0 })] } }), 255999, 3, 0, by decide +kernel⟩,
   ⟨(st { ready with cistern := { channels := [(3, { inService := true, owed := 0 })] } }), 3, by decide +kernel⟩,
   ⟨st ready, by decide +kernel⟩,
   ⟨(st { ready with steward := { ops := [{ id := 3, code := 0x0B, state := 1, key := 4 }], nextOp := 9 } }), true, by decide +kernel⟩,
   ⟨(st { ready with cistern := { selfRefresh := true } }), by decide +kernel⟩⟩

theorem witness_StewardComplete :
    (∃ s : State, ∃ c : Cmd, Takes s c 4 ∧ u32 c.req 0 = 0) ∧
    (∃ s : State, ∃ c : Cmd, ∃ o : Op, Takes s c 8 ∧ u32 c.req 4 = 0 ∧ u32 c.req 0 ≠ 0 ∧ (s.dev.steward.ops.find? fun o => o.ticket == u32 c.req 0) =
          some o ∧ opAbortable o.code = true ∧ o.past = false ∧ o.state = 1 ∧ s.dev.steward.safe = false) ∧
    (∃ s : State, ∃ c : Cmd, ∃ o : Op, Takes s c 8 ∧ u32 c.req 4 = 0 ∧ u32 c.req 0 ≠ 0 ∧ (s.dev.steward.ops.find? fun o => o.ticket == u32 c.req 0) =
          some o ∧ opAbortable o.code = true ∧ o.past = false ∧ o.state = 0 ∧ (o.code = 9 ∨ o.code = 0x12) ∧ o.ack = none ∧ o.own = false) ∧
    (∃ s : State, ∃ c : Cmd, ∃ o : Op, Takes s c 8 ∧ u32 c.req 4 = 0 ∧ u32 c.req 0 ≠ 0 ∧ (s.dev.steward.ops.find? fun o => o.ticket == u32 c.req 0) =
          some o ∧ (opAbortable o.code = false ∨ o.past = true)) ∧
    (∃ s : State, ∃ c : Cmd, Takes s c 8 ∧ (∀ o ∈ s.dev.steward.ops, o.ticket ≠ u32 c.req 0)) ∧
    (∃ s : State, ∃ t op : Nat, ∃ o : Op, opOf s.dev op = some o ∧ o.state = 0 ∧ blocker s.dev o = none ∧ opReady (now t s) o = true ∧ outranked (now
          t s) o = false ∧ runningOp s.dev = none ∧ o.code ≠ 6 ∧ o.code ≠ 0x0B) ∧
    (∃ s : State, ∃ t op : Nat, ∃ o : Op, opOf s.dev op = some o ∧ o.state = 0 ∧ blocker s.dev o = none ∧ opReady (now t s) o = true ∧ outranked (now
          t s) o = false ∧ runningOp s.dev = none ∧ o.code = 0x12) ∧
    (∃ s : State, ∃ t op : Nat, ∃ o : Op, opOf s.dev op = some o ∧ o.state = 0 ∧ blocker s.dev o = none ∧ opReady (now t s) o = true ∧ outranked (now
          t s) o = false ∧ runningOp s.dev = none ∧ o.code = 0x0B) ∧
    (∃ s : State, ∃ t op : Nat, ∃ o : Op, opOf s.dev op = some o ∧ o.state = 0 ∧ blocker s.dev o = none ∧ opReady (now t s) o = true ∧ outranked (now
          t s) o = false ∧ runningOp s.dev = none ∧ o.code = 6 ∧ (genOf s.dev (inactive s.dev)).incomplete = false) ∧
    (∃ s : State, ∃ t op : Nat, ∃ o : Op, opOf s.dev op = some o ∧ o.state = 0 ∧ blocker s.dev o = none ∧ opReady (now t s) o = true ∧ outranked (now
          t s) o = false ∧ runningOp s.dev = none ∧ o.code = 6 ∧ (genOf s.dev (inactive s.dev)).incomplete = true) ∧
    (∃ s : State, ∃ t op : Nat, ∃ o : Op, opOf s.dev op = some o ∧ o.state = 0 ∧ blocker s.dev o = none ∧ opReady (now t s) o = true ∧ outranked (now
          t s) o = false ∧ runningOp s.dev = none ∧ o.code = 0x0C) ∧
    (∃ s : State, ∃ op : Nat, ∃ o b : Op, opOf s.dev op = some o ∧ blocker s.dev o = some b) ∧
    (∃ s : State, ∃ t op : Nat, ∃ o : Op, ∃ k : Token, s.dev.steward.tokens.find? (fun k => k.op == op) = some k ∧ runningOp s.dev = none ∧ opOf s.dev
          op = some o ∧ outranked (now t s) o = false) ∧
    (∃ s : State, ∃ t op : Nat, ∃ o r : Op, ∃ k : Token, s.dev.steward.tokens.find? (fun k => k.op == op) = some k ∧ runningOp s.dev = some r ∧ r.id ≠
          op ∧ opOf s.dev op = some o ∧ outranked (now t s) o = false ∧ yieldsTo (now t s) r o = true) ∧
    (∃ s : State, ∃ t op : Nat, ∃ o r : Op, ∃ k : Token, s.dev.steward.tokens.find? (fun k => k.op == op) = some k ∧ runningOp s.dev = some r ∧ r.id ≠
          op ∧ opOf s.dev op = some o ∧ outranked (now t s) o = false ∧ yieldsTo (now t s) r o = false) ∧
    (∃ s : State, ∃ o : Op, runningOp s.dev = some o ∧ s.dev.steward.waiting.1 = 1) ∧
    (∃ s : State, ∃ o : Op, runningOp s.dev = some o ∧ s.dev.steward.waiting.1 = 2 ∧ s.dev.steward.issued = []) ∧
    (∃ s : State, ∃ o : Op, runningOp s.dev = some o ∧ ∃ a : BitVec 6, ∃ b : List Byte, s.dev.steward.waiting.1 = 2 ∧ s.dev.steward.issued =
          [(a.toNat, some b)]) ∧
    (∃ s : State, ∃ o : Op, runningOp s.dev = some o ∧ ∃ n, s.dev.steward.waiting.1 = 2 ∧ s.dev.steward.issued = [(n, none)] ∧ opAbortable o.code =
          true ∧ o.past = false ∧ o.state = 1) ∧
    (∃ s : State, ∃ t : Nat, ∃ o : Op, runningOp s.dev = some o ∧ ∃ x, (s.dev.steward.waiting = (3, 2, x) ∧ x ≤ (now t s).clock ∨
          s.dev.steward.waiting = (3, 0, x) ∧ x ≤ beatNow (now t s) ∨ s.dev.steward.waiting = (3, 1, x) ∧ inFlight s.dev x = 0)) ∧
    (∃ s : State, ∃ t : Nat, ∃ o : Op, runningOp s.dev = some o ∧ ∃ x, s.dev.steward.waiting = (3, 2, x) ∧ (now t s).clock < x) ∧
    (∃ s : State, ∃ o : Op, runningOp s.dev = some o ∧ 48 ≤ s.dev.steward.words ∧ s.dev.steward.waiting.1 = 0 ∧ o.state = 1) :=
  ⟨⟨(st { ready with steward := { ops := [{ id := 4, code := 9, ticket := 6, state := 1 }], nextOp := 9 } }), (rq 4 []), by decide +kernel⟩,
   ⟨(st { ready with steward := { ops := [{ id := 4, code := 9, ticket := 6, state := 1 }], nextOp := 9 } }), (rq 8 [(0, le 4 6)]),
         { id := 4, code := 9, ticket := 6, state := 1 }, by decide +kernel⟩,
   ⟨(st { ready with steward := { ops := [{ id := 4, code := 9, ticket := 6, state := 0 }], nextOp := 9 } }), (rq 8 [(0, le 4 6)]),
         { id := 4, code := 9, ticket := 6, state := 0 }, by decide +kernel⟩,
   ⟨(st { ready with steward := { ops := [{ id := 4, code := 8, ticket := 6 }], nextOp := 9 } }), (rq 8 [(0, le 4 6)]),
         { id := 4, code := 8, ticket := 6 }, by decide +kernel⟩,
   ⟨st ready, (rq 8 [(0, le 4 6)]), by decide +kernel⟩,
   ⟨(st { ready with steward := { ops := [{ id := 4, code := 7, ticket := 6 }], nextOp := 9 } }), 0, 4, { id := 4, code := 7, ticket := 6 },
         by decide +kernel⟩,
   ⟨(st { ready with steward := { ops := [{ id := 4, code := 0x12 }], nextOp := 9 } }), 0, 4, { id := 4, code := 0x12 }, by decide +kernel⟩,
   ⟨(st
         { ready with steward := { ops := [{ id := 4, code := 0x0B, ticket := 6, key := 4 }], nextOp := 9 }, cistern := { channels := [(3, { inService := true })] } }),
         0, 4, { id := 4, code := 0x0B, ticket := 6, key := 4 }, by decide +kernel⟩,
   ⟨(st
         { ready with steward := { ops := [{ id := 4, code := 6, ticket := 6, beat := 9 }], nextOp := 9 }, tables := { swap := some { op := 4, beat := 9 } } }),
         0, 4, { id := 4, code := 6, ticket := 6, beat := 9 }, by decide +kernel⟩,
   ⟨(st { ready with steward := { ops := [{ id := 4, code := 6, ticket := 6 }], nextOp := 9 }, tables := { genB := { incomplete := true } } }), 0, 4,
         { id := 4, code := 6, ticket := 6 }, by decide +kernel⟩,
   ⟨(st { ready with steward := { ops := [{ id := 4, code := 0x0C, req := [4, 0, 0, 0] }], nextOp := 9 } }), 0, 4,
         { id := 4, code := 0x0C, req := [4, 0, 0, 0] }, by decide +kernel⟩,
   ⟨(st { ready with steward := { ops := [{ id := 3, code := 7, state := 1 }, { id := 4, code := 5 }], nextOp := 9 } }), 4, { id := 4, code := 5 },
         { id := 3, code := 7, state := 1 }, by decide +kernel⟩,
   ⟨(st
         { ready with steward := { ops := [{ id := 4, code := 9, state := 2 }], nextOp := 9, tokens := [{ op := 4, pc := 77, saved := [(5, 9)], first := 0, count := 0 }] } }),
         0, 4, { id := 4, code := 9, state := 2 }, { op := 4, pc := 77, saved := [(5, 9)], first := 0, count := 0 }, by decide +kernel⟩,
   ⟨(st
         { ready with steward := { ops := [{ id := 4, code := 9, state := 2 }, { id := 5, code := 9, state := 1 }], nextOp := 9, tokens := [{ op := 4, pc := 77, saved := [(5, 9)], first := 0, count := 0 }], safe := true } }),
         160000, 4, { id := 4, code := 9, state := 2 }, { id := 5, code := 9, state := 1 },
         { op := 4, pc := 77, saved := [(5, 9)], first := 0, count := 0 }, by decide +kernel⟩,
   ⟨(st
         { ready with steward := { ops := [{ id := 4, code := 9, state := 2 }, { id := 5, code := 9, state := 1 }], nextOp := 9, tokens := [{ op := 4, pc := 77, saved := [(5, 9)], first := 0, count := 0 }], safe := false } }),
         160000, 4, { id := 4, code := 9, state := 2 }, { id := 5, code := 9, state := 1 },
         { op := 4, pc := 77, saved := [(5, 9)], first := 0, count := 0 }, by decide +kernel⟩,
   ⟨(st { ready with steward := { ops := [{ id := 4, code := 9, ticket := 6, state := 1 }], nextOp := 9, waiting := (1, 0, 0) } }),
         { id := 4, code := 9, ticket := 6, state := 1 }, by decide +kernel⟩,
   ⟨(st { ready with steward := { ops := [{ id := 4, code := 9, ticket := 6, state := 1 }], nextOp := 9, waiting := (2, 0, 0) } }),
         { id := 4, code := 9, ticket := 6, state := 1 }, by decide +kernel⟩,
   ⟨(st
         { ready with steward := { ops := [{ id := 4, code := 9, ticket := 6, state := 1 }], nextOp := 9, waiting := (2, 0, 0), issued := [(60, some (List.replicate 64 1))] } }),
         { id := 4, code := 9, ticket := 6, state := 1 }, by decide +kernel, 60#6, List.replicate 64 1, by decide +kernel⟩,
   ⟨(st
         { ready with steward := { ops := [{ id := 4, code := 9, ticket := 6, state := 1 }], nextOp := 9, waiting := (2, 0, 0), issued := [(60, none)] } }),
         { id := 4, code := 9, ticket := 6, state := 1 }, by decide +kernel, 60, by decide +kernel⟩,
   ⟨(st { ready with steward := { ops := [{ id := 4, code := 9, ticket := 6, state := 1 }], nextOp := 9, waiting := (3, 2, 100) } }), 100,
         { id := 4, code := 9, ticket := 6, state := 1 }, by decide +kernel, 100, by decide +kernel⟩,
   ⟨(st { ready with steward := { ops := [{ id := 4, code := 9, ticket := 6, state := 1 }], nextOp := 9, waiting := (3, 2, 100) } }), 99,
         { id := 4, code := 9, ticket := 6, state := 1 }, by decide +kernel, 100, by decide +kernel⟩,
   ⟨(st { ready with steward := { ops := [{ id := 4, code := 9, ticket := 6, state := 1 }], nextOp := 9, words := 48, regs := [(60, 0x1234)] } }),
         { id := 4, code := 9, ticket := 6, state := 1 }, by decide +kernel⟩⟩

theorem witness_MicroArithmeticCompletes :
    (∃ s : State, ∃ t : Nat,
      let n := now t s; AtWord n .nop) ∧
    (∃ s : State, ∃ t : Nat, ∃ a : BitVec 6, ∃ b : BitVec 6,
      let n := now t s; AtWord n (.mov a b)) ∧
    (∃ s : State, ∃ t : Nat, ∃ a : BitVec 6, ∃ b : BitVec 6, ∃ c : BitVec 6,
      let n := now t s; AtWord n (.add a b c)) ∧
    (∃ s : State, ∃ t : Nat, ∃ a : BitVec 6, ∃ b : BitVec 6, ∃ c : BitVec 6,
      let n := now t s; AtWord n (.sub a b c)) ∧
    (∃ s : State, ∃ t : Nat, ∃ a : BitVec 6, ∃ b : BitVec 6, ∃ c : BitVec 6,
      let n := now t s; AtWord n (.and a b c)) ∧
    (∃ s : State, ∃ t : Nat, ∃ a : BitVec 6, ∃ b : BitVec 6, ∃ c : BitVec 6,
      let n := now t s; AtWord n (.or a b c)) ∧
    (∃ s : State, ∃ t : Nat, ∃ a : BitVec 6, ∃ b : BitVec 6, ∃ c : BitVec 6,
      let n := now t s; AtWord n (.xor a b c)) ∧
    (∃ s : State, ∃ t : Nat, ∃ a : BitVec 6, ∃ b : BitVec 6, ∃ c : BitVec 6,
      let n := now t s; AtWord n (.shl a b c)) ∧
    (∃ s : State, ∃ t : Nat, ∃ a : BitVec 6, ∃ b : BitVec 6, ∃ c : BitVec 6,
      let n := now t s; AtWord n (.shr a b c)) ∧
    (∃ s : State, ∃ t : Nat, ∃ a : BitVec 6, ∃ imm : BitVec 12,
      let n := now t s; AtWord n (.ldi a imm)) ∧
    (∃ s : State, ∃ t : Nat, ∃ a : BitVec 6, ∃ imm : BitVec 12,
      let n := now t s; AtWord n (.addi a imm)) ∧
    (∃ s : State, ∃ t : Nat, ∃ a : BitVec 6, ∃ imm : BitVec 12,
      let n := now t s; AtWord n (.shli a imm)) ∧
    (∃ s : State, ∃ t : Nat, ∃ a : BitVec 6, ∃ b : BitVec 6,
      let n := now t s; AtWord n (.crc a b 0)) ∧
    (∃ s : State, ∃ t : Nat, ∃ a : BitVec 6, ∃ b : BitVec 6,
      let n := now t s; AtWord n (.crc a b 1)) ∧
    (∃ s : State, ∃ t : Nat, ∃ a : BitVec 6, ∃ b : BitVec 6, ∃ c : BitVec 6,
      let n := now t s; AtWord n (.crc a b c) ∧ 2 ≤ c.toNat) ∧
    (∃ s : State, ∃ t : Nat, ∃ b : BitVec 6, ∃ c : BitVec 6,
      let n := now t s; AtWord n (.cmp b c)) ∧
    (∃ s : State, ∃ t : Nat, ∃ a : BitVec 6, ∃ imm : BitVec 12,
      let n := now t s; AtWord n (.cmpi a imm)) ∧
    (∃ s : State, ∃ t : Nat, ∃ a : BitVec 6, ∃ b : BitVec 6,
      let n := now t s; AtWord n (.sha a b)) :=
  ⟨⟨(st
         { ready with steward := { ops := [{ id := 4, code := 9, ticket := 6, state := 1 }], nextOp := 9, pc := 0x4000, patch := [(0, storeWord (encodeMicro (.nop)).toNat)], regs := [(1, 5), (2, 7), (3, 0x0721), (60, 0x1234), (61, 1), (63, 0x200)] } }),
         0, by decide +kernel⟩,
   ⟨(st
         { ready with steward := { ops := [{ id := 4, code := 9, ticket := 6, state := 1 }], nextOp := 9, pc := 0x4000, patch := [(0, storeWord (encodeMicro (.mov 4#6 1#6)).toNat)], regs := [(1, 5), (2, 7), (3, 0x0721), (60, 0x1234), (61, 1), (63, 0x200)] } }),
         0, 4#6, 1#6, by decide +kernel⟩,
   ⟨(st
         { ready with steward := { ops := [{ id := 4, code := 9, ticket := 6, state := 1 }], nextOp := 9, pc := 0x4000, patch := [(0, storeWord (encodeMicro (.add 4#6 1#6 2#6)).toNat)], regs := [(1, 5), (2, 7), (3, 0x0721), (60, 0x1234), (61, 1), (63, 0x200)] } }),
         0, 4#6, 1#6, 2#6, by decide +kernel⟩,
   ⟨(st
         { ready with steward := { ops := [{ id := 4, code := 9, ticket := 6, state := 1 }], nextOp := 9, pc := 0x4000, patch := [(0, storeWord (encodeMicro (.sub 4#6 1#6 2#6)).toNat)], regs := [(1, 5), (2, 7), (3, 0x0721), (60, 0x1234), (61, 1), (63, 0x200)] } }),
         0, 4#6, 1#6, 2#6, by decide +kernel⟩,
   ⟨(st
         { ready with steward := { ops := [{ id := 4, code := 9, ticket := 6, state := 1 }], nextOp := 9, pc := 0x4000, patch := [(0, storeWord (encodeMicro (.and 4#6 1#6 2#6)).toNat)], regs := [(1, 5), (2, 7), (3, 0x0721), (60, 0x1234), (61, 1), (63, 0x200)] } }),
         0, 4#6, 1#6, 2#6, by decide +kernel⟩,
   ⟨(st
         { ready with steward := { ops := [{ id := 4, code := 9, ticket := 6, state := 1 }], nextOp := 9, pc := 0x4000, patch := [(0, storeWord (encodeMicro (.or 4#6 1#6 2#6)).toNat)], regs := [(1, 5), (2, 7), (3, 0x0721), (60, 0x1234), (61, 1), (63, 0x200)] } }),
         0, 4#6, 1#6, 2#6, by decide +kernel⟩,
   ⟨(st
         { ready with steward := { ops := [{ id := 4, code := 9, ticket := 6, state := 1 }], nextOp := 9, pc := 0x4000, patch := [(0, storeWord (encodeMicro (.xor 4#6 1#6 2#6)).toNat)], regs := [(1, 5), (2, 7), (3, 0x0721), (60, 0x1234), (61, 1), (63, 0x200)] } }),
         0, 4#6, 1#6, 2#6, by decide +kernel⟩,
   ⟨(st
         { ready with steward := { ops := [{ id := 4, code := 9, ticket := 6, state := 1 }], nextOp := 9, pc := 0x4000, patch := [(0, storeWord (encodeMicro (.shl 4#6 1#6 2#6)).toNat)], regs := [(1, 5), (2, 7), (3, 0x0721), (60, 0x1234), (61, 1), (63, 0x200)] } }),
         0, 4#6, 1#6, 2#6, by decide +kernel⟩,
   ⟨(st
         { ready with steward := { ops := [{ id := 4, code := 9, ticket := 6, state := 1 }], nextOp := 9, pc := 0x4000, patch := [(0, storeWord (encodeMicro (.shr 4#6 1#6 2#6)).toNat)], regs := [(1, 5), (2, 7), (3, 0x0721), (60, 0x1234), (61, 1), (63, 0x200)] } }),
         0, 4#6, 1#6, 2#6, by decide +kernel⟩,
   ⟨(st
         { ready with steward := { ops := [{ id := 4, code := 9, ticket := 6, state := 1 }], nextOp := 9, pc := 0x4000, patch := [(0, storeWord (encodeMicro (.ldi 4#6 0x123#12)).toNat)], regs := [(1, 5), (2, 7), (3, 0x0721), (60, 0x1234), (61, 1), (63, 0x200)] } }),
         0, 4#6, 0x123#12, by decide +kernel⟩,
   ⟨(st
         { ready with steward := { ops := [{ id := 4, code := 9, ticket := 6, state := 1 }], nextOp := 9, pc := 0x4000, patch := [(0, storeWord (encodeMicro (.addi 4#6 0x123#12)).toNat)], regs := [(1, 5), (2, 7), (3, 0x0721), (60, 0x1234), (61, 1), (63, 0x200)] } }),
         0, 4#6, 0x123#12, by decide +kernel⟩,
   ⟨(st
         { ready with steward := { ops := [{ id := 4, code := 9, ticket := 6, state := 1 }], nextOp := 9, pc := 0x4000, patch := [(0, storeWord (encodeMicro (.shli 4#6 0x123#12)).toNat)], regs := [(1, 5), (2, 7), (3, 0x0721), (60, 0x1234), (61, 1), (63, 0x200)] } }),
         0, 4#6, 0x123#12, by decide +kernel⟩,
   ⟨(st
         { ready with steward := { ops := [{ id := 4, code := 9, ticket := 6, state := 1 }], nextOp := 9, pc := 0x4000, patch := [(0, storeWord (encodeMicro (.crc 4#6 1#6 0)).toNat)], regs := [(1, 5), (2, 7), (3, 0x0721), (60, 0x1234), (61, 1), (63, 0x200)] } }),
         0, 4#6, 1#6, by decide +kernel⟩,
   ⟨(st
         { ready with steward := { ops := [{ id := 4, code := 9, ticket := 6, state := 1 }], nextOp := 9, pc := 0x4000, patch := [(0, storeWord (encodeMicro (.crc 4#6 1#6 1)).toNat)], regs := [(1, 5), (2, 7), (3, 0x0721), (60, 0x1234), (61, 1), (63, 0x200)] } }),
         0, 4#6, 1#6, by decide +kernel⟩,
   ⟨(st
         { ready with steward := { ops := [{ id := 4, code := 9, ticket := 6, state := 1 }], nextOp := 9, pc := 0x4000, patch := [(0, storeWord (encodeMicro (.crc 4#6 1#6 2#6)).toNat)], regs := [(1, 5), (2, 7), (3, 0x0721), (60, 0x1234), (61, 1), (63, 0x200)] } }),
         0, 4#6, 1#6, 2#6, by decide +kernel⟩,
   ⟨(st
         { ready with steward := { ops := [{ id := 4, code := 9, ticket := 6, state := 1 }], nextOp := 9, pc := 0x4000, patch := [(0, storeWord (encodeMicro (.cmp 1#6 2#6)).toNat)], regs := [(1, 5), (2, 7), (3, 0x0721), (60, 0x1234), (61, 1), (63, 0x200)] } }),
         0, 1#6, 2#6, by decide +kernel⟩,
   ⟨(st
         { ready with steward := { ops := [{ id := 4, code := 9, ticket := 6, state := 1 }], nextOp := 9, pc := 0x4000, patch := [(0, storeWord (encodeMicro (.cmpi 1#6 5#12)).toNat)], regs := [(1, 5), (2, 7), (3, 0x0721), (60, 0x1234), (61, 1), (63, 0x200)] } }),
         0, 1#6, 5#12, by decide +kernel⟩,
   ⟨(st
         { ready with steward := { ops := [{ id := 4, code := 9, ticket := 6, state := 1 }], nextOp := 9, pc := 0x4000, patch := [(0, storeWord (encodeMicro (.sha 4#6 1#6)).toNat)], regs := [(1, 5), (2, 7), (3, 0x0721), (60, 0x1234), (61, 1), (63, 0x200)] } }),
         0, 4#6, 1#6, by decide +kernel⟩⟩

theorem witness_MicroControlCompletes :
    (∃ s : State, ∃ t : Nat, ∃ a : BitVec 6, ∃ imm : BitVec 12,
      let n := now t s; AtWord n (.br a imm) ∧ a.toNat ≤ 6) ∧
    (∃ s : State, ∃ t : Nat, ∃ b : BitVec 6,
      let n := now t s; AtWord n (.jmp b)) ∧
    (∃ s : State, ∃ t : Nat, ∃ b : BitVec 6,
      let n := now t s; AtWord n (.call b)) ∧
    (∃ s : State, ∃ t : Nat,
      let n := now t s; AtWord n .ret) ∧
    (∃ s : State, ∃ t : Nat, ∃ imm : BitVec 12,
      let n := now t s; AtWord n (.undo imm)) ∧
    (∃ s : State, ∃ t : Nat, ∃ imm : BitVec 12,
      let n := now t s; AtWord n (.token imm) ∧ 1 ≤ imm.toNat / 64 ∧ imm.toNat / 64 ≤ 16) ∧
    (∃ s : State, ∃ t : Nat, ∃ a : BitVec 6, ∃ b : BitVec 6, ∃ imm : BitVec 12,
      let m := mreg s.dev;
      let n := now t s; ∃ o : Op, ∃ c : BitVec 6, ∃ i : Instr, runningOp s.dev = some o ∧ s.dev.steward.waiting.1 = 0 ∧ mustYield n o = false ∧ ((∀ k,
          i = .trd k a b c false → islandAwake s.dev (0x40 + (m c).toNat % 8) = true) ∧ (∀ k, i = .twr k a b c false → maskAwake s.dev ((m c).toNat /
          256 % 256) = true) ∧ (∀ k, (i = .crd k a b false ∨ i = .cwr k a b false) → islandAwake s.dev 0x4E = true ∧ channelsTrain s.dev (m b).toNat
          64 = false)) ∧ (IsWord t a b c imm false i ∨ (AtWord n (.br a imm) ∧ i = .br t a imm true ∧ 7 ≤ a.toNat) ∨ (AtWord n (.token imm) ∧ i =
          .token t imm true ∧ (imm.toNat / 64 = 0 ∨ 17 ≤ imm.toNat / 64)) ∨ (AtWord n (.evwait a imm) ∧ i = .evwait t a imm true ∧ 3 ≤ imm.toNat /
          256)) ∧ (o.code = 9 ∨ o.code = 0x0C ∨ o.code = 0x12) ∧ o.ack = none) ∧
    (∃ s : State, ∃ t : Nat,
      let n := now t s; ∃ o : Op, runningOp s.dev = some o ∧ s.dev.steward.waiting.1 = 0 ∧ mustYield n o = false ∧ microAt s.dev = some .nop ∧ 48 ≤
          s.dev.steward.words) ∧
    (∃ s : State, ∃ t : Nat,
      let n := now t s; ∃ o : Op, runningOp s.dev = some o ∧ (s.dev.steward.waiting.1 ≠ 0 ∨ mustYield n o = true)) :=
  ⟨⟨(st
         { ready with steward := { ops := [{ id := 4, code := 9, ticket := 6, state := 1 }], nextOp := 9, pc := 0x4000, patch := [(0, storeWord (encodeMicro (.br 1#6 0xFFE#12)).toNat)], regs := [(1, 5), (2, 7), (3, 0x0721), (60, 0x1234), (61, 1), (63, 0x200)] } }),
         0, 1#6, 0xFFE#12, by decide +kernel⟩,
   ⟨(st
         { ready with steward := { ops := [{ id := 4, code := 9, ticket := 6, state := 1 }], nextOp := 9, pc := 0x4000, patch := [(0, storeWord (encodeMicro (.jmp 1#6)).toNat)], regs := [(1, 5), (2, 7), (3, 0x0721), (60, 0x1234), (61, 1), (63, 0x200)] } }),
         0, 1#6, by decide +kernel⟩,
   ⟨(st
         { ready with steward := { ops := [{ id := 4, code := 9, ticket := 6, state := 1 }], nextOp := 9, pc := 0x4000, patch := [(0, storeWord (encodeMicro (.call 1#6)).toNat)], regs := [(1, 5), (2, 7), (3, 0x0721), (60, 0x1234), (61, 1), (63, 0x200)] } }),
         0, 1#6, by decide +kernel⟩,
   ⟨(st
         { ready with steward := { ops := [{ id := 4, code := 9, ticket := 6, state := 1 }], nextOp := 9, pc := 0x4000, patch := [(0, storeWord (encodeMicro (.ret)).toNat)], regs := [(1, 5), (2, 7), (3, 0x0721), (60, 0x1234), (61, 1), (63, 0x200)] } }),
         0, by decide +kernel⟩,
   ⟨(st
         { ready with steward := { ops := [{ id := 4, code := 9, ticket := 6, state := 1 }], nextOp := 9, pc := 0x4000, patch := [(0, storeWord (encodeMicro (.undo 0x123#12)).toNat)], regs := [(1, 5), (2, 7), (3, 0x0721), (60, 0x1234), (61, 1), (63, 0x200)] } }),
         0, 0x123#12, by decide +kernel⟩,
   ⟨(st
         { ready with steward := { ops := [{ id := 4, code := 9, ticket := 6, state := 1 }], nextOp := 9, pc := 0x4000, patch := [(0, storeWord (encodeMicro (.token 0x045#12)).toNat)], regs := [(1, 5), (2, 7), (3, 0x0721), (60, 0x1234), (61, 1), (63, 0x200)] } }),
         0, 0x045#12, by decide +kernel⟩,
   ⟨(st
         { ready with steward := { ops := [{ id := 4, code := 9, ticket := 6, state := 1 }], nextOp := 9, pc := 0x100, regs := [(1, 5), (2, 7), (3, 0x0721), (60, 0x1234), (61, 1), (63, 0x200)] } }),
         0, 4#6, 1#6, 0x123#12, { id := 4, code := 9, ticket := 6, state := 1 }, 3#6, .nop 0 false, by decide +kernel, by decide +kernel,
         by decide +kernel, ⟨fun _ h => (nomatch h), fun _ h => (nomatch h), fun _ h => h.elim (fun h => (nomatch h)) (fun h => (nomatch h))⟩, Or.inl
         (by decide +kernel), by decide +kernel⟩,
   ⟨(st
         { ready with steward := { ops := [{ id := 4, code := 9, ticket := 6, state := 1 }], nextOp := 9, pc := 0x4000, patch := [(0, storeWord (encodeMicro (.nop)).toNat)], regs := [(1, 5), (2, 7), (3, 0x0721), (60, 0x1234), (61, 1), (63, 0x200)], words := 48 } }),
         0, { id := 4, code := 9, ticket := 6, state := 1 }, by decide +kernel⟩,
   ⟨(st { ready with steward := { ops := [{ id := 4, code := 9, ticket := 6, state := 1 }], nextOp := 9, waiting := (1, 0, 0) } }), 0,
         { id := 4, code := 9, ticket := 6, state := 1 }, by decide +kernel⟩⟩

theorem witness_MicroMemoryCompletes :
    (∃ s : State, ∃ t : Nat, ∃ a : BitVec 6, ∃ b : BitVec 6, ∃ c : BitVec 6,
      let m := mreg s.dev;
      let n := now t s;
      let space := (m c).toNat / 16 % 16;
      let basin := (m c).toNat % 8;
      let k := fun basin => rawKey basin space (m b).toNat; AtWord n (.trd a b c) ∧ islandAwake s.dev (0x40 + basin) = true ∧ ∃ v, tget none
          s.dev.steward.rawWords (k basin) = some v) ∧
    (∃ s : State, ∃ t : Nat, ∃ a : BitVec 6, ∃ b : BitVec 6, ∃ c : BitVec 6,
      let m := mreg s.dev;
      let n := now t s;
      let space := (m c).toNat / 16 % 16;
      let basin := (m c).toNat % 8;
      let at_ := (m b).toNat; AtWord n (.trd a b c) ∧ islandAwake s.dev (0x40 + basin) = true ∧ ∃ x, tableWord n basin space at_ = some x ∧
          wordUnusable n basin space at_ x = false) ∧
    (∃ s : State, ∃ t : Nat, ∃ a : BitVec 6, ∃ b : BitVec 6, ∃ c : BitVec 6,
      let m := mreg s.dev;
      let n := now t s;
      let space := (m c).toNat / 16 % 16;
      let basin := (m c).toNat % 8;
      let at_ := (m b).toNat; AtWord n (.trd a b c) ∧ islandAwake s.dev (0x40 + basin) = true ∧ ∃ x, ∃ o : Op, runningOp s.dev = some o ∧ tableWord n
          basin space at_ = some x ∧ wordUnusable n basin space at_ x = true) ∧
    (∃ s : State, ∃ t : Nat, ∃ a : BitVec 6, ∃ b : BitVec 6, ∃ c : BitVec 6,
      let m := mreg s.dev;
      let n := now t s;
      let space := (m c).toNat / 16 % 16;
      let basin := (m c).toNat % 8;
      let at_ := (m b).toNat; AtWord n (.trd a b c) ∧ islandAwake s.dev (0x40 + basin) = true ∧ tableWord n basin space at_ = none) ∧
    (∃ s : State, ∃ c : BitVec 6,
      let m := mreg s.dev;
      let basin := (m c).toNat % 8; islandAwake s.dev (0x40 + basin) = false) ∧
    (∃ s : State, ∃ c : BitVec 6,
      let m := mreg s.dev; maskAwake s.dev ((m c).toNat / 256 % 256) = false) ∧
    (∃ s : State, ∃ b : BitVec 6,
      let m := mreg s.dev;
      let at_ := (m b).toNat; (islandAwake s.dev 0x4E = false ∨ channelsTrain s.dev at_ 64 = true)) ∧
    (∃ s : State, ∃ b : BitVec 6,
      let m := mreg s.dev;
      let at_ := (m b).toNat; (islandAwake s.dev 0x4E = false ∨ channelsTrain s.dev at_ 64 = true)) ∧
    (∃ s : State, ∃ t : Nat, ∃ a : BitVec 6, ∃ b : BitVec 6, ∃ c : BitVec 6,
      let m := mreg s.dev;
      let n := now t s; AtWord n (.twr a b c) ∧ maskAwake s.dev ((m c).toNat / 256 % 256) = true) ∧
    (∃ s : State, ∃ t : Nat, ∃ a : BitVec 6, ∃ b : BitVec 6,
      let m := mreg s.dev;
      let n := now t s;
      let at_ := (m b).toNat; AtWord n (.crd a b) ∧ islandAwake s.dev 0x4E = true ∧ channelsTrain s.dev at_ 64 = false) ∧
    (∃ s : State, ∃ t : Nat, ∃ a : BitVec 6, ∃ b : BitVec 6,
      let m := mreg s.dev;
      let n := now t s;
      let at_ := (m b).toNat; AtWord n (.cwr a b) ∧ islandAwake s.dev 0x4E = true ∧ channelsTrain s.dev at_ 64 = false ∧ storable s.dev at_ 64 =
          false) ∧
    (∃ s : State, ∃ t : Nat, ∃ a : BitVec 6, ∃ b : BitVec 6,
      let m := mreg s.dev;
      let n := now t s;
      let at_ := (m b).toNat; AtWord n (.cwr a b) ∧ islandAwake s.dev 0x4E = true ∧ channelsTrain s.dev at_ 64 = false ∧ storable s.dev at_ 64 = true)
          ∧
    (∃ s : State, ∃ t : Nat, ∃ a : BitVec 6, ∃ b : BitVec 6,
      let m := mreg s.dev;
      let n := now t s; AtWord n (.rrd a b) ∧ ∃ x, tget none s.dev.steward.rawRegs (m b).toNat = x ∧ ∃ v, x = some v) ∧
    (∃ s : State, ∃ t : Nat, ∃ a : BitVec 6, ∃ b : BitVec 6,
      let m := mreg s.dev;
      let n := now t s; AtWord n (.rrd a b) ∧ ∃ x, tget none s.dev.steward.rawRegs (m b).toNat = x ∧ x = none) ∧
    (∃ s : State, ∃ t : Nat, ∃ a : BitVec 6, ∃ b : BitVec 6,
      let n := now t s; AtWord n (.rwr a b)) ∧
    (∃ s : State, ∃ t : Nat, ∃ a : BitVec 6, ∃ b : BitVec 6, ∃ c : BitVec 6,
      let m := mreg s.dev;
      let n := now t s; AtWord n (.relook a b c) ∧ ∃ e, ∃ x, heldAt s.dev (m b) = some e ∧ relookIn n e.1 e.2 ((m c).toNat % 2) = some x) ∧
    (∃ s : State, ∃ t : Nat, ∃ a : BitVec 6, ∃ b : BitVec 6, ∃ c : BitVec 6,
      let m := mreg s.dev;
      let n := now t s; AtWord n (.relook a b c) ∧ (∀ e, heldAt s.dev (m b) = some e → relookIn n e.1 e.2 ((m c).toNat % 2) = none)) :=
  ⟨⟨(st
         { ready with steward := { ops := [{ id := 4, code := 9, ticket := 6, state := 1 }], nextOp := 9, pc := 0x4000, patch := [(0, storeWord (encodeMicro (.trd 4#6 1#6 3#6)).toNat)], regs := [(1, 5), (2, 7), (3, 0x0721), (60, 0x1234), (61, 1), (63, 0x200)], rawWords := [(rawKey 1 2 5, some 99)] } }),
         0, 4#6, 1#6, 3#6, by decide +kernel, by decide +kernel, 99, by decide +kernel⟩,
   ⟨(st
         { ready with steward := { ops := [{ id := 4, code := 9, ticket := 6, state := 1 }], nextOp := 9, pc := 0x4000, patch := [(0, storeWord (encodeMicro (.trd 4#6 1#6 3#6)).toNat)], regs := [(1, 5), (2, 7), (3, 0x0721), (60, 0x1234), (61, 1), (63, 0x200)], rawWords := [(rawKey 1 2 5, some 99)] } }),
         0, 4#6, 1#6, 3#6, by decide +kernel, by decide +kernel, 99, by decide +kernel⟩,
   ⟨(st
         { ready with steward := { ops := [{ id := 4, code := 9, ticket := 6, state := 1 }], nextOp := 9, pc := 0x4000, patch := [(0, storeWord (encodeMicro (.trd 4#6 1#6 3#6)).toNat)], regs := [(1, 5), (3, 0x0701)], rawWords := [(rawKey 1 0 5, some 1)] } }),
         0, 4#6, 1#6, 3#6, by decide +kernel, by decide +kernel, 1, { id := 4, code := 9, ticket := 6, state := 1 }, by decide +kernel⟩,
   ⟨(st
         { ready with steward := { ops := [{ id := 4, code := 9, ticket := 6, state := 1 }], nextOp := 9, pc := 0x4000, patch := [(0, storeWord (encodeMicro (.trd 4#6 1#6 3#6)).toNat)], regs := [(1, 5), (2, 7), (3, 0x0721), (60, 0x1234), (61, 1), (63, 0x200)] } }),
         0, 4#6, 1#6, 3#6, by decide +kernel⟩,
   ⟨(st
         { ready with steward := { ops := [{ id := 4, code := 9, ticket := 6, state := 1 }], nextOp := 9, pc := 0x4000, patch := [(0, storeWord (encodeMicro (.trd 4#6 1#6 3#6)).toNat)], regs := [(1, 5), (2, 7), (3, 0x0721), (60, 0x1234), (61, 1), (63, 0x200)] }, power := { units := [(65, { step := 4, commanded := 4 })] } }),
         3#6, by decide +kernel⟩,
   ⟨(st
         { ready with steward := { ops := [{ id := 4, code := 9, ticket := 6, state := 1 }], nextOp := 9, pc := 0x4000, patch := [(0, storeWord (encodeMicro (.twr 4#6 1#6 3#6)).toNat)], regs := [(1, 5), (2, 7), (3, 0x0721), (60, 0x1234), (61, 1), (63, 0x200)] }, power := { units := [(65, { step := 4, commanded := 4 })] } }),
         3#6, by decide +kernel⟩,
   ⟨(st
         { ready with steward := { ops := [{ id := 4, code := 9, ticket := 6, state := 1 }], nextOp := 9, pc := 0x4000, patch := [(0, storeWord (encodeMicro (.crd 4#6 1#6)).toNat)], regs := [(1, 5), (2, 7), (3, 0x0721), (60, 0x1234), (61, 1), (63, 0x200)] } }),
         1#6, by decide +kernel⟩,
   ⟨(st
         { ready with steward := { ops := [{ id := 4, code := 9, ticket := 6, state := 1 }], nextOp := 9, pc := 0x4000, patch := [(0, storeWord (encodeMicro (.cwr 4#6 1#6)).toNat)], regs := [(1, 5), (2, 7), (3, 0x0721), (60, 0x1234), (61, 1), (63, 0x200)] } }),
         1#6, by decide +kernel⟩,
   ⟨(st
         { ready with steward := { ops := [{ id := 4, code := 9, ticket := 6, state := 1 }], nextOp := 9, pc := 0x4000, patch := [(0, storeWord (encodeMicro (.twr 4#6 1#6 3#6)).toNat)], regs := [(1, 5), (2, 7), (3, 0x0721), (60, 0x1234), (61, 1), (63, 0x200)] } }),
         0, 4#6, 1#6, 3#6, by decide +kernel⟩,
   ⟨(st
         { ready with steward := { ops := [{ id := 4, code := 9, ticket := 6, state := 1 }], nextOp := 9, pc := 0x4000, patch := [(0, storeWord (encodeMicro (.crd 4#6 1#6)).toNat)], regs := [(1, 5), (2, 7), (3, 0x0721), (60, 0x1234), (61, 1), (63, 0x200)] }, cistern := { channels := inService } }),
         0, 4#6, 1#6, by decide +kernel⟩,
   ⟨(st
         { ready with steward := { ops := [{ id := 4, code := 9, ticket := 6, state := 1 }], nextOp := 9, pc := 0x4000, patch := [(0, storeWord (encodeMicro (.cwr 4#6 1#6)).toNat)], regs := [(1, 5), (2, 7), (3, 0x0721), (60, 0x1234), (61, 1), (63, 0x200)] }, cistern := { channels := inService.map fun e => (e.1, { failed := true }) } }),
         0, 4#6, 1#6, by decide +kernel⟩,
   ⟨(st
         { ready with steward := { ops := [{ id := 4, code := 9, ticket := 6, state := 1 }], nextOp := 9, pc := 0x4000, patch := [(0, storeWord (encodeMicro (.cwr 4#6 1#6)).toNat)], regs := [(1, 5), (2, 7), (3, 0x0721), (60, 0x1234), (61, 1), (63, 0x200)] }, cistern := { channels := inService } }),
         0, 4#6, 1#6, by decide +kernel⟩,
   ⟨(st
         { ready with steward := { ops := [{ id := 4, code := 9, ticket := 6, state := 1 }], nextOp := 9, pc := 0x4000, patch := [(0, storeWord (encodeMicro (.rrd 4#6 1#6)).toNat)], regs := [(1, 5), (2, 7), (3, 0x0721), (60, 0x1234), (61, 1), (63, 0x200)], rawRegs := [(5, some 99)] } }),
         0, 4#6, 1#6, by decide +kernel, some 99, by decide +kernel, 99, by decide +kernel⟩,
   ⟨(st
         { ready with steward := { ops := [{ id := 4, code := 9, ticket := 6, state := 1 }], nextOp := 9, pc := 0x4000, patch := [(0, storeWord (encodeMicro (.rrd 4#6 1#6)).toNat)], regs := [(1, 5), (2, 7), (3, 0x0721), (60, 0x1234), (61, 1), (63, 0x200)] } }),
         0, 4#6, 1#6, by decide +kernel, none, by decide +kernel⟩,
   ⟨(st
         { ready with steward := { ops := [{ id := 4, code := 9, ticket := 6, state := 1 }], nextOp := 9, pc := 0x4000, patch := [(0, storeWord (encodeMicro (.rwr 4#6 1#6)).toNat)], regs := [(1, 5), (2, 7), (3, 0x0721), (60, 0x1234), (61, 1), (63, 0x200)] } }),
         0, 4#6, 1#6, by decide +kernel⟩,
   ⟨(st
         { ready with steward := { ops := [{ id := 4, code := 9, ticket := 6, state := 1 }], nextOp := 9, pc := 0x4000, patch := [(0, storeWord (encodeMicro (.relook 4#6 1#6 3#6)).toNat)], regs := [(1, Config.holdAddress 5 9), (3, 0x0721)] }, guard := { holds := [{ stream := 5, seq := 9, frame := { state := 2, stream := some 5, seq := some 9, fv := List.replicate 96 0 }, slots := [] }] } }),
         0, 4#6, 1#6, 3#6, by decide +kernel, (5, 9), ((relookIn
         { ready with guard := { holds := [{ stream := 5, seq := 9, frame := { state := 2, stream := some 5, seq := some 9, fv := List.replicate 96 0 }, slots := [] }] } }
         5 9 1).getD 0), held_first rfl rfl rfl, by decide +kernel⟩,
   ⟨(st
         { ready with steward := { ops := [{ id := 4, code := 9, ticket := 6, state := 1 }], nextOp := 9, pc := 0x4000, patch := [(0, storeWord (encodeMicro (.relook 4#6 1#6 3#6)).toNat)], regs := [(1, 5), (2, 7), (3, 0x0721), (60, 0x1234), (61, 1), (63, 0x200)] } }),
         0, 4#6, 1#6, 3#6, by decide +kernel, fun _ h => nomatch h⟩⟩

theorem witness_MicroWaitsComplete :
    (∃ s : State, ∃ t : Nat, ∃ o : Op,
      let n := now t s; runningOp s.dev = some o ∧ AtWord n .twait) ∧
    (∃ s : State, ∃ t : Nat, ∃ o : Op,
      let n := now t s; runningOp s.dev = some o ∧ AtWord n .cwait) ∧
    (∃ s : State, ∃ t : Nat, ∃ a : BitVec 6, ∃ imm : BitVec 12, ∃ o : Op,
      let n := now t s; runningOp s.dev = some o ∧ AtWord n (.evwait a imm) ∧ imm.toNat / 256 = 0) ∧
    (∃ s : State, ∃ t : Nat, ∃ a : BitVec 6, ∃ imm : BitVec 12, ∃ o : Op,
      let n := now t s; runningOp s.dev = some o ∧ AtWord n (.evwait a imm) ∧ imm.toNat / 256 = 1) ∧
    (∃ s : State, ∃ t : Nat, ∃ a : BitVec 6, ∃ imm : BitVec 12, ∃ o : Op,
      let n := now t s; runningOp s.dev = some o ∧ AtWord n (.evwait a imm) ∧ imm.toNat / 256 = 2) ∧
    (∃ s : State, ∃ t : Nat, ∃ o : Op,
      let n := now t s; runningOp s.dev = some o ∧ AtWord n .poll) ∧
    (∃ s : State, ∃ t : Nat, ∃ a : BitVec 6, ∃ imm : BitVec 12, ∃ o : Op,
      let n := now t s; runningOp s.dev = some o ∧ AtWord n (.fault a imm)) ∧
    (∃ s : State, ∃ t : Nat, ∃ a : BitVec 6, ∃ imm : BitVec 12, ∃ o : Op,
      let n := now t s; runningOp s.dev = some o ∧ AtWord n (.done a imm) ∧ s.dev.pair.mirrorIn = [] ∧ ((o.state = 3 ∨ o.aborting = true) ∧ (o.code =
          9 ∨ o.code = 0x12) ∨ o.state = 1 ∧ o.aborting = false ∧ (imm ≠ 0 ∨ o.code = 0x12))) :=
  ⟨⟨(st
         { ready with steward := { ops := [{ id := 4, code := 9, ticket := 6, state := 1 }], nextOp := 9, pc := 0x4000, patch := [(0, storeWord (encodeMicro (.twait)).toNat)], regs := [(1, 5), (2, 7), (3, 0x0721), (60, 0x1234), (61, 1), (63, 0x200)] } }),
         0, { id := 4, code := 9, ticket := 6, state := 1 }, by decide +kernel⟩,
   ⟨(st
         { ready with steward := { ops := [{ id := 4, code := 9, ticket := 6, state := 1 }], nextOp := 9, pc := 0x4000, patch := [(0, storeWord (encodeMicro (.cwait)).toNat)], regs := [(1, 5), (2, 7), (3, 0x0721), (60, 0x1234), (61, 1), (63, 0x200)] } }),
         0, { id := 4, code := 9, ticket := 6, state := 1 }, by decide +kernel⟩,
   ⟨(st
         { ready with steward := { ops := [{ id := 4, code := 9, ticket := 6, state := 1 }], nextOp := 9, pc := 0x4000, patch := [(0, storeWord (encodeMicro (.evwait 1#6 0x000#12)).toNat)], regs := [(1, 5), (2, 7), (3, 0x0721), (60, 0x1234), (61, 1), (63, 0x200)] } }),
         0, 1#6, 0x000#12, { id := 4, code := 9, ticket := 6, state := 1 }, by decide +kernel⟩,
   ⟨(st
         { ready with steward := { ops := [{ id := 4, code := 9, ticket := 6, state := 1 }], nextOp := 9, pc := 0x4000, patch := [(0, storeWord (encodeMicro (.evwait 1#6 0x101#12)).toNat)], regs := [(1, 5), (2, 7), (3, 0x0721), (60, 0x1234), (61, 1), (63, 0x200)] } }),
         0, 1#6, 0x101#12, { id := 4, code := 9, ticket := 6, state := 1 }, by decide +kernel⟩,
   ⟨(st
         { ready with steward := { ops := [{ id := 4, code := 9, ticket := 6, state := 1 }], nextOp := 9, pc := 0x4000, patch := [(0, storeWord (encodeMicro (.evwait 1#6 0x200#12)).toNat)], regs := [(1, 5), (2, 7), (3, 0x0721), (60, 0x1234), (61, 1), (63, 0x200)] } }),
         0, 1#6, 0x200#12, { id := 4, code := 9, ticket := 6, state := 1 }, by decide +kernel⟩,
   ⟨(st
         { ready with steward := { ops := [{ id := 4, code := 9, ticket := 6, state := 1 }], nextOp := 9, pc := 0x4000, patch := [(0, storeWord (encodeMicro (.poll)).toNat)], regs := [(1, 5), (2, 7), (3, 0x0721), (60, 0x1234), (61, 1), (63, 0x200)] } }),
         0, { id := 4, code := 9, ticket := 6, state := 1 }, by decide +kernel⟩,
   ⟨(st
         { ready with steward := { ops := [{ id := 4, code := 9, ticket := 6, state := 1 }], nextOp := 9, pc := 0x4000, patch := [(0, storeWord (encodeMicro (.fault 4#6 0x123#12)).toNat)], regs := [(1, 5), (2, 7), (3, 0x0721), (60, 0x1234), (61, 1), (63, 0x200)] } }),
         0, 4#6, 0x123#12, { id := 4, code := 9, ticket := 6, state := 1 }, by decide +kernel⟩,
   ⟨(st
         { ready with steward := { ops := [{ id := 4, code := 9, ticket := 6, state := 1 }], nextOp := 9, pc := 0x4000, patch := [(0, storeWord (encodeMicro (.done 4#6 0x123#12)).toNat)], regs := [(1, 5), (2, 7), (3, 0x0721), (60, 0x1234), (61, 1), (63, 0x200)] } }),
         0, 4#6, 0x123#12, { id := 4, code := 9, ticket := 6, state := 1 }, by decide +kernel⟩⟩

theorem witness_MicroWordsDecode :
    ∃ op : BitVec 6, 0x23 ≤ op.toNat :=
  ⟨0x23#6, by decide +kernel⟩

theorem witness_CascadeCommandsComplete :
    (∃ s : State, ∃ c : Cmd,
      let q := c.req;
      let x := s.dev.cascade;
      let fn := boxFn s.dev c.box;
      let moves := u8 q 4 ≠ x.role ∨ u32 q 0 ≠ x.cascadeId; Takes s c 48 ∧ u32 q 0 ≠ 0 ∧ u8 q 4 ≤ 2 ∧ u8 q 5 ≤ 7 ∧ 1 ≤ u8 q 6 ∧ u8 q 6 ≤ 7 ∧ u8 q 7 =
          0 ∧ u32 q 12 = 0 ∧ nameable s.dev fn (u16 q 8) x.noteRing = true ∧ nameable s.dev fn (u16 q 10) x.linkRing = true ∧ (u16 q 8 ≠ u16 q 10 ∨
          u16 q 8 = 0xFFFF) ∧ (moves → x.members = [] ∧ joinedWorker s.dev = false)) ∧
    (∃ s : State, ∃ c : Cmd,
      let q := c.req;
      let x := s.dev.cascade;
      let fn := boxFn s.dev c.box;
      let moves := u8 q 4 ≠ x.role ∨ u32 q 0 ≠ x.cascadeId; Takes s c 48 ∧ u32 q 0 ≠ 0 ∧ u8 q 4 ≤ 2 ∧ u8 q 5 ≤ 7 ∧ 1 ≤ u8 q 6 ∧ u8 q 6 ≤ 7 ∧ u8 q 7 =
          0 ∧ u32 q 12 = 0 ∧ nameable s.dev fn (u16 q 8) x.noteRing = true ∧ nameable s.dev fn (u16 q 10) x.linkRing = true ∧ (u16 q 8 ≠ u16 q 10 ∨
          u16 q 8 = 0xFFFF) ∧ (x.members ≠ [] ∨ joinedWorker s.dev = true) ∧ moves) ∧
    (∃ s : State, ∃ c : Cmd,
      let q := c.req;
      let n := u8 q 0; Takes s c 4 ∧ n ≤ 63 ∧ leAt q 1 3 = 0 ∧ 4 + 20 * n ≤ q.length ∧ (∀ k, k < n → u8 q (20 + 20 * k) ≤ 63 ∧ leAt q (21 + 20 * k) 3
          = 0) ∧ (∀ j k, j < k → k < n → u8 q (20 + 20 * j) = u8 q (20 + 20 * k) → u8 q (20 + 20 * k) = 0)) ∧
    (∃ s : State, ∃ c : Cmd, Takes s c 4 ∧ u32 c.req 0 = 0) ∧
    (∃ s : State, ∃ c : Cmd, Takes s c 4 ∧ leAt c.req 1 3 = 0 ∧ (∃ m ∈ s.dev.cascade.members, m.num = u8 c.req 0)) ∧
    (∃ s : State, ∃ c : Cmd, Takes s c 4 ∧ leAt c.req 1 3 = 0 ∧ (∀ m ∈ s.dev.cascade.members, m.num ≠ u8 c.req 0)) ∧
    (∃ s : State, ∃ c : Cmd, Takes s c 4 ∧ leAt c.req 1 3 = 0 ∧ ∃ m, (s.dev.cascade.members.filter fun m => m.num == u8 c.req 0) = [m] ∧
          s.dev.helm.open_.length < 1024) :=
  ⟨⟨st ready, (rq 48 [(0, le 4 8), (4, le 1 1), (5, le 1 7), (6, le 1 7), (8, le 2 65535), (10, le 2 65535)]), by decide +kernel⟩,
   ⟨(st
         { ready with cascade := { cascadeId := 7, role := 2, own := some 5 }, time := { sources := [{ kind := 4, qualify := 3, port := 0, resolve := 0xFFFF, refAccuracy := 0, asymmetry := 0, domain := 0 }], entry := some 0, src := 4 } }),
         (rq 48 [(0, le 4 8), (4, le 1 0), (5, le 1 7), (6, le 1 7), (8, le 2 65535), (10, le 2 65535)]), by decide +kernel⟩,
   ⟨st ready, (rq 44 [(0, le 1 2), (20, le 1 5), (40, le 1 63)]), by decide +kernel, by decide +kernel, by decide +kernel, by decide +kernel,
         by decide +kernel, pairs_two (by decide +kernel) (by decide +kernel)⟩,
   ⟨st ready, (rq 4 []), by decide +kernel⟩,
   ⟨(st
         { ready with cascade := { cascadeId := 7, role := 1, members := [{ num := 5, unit := 0, serial := List.replicate 16 9, pairId := 0, role := 0, port := 0, statusAt := 0 }] } }),
         (rq 4 [(0, le 1 5)]), by decide +kernel⟩,
   ⟨st ready, (rq 4 [(0, le 1 5)]), by decide +kernel⟩,
   ⟨(st
         { ready with cascade := { cascadeId := 7, role := 1, members := [{ num := 5, unit := 0, serial := List.replicate 16 9, pairId := 0, role := 0, port := 0, statusAt := 0 }] } }),
         (rq 4 [(0, le 1 5)]), by decide +kernel, by decide +kernel,
         ({ num := 5, unit := 0, serial := List.replicate 16 9, pairId := 0, role := 0, port := 0, statusAt := 0 } : Member), by decide +kernel⟩⟩

theorem witness_CascadeMembershipCompletes :
    (∃ s : State, manages s.dev = true ∧ s.dev.helm.state = 1) ∧
    (∃ s : State, ∃ port : Nat, ∃ msg : CMsg, Hears s.dev port msg ∧ s.dev.cascade.role = 2 ∧ s.dev.helm.state = 1 ∧ upstreamPort s.dev = some port ∧
          s.dev.cascade.own = none) ∧
    (∃ s : State, ∃ port : Nat, ∃ msg : CMsg, Hears s.dev port msg ∧ s.dev.cascade.role = 2 ∧ s.dev.helm.state = 1 ∧ upstreamPort s.dev = some port ∧
          s.dev.cascade.own.isSome = true) ∧
    (∃ s : State, ∃ port : Nat, ∃ msg : CMsg, Hears s.dev port { msg with cascadeId := s.dev.cascade.cascadeId } ∧ msg.cascadeId ≠
          s.dev.cascade.cascadeId ∧ s.dev.cascade.role = 2 ∧ s.dev.helm.state = 1 ∧ upstreamPort s.dev = some port ∧ s.dev.cascade.own = none) ∧
    (∃ s : State, ∃ port : Nat, ∃ msg : CMsg, Hears s.dev port { msg with cascadeId := s.dev.cascade.cascadeId } ∧ msg.cascadeId ≠
          s.dev.cascade.cascadeId ∧ s.dev.cascade.role = 2 ∧ s.dev.helm.state = 1 ∧ upstreamPort s.dev = some port ∧ s.dev.cascade.own.isSome = true)
          ∧
    (∃ s : State, ∃ port : Nat, ∃ msg : CMsg, port ∈ fabricPorts s.dev ∧ msg.etherType = 0x88B5 ∧ msg.version = 1 ∧ s.dev.helm.state = 1 ∧ manages
          s.dev = true ∧ beAt msg.body 0 1 = 0) ∧
    (∃ s : State, ∃ port : Nat, ∃ msg : CMsg, ∃ certOk signOk : Bool,
      let serial := slice msg.body 1 16;
      let x := s.dev.cascade; port ∈ fabricPorts s.dev ∧ msg.etherType = 0x88B5 ∧ msg.version = 1 ∧ s.dev.helm.state = 1 ∧ manages s.dev = true ∧ ∃ e,
          beAt msg.body 0 1 ≠ 0 ∧ x.joinParts.find? (fun e => e.1 == serial) = some e ∧
      let b := serial ++ e.2 ++ msg.body.drop 17;
      let whole := { msg with body := b }; ∃ n, joinCause s.dev whole certOk signOk = 0 ∧ assign s.dev (b.take 16) (joinPaired b) (beAt b 20 4) = some
          n) ∧
    (∃ s : State, ∃ port : Nat, ∃ msg : CMsg, ∃ certOk signOk : Bool,
      let serial := slice msg.body 1 16;
      let x := s.dev.cascade; port ∈ fabricPorts s.dev ∧ msg.etherType = 0x88B5 ∧ msg.version = 1 ∧ s.dev.helm.state = 1 ∧ manages s.dev = true ∧ ∃ e,
          beAt msg.body 0 1 ≠ 0 ∧ x.joinParts.find? (fun e => e.1 == serial) = some e ∧
      let b := serial ++ e.2 ++ msg.body.drop 17;
      let whole := { msg with body := b }; joinCause s.dev whole certOk signOk ≠ 0) ∧
    (∃ s : State, ∃ msg : CMsg, manages s.dev = true ∧ msg.cascadeId ≠ s.dev.cascade.cascadeId) ∧
    (∃ s : State, ∃ msg : CMsg, manages s.dev = true ∧ msg.cascadeId = s.dev.cascade.cascadeId) ∧
    (∃ s : State, ∃ msg : CMsg, manages s.dev = true ∧ msg.cascadeId = s.dev.cascade.cascadeId ∧ rootTrusted s.dev = true) ∧
    (∃ s : State, ∃ msg : CMsg, manages s.dev = true ∧ msg.cascadeId = s.dev.cascade.cascadeId ∧ rootTrusted s.dev = true ∧ (msg.body.take 16 ∈
          s.dev.cascade.expelled ∨ s.dev.cascade.open_ = false ∧ ∀ e ∈ s.dev.cascade.allow, e.1 ≠ msg.body.take 16)) ∧
    (∃ s : State, ∃ msg : CMsg, manages s.dev = true ∧ msg.cascadeId = s.dev.cascade.cascadeId ∧ rootTrusted s.dev = true ∧ msg.body.take 16 ∉
          s.dev.cascade.expelled ∧ (s.dev.cascade.open_ = true ∨ ∃ e ∈ s.dev.cascade.allow, e.1 = msg.body.take 16) ∧
      let n := assign s.dev (msg.body.take 16) (joinPaired msg.body) (beAt msg.body 20 4); n = none) ∧
    (∃ s : State, ∃ msg : CMsg, manages s.dev = true ∧ msg.cascadeId = s.dev.cascade.cascadeId ∧ rootTrusted s.dev = true ∧ msg.body.take 16 ∉
          s.dev.cascade.expelled ∧ (s.dev.cascade.open_ = true ∨ ∃ e ∈ s.dev.cascade.allow, e.1 = msg.body.take 16) ∧
      let n := assign s.dev (msg.body.take 16) (joinPaired msg.body) (beAt msg.body 20 4); n.isSome = true ∧ s.dev.cascade.maxHops < beAt msg.body 26
          1) ∧
    (∃ s : State, ∃ msg : CMsg, manages s.dev = true ∧ msg.cascadeId = s.dev.cascade.cascadeId ∧ rootTrusted s.dev = true ∧ msg.body.take 16 ∉
          s.dev.cascade.expelled ∧ (s.dev.cascade.open_ = true ∨ ∃ e ∈ s.dev.cascade.allow, e.1 = msg.body.take 16) ∧
      let n := assign s.dev (msg.body.take 16) (joinPaired msg.body) (beAt msg.body 20 4);
      let same := slice msg.body 16 2 = [0x42, 0x30] ∧ beAt msg.body 18 2 = s.dev.helm.fwRelease; n.isSome = true ∧ beAt msg.body 26 1 ≤
          s.dev.cascade.maxHops ∧ ¬same) ∧
    (∃ s : State, ∃ msg : CMsg, manages s.dev = true ∧ msg.cascadeId = s.dev.cascade.cascadeId ∧ rootTrusted s.dev = true ∧ msg.body.take 16 ∉
          s.dev.cascade.expelled ∧ (s.dev.cascade.open_ = true ∨ ∃ e ∈ s.dev.cascade.allow, e.1 = msg.body.take 16) ∧
      let n := assign s.dev (msg.body.take 16) (joinPaired msg.body) (beAt msg.body 20 4);
      let same := slice msg.body 16 2 = [0x42, 0x30] ∧ beAt msg.body 18 2 = s.dev.helm.fwRelease; n.isSome = true ∧ beAt msg.body 26 1 ≤
          s.dev.cascade.maxHops ∧ same) ∧
    (∃ s : State, ∃ port : Nat, ∃ msg : CMsg, ∃ certOk signOk : Bool, Hears s.dev port msg ∧ s.dev.cascade.role = 2 ∧ s.dev.helm.state = 1 ∧
          s.dev.cascade.answered.isSome = true ∧ slice msg.body 1 16 = (List.range 16).map Config.serial ∧ certOk = true ∧ rootTrusted s.dev = true ∧
          signOk = true) ∧
    (∃ s : State, ∃ port : Nat, ∃ msg : CMsg, ∃ certOk : Bool, Hears s.dev port msg ∧ s.dev.cascade.role = 2 ∧ s.dev.helm.state = 1 ∧
          s.dev.cascade.answered.isSome = true ∧ slice msg.body 1 16 = (List.range 16).map Config.serial ∧ certOk = false) ∧
    (∃ s : State, ∃ port : Nat, ∃ msg : CMsg, ∃ certOk signOk : Bool, Hears s.dev port msg ∧ s.dev.cascade.role = 2 ∧ s.dev.helm.state = 1 ∧
          s.dev.cascade.answered.isSome = true ∧ slice msg.body 1 16 = (List.range 16).map Config.serial ∧ certOk = true ∧ rootTrusted s.dev = true ∧
          signOk = false) ∧
    (∃ s : State, ∃ port : Nat, ∃ msg : CMsg, Hears s.dev port msg ∧ s.dev.cascade.role = 2 ∧ s.dev.helm.state = 1 ∧ s.dev.cascade.answered.isSome =
          true ∧ slice msg.body 1 16 = (List.range 16).map Config.serial) ∧
    (∃ s : State, ∃ port : Nat, ∃ msg : CMsg, Hears s.dev port msg ∧ manages s.dev = true) ∧
    (∃ s : State, ∃ port : Nat, ∃ msg : CMsg, Hears s.dev port msg ∧ ∃ n, s.dev.cascade.role = 2 ∧ s.dev.cascade.own = some n ∧ msg.src = 0) ∧
    (∃ s : State, manages s.dev = true) ∧
    (∃ s : State, ∃ t a : Nat, joinedWorker s.dev = true ∧ s.dev.cascade.contactAt = some a ∧ a + 80000000 ≤ (now t s).clock) :=
  ⟨⟨(st { ready with cascade := { cascadeId := 7, role := 1 }, ports := [(0, { mode := 6, state := 4, flags := 32 })] }), by decide +kernel⟩,
   ⟨(st
         { ready with cascade := { cascadeId := 7, role := 2 }, ports := [(0, { mode := 6, state := 4, flags := 32 })], time := { sources := [{ kind := 4, qualify := 3, port := 0, resolve := 0xFFFF, refAccuracy := 0, asymmetry := 0, domain := 0 }], entry := some 0, src := 4 } }),
         0, { subtype := 0x42, cascadeId := 7, src := 0, srcUnit := 0, dst := 0xFF, dstUnit := 0xFF, seq := 0, body := [] }, by decide +kernel⟩,
   ⟨(st
         { ready with cascade := { cascadeId := 7, role := 2, own := some 5 }, ports := [(0, { mode := 6, state := 4, flags := 32 })], time := { sources := [{ kind := 4, qualify := 3, port := 0, resolve := 0xFFFF, refAccuracy := 0, asymmetry := 0, domain := 0 }], entry := some 0, src := 4 } }),
         0, { subtype := 0x42, cascadeId := 7, src := 0, srcUnit := 0, dst := 0xFF, dstUnit := 0xFF, seq := 0, body := [] }, by decide +kernel⟩,
   ⟨(st
         { ready with cascade := { cascadeId := 7, role := 2 }, ports := [(0, { mode := 6, state := 4, flags := 32 })], time := { sources := [{ kind := 4, qualify := 3, port := 0, resolve := 0xFFFF, refAccuracy := 0, asymmetry := 0, domain := 0 }], entry := some 0, src := 4 } }),
         0, { subtype := 0x42, cascadeId := 8, src := 0, srcUnit := 0, dst := 0xFF, dstUnit := 0xFF, seq := 0, body := [] }, by decide +kernel⟩,
   ⟨(st
         { ready with cascade := { cascadeId := 7, role := 2, own := some 5 }, ports := [(0, { mode := 6, state := 4, flags := 32 })], time := { sources := [{ kind := 4, qualify := 3, port := 0, resolve := 0xFFFF, refAccuracy := 0, asymmetry := 0, domain := 0 }], entry := some 0, src := 4 } }),
         0, { subtype := 0x42, cascadeId := 8, src := 0, srcUnit := 0, dst := 0xFF, dstUnit := 0xFF, seq := 0, body := [] }, by decide +kernel⟩,
   ⟨(st { ready with cascade := { cascadeId := 7, role := 1 }, ports := [(0, { mode := 6, state := 4, flags := 32 })] }), 0,
         { subtype := 0x43, cascadeId := 8, src := 0, srcUnit := 0, dst := 0, dstUnit := 0xFF, seq := 0, body := [] }, by decide +kernel⟩,
   ⟨(st
         { ready with cascade := { cascadeId := 7, role := 1, open_ := true, rootHash := sha256 (certificate 2), joinParts := [(List.replicate 16 9, ([0x42, 0x30] ++ be 2 0x0301 ++ List.replicate 20 0))] }, ports := [(0, { mode := 6, state := 4, flags := 32 })] }),
         0,
         { subtype := 0x43, cascadeId := 7, src := 0xFF, srcUnit := 0, dst := 0, dstUnit := 0xFF, seq := 0, body := ([1] ++ List.replicate 16 9 ++ List.replicate 20 0) },
         true, true, by decide +kernel, by decide +kernel, by decide +kernel, by decide +kernel, by decide +kernel, (List.replicate 16 9, ([0x42,
         0x30] ++ be 2 0x0301 ++ List.replicate 20 0)), by decide +kernel, by decide +kernel, 1, join_ok rfl (trusted_root rfl) (by decide +kernel),
         by decide +kernel⟩,
   ⟨(st
         { ready with cascade := { cascadeId := 7, role := 1, joinParts := [(List.replicate 16 9, ([0x42, 0x30] ++ be 2 0x0301 ++ List.replicate 20 0))] }, ports := [(0, { mode := 6, state := 4, flags := 32 })] }),
         0,
         { subtype := 0x43, cascadeId := 7, src := 0xFF, srcUnit := 0, dst := 0, dstUnit := 0xFF, seq := 0, body := ([1] ++ List.replicate 16 9 ++ List.replicate 20 0) },
         false, true, by decide +kernel, by decide +kernel, by decide +kernel, by decide +kernel, by decide +kernel, (List.replicate 16 9, ([0x42,
         0x30] ++ be 2 0x0301 ++ List.replicate 20 0)), by decide +kernel, by decide +kernel, by decide +kernel⟩,
   ⟨(st { ready with cascade := { cascadeId := 7, role := 1 }, ports := [(0, { mode := 6, state := 4, flags := 32 })] }),
         { subtype := 0x43, cascadeId := 8, src := 0, srcUnit := 0, dst := 0, dstUnit := 0xFF, seq := 0, body := [] }, by decide +kernel⟩,
   ⟨(st { ready with cascade := { cascadeId := 7, role := 1 }, ports := [(0, { mode := 6, state := 4, flags := 32 })] }),
         { subtype := 0x43, cascadeId := 7, src := 0, srcUnit := 0, dst := 0, dstUnit := 0xFF, seq := 0, body := [] }, by decide +kernel⟩,
   ⟨(st
         { ready with cascade := { cascadeId := 7, role := 1, rootHash := sha256 (certificate 2) }, ports := [(0, { mode := 6, state := 4, flags := 32 })] }),
         { subtype := 0x43, cascadeId := 7, src := 0, srcUnit := 0, dst := 0, dstUnit := 0xFF, seq := 0, body := [] }, by decide +kernel,
         by decide +kernel, trusted_root rfl⟩,
   ⟨(st
         { ready with cascade := { cascadeId := 7, role := 1, rootHash := sha256 (certificate 2) }, ports := [(0, { mode := 6, state := 4, flags := 32 })] }),
         { subtype := 0x43, cascadeId := 7, src := 0, srcUnit := 0, dst := 0, dstUnit := 0xFF, seq := 0, body := [] }, by decide +kernel,
         by decide +kernel, trusted_root rfl, by decide +kernel⟩,
   ⟨(st
         { ready with cascade := { cascadeId := 7, role := 1, open_ := true, rootHash := sha256 (certificate 2), members := (List.range 63).map fun k => { num := k + 1, unit := 0, serial := [], pairId := 0, role := 0, port := 0, statusAt := 0 } }, ports := [(0, { mode := 6, state := 4, flags := 32 })] }),
         { subtype := 0x43, cascadeId := 7, src := 0xFF, srcUnit := 0, dst := 0, dstUnit := 0xFF, seq := 0, body := (List.replicate 16 9 ++ [0x42, 0x30] ++ be 2 0x0301 ++ List.replicate 40 0) },
         by decide +kernel, by decide +kernel, trusted_root rfl, by decide +kernel, by decide +kernel, by decide +kernel⟩,
   ⟨(st
         { ready with cascade := { cascadeId := 7, role := 1, open_ := true, rootHash := sha256 (certificate 2), maxHops := 2 }, ports := [(0, { mode := 6, state := 4, flags := 32 })] }),
         { subtype := 0x43, cascadeId := 7, src := 0xFF, srcUnit := 0, dst := 0, dstUnit := 0xFF, seq := 0, body := (List.replicate 16 9 ++ [0x42, 0x30] ++ be 2 0x0301 ++ List.replicate 6 0 ++ [9] ++ List.replicate 30 0) },
         by decide +kernel, by decide +kernel, trusted_root rfl, by decide +kernel, by decide +kernel, by decide +kernel⟩,
   ⟨(st
         { ready with cascade := { cascadeId := 7, role := 1, open_ := true, rootHash := sha256 (certificate 2) }, ports := [(0, { mode := 6, state := 4, flags := 32 })] }),
         { subtype := 0x43, cascadeId := 7, src := 0xFF, srcUnit := 0, dst := 0, dstUnit := 0xFF, seq := 0, body := (List.replicate 16 9 ++ List.replicate 40 0) },
         by decide +kernel, by decide +kernel, trusted_root rfl, by decide +kernel, by decide +kernel, by decide +kernel⟩,
   ⟨(st
         { ready with cascade := { cascadeId := 7, role := 1, open_ := true, rootHash := sha256 (certificate 2) }, ports := [(0, { mode := 6, state := 4, flags := 32 })] }),
         { subtype := 0x43, cascadeId := 7, src := 0xFF, srcUnit := 0, dst := 0, dstUnit := 0xFF, seq := 0, body := (List.replicate 16 9 ++ [0x42, 0x30] ++ be 2 0x0301 ++ List.replicate 40 0) },
         by decide +kernel, by decide +kernel, trusted_root rfl, by decide +kernel, by decide +kernel, by decide +kernel⟩,
   ⟨(st
         { ready with cascade := { cascadeId := 7, role := 2, answered := some ([], []), rootHash := sha256 (certificate 2) }, ports := [(0, { mode := 6, state := 4, flags := 32 })], time := { sources := [{ kind := 4, qualify := 3, port := 0, resolve := 0xFFFF, refAccuracy := 0, asymmetry := 0, domain := 0 }], entry := some 0, src := 4 } }),
         0,
         { subtype := 0x44, cascadeId := 7, src := 0, srcUnit := 0, dst := 0xFF, dstUnit := 0xFF, seq := 0, body := ([5] ++ ((List.range 16).map Config.serial)) },
         true, true, by decide +kernel, by decide +kernel, by decide +kernel, by decide +kernel, rfl, by decide +kernel, trusted_root rfl,
         by decide +kernel⟩,
   ⟨(st
         { ready with cascade := { cascadeId := 7, role := 2, answered := some ([], []) }, ports := [(0, { mode := 6, state := 4, flags := 32 })], time := { sources := [{ kind := 4, qualify := 3, port := 0, resolve := 0xFFFF, refAccuracy := 0, asymmetry := 0, domain := 0 }], entry := some 0, src := 4 } }),
         0,
         { subtype := 0x44, cascadeId := 7, src := 0, srcUnit := 0, dst := 0xFF, dstUnit := 0xFF, seq := 0, body := ([5] ++ ((List.range 16).map Config.serial)) },
         false, by decide +kernel, by decide +kernel, by decide +kernel, by decide +kernel, rfl, by decide +kernel⟩,
   ⟨(st
         { ready with cascade := { cascadeId := 7, role := 2, answered := some ([], []), rootHash := sha256 (certificate 2) }, ports := [(0, { mode := 6, state := 4, flags := 32 })], time := { sources := [{ kind := 4, qualify := 3, port := 0, resolve := 0xFFFF, refAccuracy := 0, asymmetry := 0, domain := 0 }], entry := some 0, src := 4 } }),
         0,
         { subtype := 0x44, cascadeId := 7, src := 0, srcUnit := 0, dst := 0xFF, dstUnit := 0xFF, seq := 0, body := ([5] ++ ((List.range 16).map Config.serial)) },
         true, false, by decide +kernel, by decide +kernel, by decide +kernel, by decide +kernel, rfl, by decide +kernel, trusted_root rfl,
         by decide +kernel⟩,
   ⟨(st
         { ready with cascade := { cascadeId := 7, role := 2, answered := some ([], []) }, ports := [(0, { mode := 6, state := 4, flags := 32 })], time := { sources := [{ kind := 4, qualify := 3, port := 0, resolve := 0xFFFF, refAccuracy := 0, asymmetry := 0, domain := 0 }], entry := some 0, src := 4 } }),
         0,
         { subtype := 0x45, cascadeId := 7, src := 0, srcUnit := 0, dst := 0xFF, dstUnit := 0xFF, seq := 0, body := ([4] ++ ((List.range 16).map Config.serial)) },
         by decide +kernel, by decide +kernel, by decide +kernel, by decide +kernel, rfl⟩,
   ⟨(st
         { ready with cascade := { cascadeId := 7, role := 1, members := [{ num := 5, unit := 0, serial := List.replicate 16 9, pairId := 0, role := 0, port := 0, statusAt := 0 }] }, ports := [(0, { mode := 6, state := 4, flags := 32 })] }),
         0, { subtype := 0x4B, cascadeId := 7, src := 5, srcUnit := 0, dst := 0, dstUnit := 0xFF, seq := 0, body := [] }, by decide +kernel⟩,
   ⟨(st
         { ready with cascade := { cascadeId := 7, role := 2, own := some 5 }, ports := [(0, { mode := 6, state := 4, flags := 32 })], time := { sources := [{ kind := 4, qualify := 3, port := 0, resolve := 0xFFFF, refAccuracy := 0, asymmetry := 0, domain := 0 }], entry := some 0, src := 4 } }),
         0, { subtype := 0x4B, cascadeId := 7, src := 0, srcUnit := 0, dst := 5, dstUnit := 0xFF, seq := 0, body := [] }, by decide +kernel, 5,
         by decide +kernel⟩,
   ⟨(st
         { ready with cascade := { cascadeId := 7, role := 1, members := [{ num := 5, unit := 0, serial := List.replicate 16 9, pairId := 0, role := 0, port := 0, statusAt := 0 }] }, ports := [(0, { mode := 6, state := 4, flags := 32 })] }),
         by decide +kernel⟩,
   ⟨(st
         { ready with cascade := { cascadeId := 7, role := 2, own := some 5, contactAt := some 0 }, ports := [(0, { mode := 6, state := 4, flags := 32 })], time := { sources := [{ kind := 4, qualify := 3, port := 0, resolve := 0xFFFF, refAccuracy := 0, asymmetry := 0, domain := 0 }], entry := some 0, src := 4 } }),
         80000000, 0, by decide +kernel⟩⟩

theorem witness_CascadeTimeCompletes :
    (∃ s : State, manages s.dev = true ∧ fabricPorts s.dev ≠ []) ∧
    (∃ s : State, ∃ h port : Nat,
      let x := s.dev.cascade; x.role = 2 ∧ (beatsInUse s.dev).bind (·.hops) = some h ∧ upstreamPort s.dev = some port ∧ h < x.maxHops) ∧
    (∃ s : State, ∃ h port : Nat,
      let x := s.dev.cascade; x.role = 2 ∧ (beatsInUse s.dev).bind (·.hops) = some h ∧ upstreamPort s.dev = some port ∧ x.maxHops ≤ h) ∧
    (∃ s : State, ∃ port : Nat, ∃ msg : CMsg,
      let b := msg.body; Hears s.dev port msg ∧ s.dev.cascade.role = 2 ∧ (∃ e ∈ s.dev.time.sources, e.kind = 4 ∧ e.port = port) ∧ (beAt b 12 1 ≠ 1 ∨
          upstreamPort s.dev ≠ some port)) ∧
    (∃ s : State, ∃ t port : Nat, ∃ msg : CMsg,
      let b := msg.body; Hears s.dev port msg ∧ s.dev.cascade.role = 2 ∧ (∃ e ∈ s.dev.time.sources, e.kind = 4 ∧ e.port = port) ∧ upstreamPort s.dev =
          some port ∧ beAt b 12 1 = 1 ∧ s.dev.time.src = 4 ∧ s.dev.time.servo = 2 ∧ s.dev.time.step = none ∧ beatNow (now t s) < beAt b 21 8 ∧
          groupsEnabled s.dev = false) ∧
    (∃ s : State, ∃ t port : Nat, ∃ msg : CMsg,
      let b := msg.body; Hears s.dev port msg ∧ s.dev.cascade.role = 2 ∧ (∃ e ∈ s.dev.time.sources, e.kind = 4 ∧ e.port = port) ∧ upstreamPort s.dev =
          some port ∧ beAt b 12 1 = 1 ∧ s.dev.time.src = 4 ∧ s.dev.time.servo = 2 ∧ s.dev.time.step = none ∧ beatNow (now t s) < beAt b 21 8 ∧
          groupsEnabled s.dev = true) ∧
    (∃ s : State, ∃ port : Nat, ∃ msg : CMsg, (∀ e ∈ s.dev.time.sources, e.kind = 4 → e.port ≠ port) ∧ Hears s.dev port msg ∧ s.dev.cascade.role = 2)
          ∧
    (∃ s : State, s.dev.cascade.role = 2) ∧
    (∃ s : State,
      let due := s.dev.cascade.links.filter fun e => decide (16 ≤ e.2.beats) && takesBeats s.dev e.1; s.dev.cascade.role = 2 ∧ due = []) ∧
    (∃ s : State,
      let due := s.dev.cascade.links.filter fun e => decide (16 ≤ e.2.beats) && takesBeats s.dev e.1; s.dev.cascade.role = 2 ∧ ∃ p, ∃ x, due = [(p,
          x)]) ∧
    (∃ s : State, ∃ v : Heard, ∃ n g : Nat,
      let t := v.t;
      let x := s.dev.cascade;
      let h := hearUnits v.units (now t s); manages s.dev = true ∧ x.witness = true ∧ (∃ m ∈ x.members, m.num = n ∧ m.paired = true) ∧ grantOf h n =
          some g) ∧
    (∃ d : Dev, ∃ n : Nat,
      let grant := tget none d.cascade.grants n; ∃ u, grant = none ∧ sendingOf d n = none ∧ (u = 0 ∨ u = 1 ∧ memberAt d n 0 = none) ∧ (memberAt d n
          u).isSome = true) ∧
    (∃ d : Dev, ∃ n : Nat,
      let grant := tget none d.cascade.grants n; ∃ m, grant = none ∧ sendingOf d n = some m) ∧
    (∃ d : Dev, ∃ n : Nat,
      let grant := tget none d.cascade.grants n; ∃ g, ∃ a, ∃ m, ∃ x, grant = some (g, a) ∧ memberAt d n g = some m ∧ sendingOf d n = some x) ∧
    (∃ s : State, ∃ port : Nat, ∃ msg : CMsg, Hears s.dev port msg ∧ joinedWorker s.dev = true) :=
  ⟨⟨(st { ready with cascade := { cascadeId := 7, role := 1 }, ports := [(0, { mode := 6, state := 4, flags := 32 })] }), by decide +kernel⟩,
   ⟨(st
         { ready with cascade := { cascadeId := 7, role := 2, links := [(0, { hops := some 1 })], maxHops := 2 }, ports := [(0, { mode := 6, state := 4, flags := 32 })], time := { sources := [{ kind := 4, qualify := 3, port := 0, resolve := 0xFFFF, refAccuracy := 0, asymmetry := 0, domain := 0 }], entry := some 0, src := 4 } }),
         1, 0, by decide +kernel⟩,
   ⟨(st
         { ready with cascade := { cascadeId := 7, role := 2, links := [(0, { hops := some 1 })], maxHops := 1 }, ports := [(0, { mode := 6, state := 4, flags := 32 })], time := { sources := [{ kind := 4, qualify := 3, port := 0, resolve := 0xFFFF, refAccuracy := 0, asymmetry := 0, domain := 0 }], entry := some 0, src := 4 } }),
         1, 0, by decide +kernel⟩,
   ⟨(st
         { ready with cascade := { cascadeId := 7, role := 2, own := some 5 }, ports := [(0, { mode := 6, state := 4, flags := 32 })], time := { sources := [{ kind := 4, qualify := 3, port := 0, resolve := 0xFFFF, refAccuracy := 0, asymmetry := 0, domain := 0 }], entry := some 0, src := 4 } }),
         0, { subtype := 0x40, cascadeId := 7, src := 0, srcUnit := 0, dst := 0xFF, dstUnit := 0xFF, seq := 0, body := (List.replicate 29 0) },
         by decide +kernel⟩,
   ⟨(st
         { ready with cascade := { cascadeId := 7, role := 2 }, ports := [(0, { mode := 6, state := 4, flags := 32 })], time := { sources := [{ kind := 4, qualify := 3, port := 0, resolve := 0xFFFF, refAccuracy := 0, asymmetry := 0, domain := 0 }], entry := some 0, src := 4, servo := 2 } }),
         0, 0,
         { subtype := 0x40, cascadeId := 7, src := 0, srcUnit := 0, dst := 0xFF, dstUnit := 0xFF, seq := 0, body := (List.replicate 12 0 ++ [1] ++ List.replicate 7 0 ++ [5] ++ List.replicate 7 0 ++ [9]) },
         by decide +kernel⟩,
   ⟨(st
         { ready with cascade := { cascadeId := 7, role := 2 }, ports := [(0, { mode := 6, state := 4, flags := 32 })], time := { sources := [{ kind := 4, qualify := 3, port := 0, resolve := 0xFFFF, refAccuracy := 0, asymmetry := 0, domain := 0 }], entry := some 0, src := 4, servo := 2 }, release := { conf := [(0, { enabled := true })] } }),
         0, 0,
         { subtype := 0x40, cascadeId := 7, src := 0, srcUnit := 0, dst := 0xFF, dstUnit := 0xFF, seq := 0, body := (List.replicate 12 0 ++ [1] ++ List.replicate 7 0 ++ [5] ++ List.replicate 7 0 ++ [9]) },
         by decide +kernel⟩,
   ⟨(st { ready with cascade := { cascadeId := 7, role := 2 }, ports := [(0, { mode := 6, state := 4, flags := 32 })] }), 0,
         { subtype := 0x40, cascadeId := 7, src := 0, srcUnit := 0, dst := 0xFF, dstUnit := 0xFF, seq := 0, body := (List.replicate 29 0) },
         by decide +kernel⟩,
   ⟨(st
         { ready with cascade := { cascadeId := 7, role := 2, links := [(0, { beats := 16 })] }, ports := [(0, { mode := 6, state := 4, flags := 32 })], time := { sources := [{ kind := 4, qualify := 3, port := 0, resolve := 0xFFFF, refAccuracy := 0, asymmetry := 0, domain := 0 }], entry := some 0, src := 4 } }),
         by decide +kernel⟩,
   ⟨(st
         { ready with cascade := { cascadeId := 7, role := 2 }, ports := [(0, { mode := 6, state := 4, flags := 32 })], time := { sources := [{ kind := 4, qualify := 3, port := 0, resolve := 0xFFFF, refAccuracy := 0, asymmetry := 0, domain := 0 }], entry := some 0, src := 4 } }),
         by decide +kernel⟩,
   ⟨(st
         { ready with cascade := { cascadeId := 7, role := 2, links := [(0, { beats := 16 })] }, ports := [(0, { mode := 6, state := 4, flags := 32 })], time := { sources := [{ kind := 4, qualify := 3, port := 0, resolve := 0xFFFF, refAccuracy := 0, asymmetry := 0, domain := 0 }], entry := some 0, src := 4 } }),
         by decide +kernel, 0, ({ beats := 16 } : BeatLink), by decide +kernel⟩,
   ⟨(st
         { ready with cascade := { cascadeId := 7, role := 1, witness := true, members := [{ num := 5, unit := 0, serial := List.replicate 16 9, pairId := 0, role := 0, port := 0, statusAt := 0, paired := true }] }, ports := [(0, { mode := 6, state := 4, flags := 32 })] }),
         { t := 0, units := [(5, 0, true)] }, 5, 0, by decide +kernel⟩,
   ⟨{ ready with cascade := { cascadeId := 7, role := 1, members := [{ num := 5, unit := 0, serial := List.replicate 16 9, pairId := 0, role := 0, port := 0, statusAt := 0, paired := true }] } },
         5, 0, by decide +kernel⟩,
   ⟨{ ready with cascade := { cascadeId := 7, role := 1, members := [{ num := 5, unit := 0, serial := List.replicate 16 9, pairId := 0, role := 0, port := 0, statusAt := 0, paired := true, sentAt := some 0 }] } },
         5,
         ({ num := 5, unit := 0, serial := List.replicate 16 9, pairId := 0, role := 0, port := 0, statusAt := 0, paired := true, sentAt := some 0 } :
         Member), by decide +kernel⟩,
   ⟨{ ready with cascade := { cascadeId := 7, role := 1, members := [{ num := 5, unit := 0, serial := List.replicate 16 9, pairId := 0, role := 0, port := 0, statusAt := 0, paired := true, sentAt := some 0 }], grants := [(5, some (0, 0))] } },
         5, 0, 0,
         ({ num := 5, unit := 0, serial := List.replicate 16 9, pairId := 0, role := 0, port := 0, statusAt := 0, paired := true, sentAt := some 0 } :
         Member),
         ({ num := 5, unit := 0, serial := List.replicate 16 9, pairId := 0, role := 0, port := 0, statusAt := 0, paired := true, sentAt := some 0 } :
         Member), by decide +kernel⟩,
   ⟨(st
         { ready with cascade := { cascadeId := 7, role := 2, own := some 5 }, ports := [(0, { mode := 6, state := 4, flags := 32 })], time := { sources := [{ kind := 4, qualify := 3, port := 0, resolve := 0xFFFF, refAccuracy := 0, asymmetry := 0, domain := 0 }], entry := some 0, src := 4 } }),
         0, { subtype := 0x48, cascadeId := 7, src := 0, srcUnit := 0, dst := 5, dstUnit := 0xFF, seq := 0, body := [1] }, by decide +kernel⟩⟩

theorem witness_CascadeExchangeCompletes :
    (∃ s : State, ∃ port : Nat, ∃ msg : CMsg, ∃ data : Option Snapshot, Hears s.dev port msg ∧ joinedWorker s.dev = true ∧ s.dev.cascade.push = true ∧
          s.dev.helm.state = 1 ∧ sendingUnit s.dev = true ∧ ∃ x, data = some x ∧ (msg.seq = s.dev.cascade.pushNext ∨ seqAfter msg.seq
          s.dev.cascade.pushNext = true)) ∧
    (∃ s : State, ∃ port : Nat, ∃ msg : CMsg, ∃ data : Option Snapshot, Hears s.dev port msg ∧ joinedWorker s.dev = true ∧ s.dev.cascade.push = true ∧
          s.dev.helm.state = 1 ∧ sendingUnit s.dev = true ∧ seqAfter s.dev.cascade.pushNext msg.seq = true ∧ msg.seq ≠ s.dev.cascade.pushNext ∧ (data
          = none ∨ seqAfter msg.seq s.dev.cascade.pushNext = false) ∧ (∀ o ∈ s.dev.steward.ops, o.ack ≠ some (1, msg.seq))) ∧
    (∃ s : State, ∃ port : Nat, ∃ msg : CMsg, Hears s.dev port msg) ∧
    (∃ s : State, (manages s.dev = false ∨ s.dev.helm.state ≠ 1)) ∧
    (∃ s : State, manages s.dev = true ∧ s.dev.helm.state = 1) ∧
    (∃ s : State, joinedWorker s.dev = true) ∧
    (∃ s : State, ∃ p : Nat, joinedWorker s.dev = true ∧ s.dev.helm.state = 1 ∧ upstreamPort s.dev = some p) ∧
    (∃ s : State, ∃ port : Nat, ∃ msg : CMsg, ∃ m : Member,
      let key := msg.src * 256 + msg.srcUnit; Hears s.dev port msg ∧ manages s.dev = true ∧ s.dev.helm.state = 1 ∧ memberAt s.dev msg.src msg.srcUnit
          = some m ∧ (∀ r ∈ s.dev.cascade.resyncs, r.1 ≠ key) ∧ m.outOfStep = false) ∧
    (∃ s : State, ∃ port : Nat, ∃ msg : CMsg, ∃ m : Member,
      let b := msg.body; Hears s.dev port msg ∧ manages s.dev = true ∧ s.dev.helm.state = 1 ∧ memberAt s.dev msg.src msg.srcUnit = some m ∧ slice b 2
          32 = genDigest s.dev 0 ∧ slice b 34 32 = genDigest s.dev 1 ∧ msg.srcUnit < 256) ∧
    (∃ s : State, ∃ port : Nat, ∃ msg : CMsg, ∃ m : Member,
      let key := msg.src * 256 + msg.srcUnit;
      let b := msg.body;
      let role := if m.paired then beAt b 0 1 else 0;
      let sends := m.paired = false ∨ role ≤ 1; Hears s.dev port msg ∧ manages s.dev = true ∧ s.dev.helm.state = 1 ∧ memberAt s.dev msg.src
          msg.srcUnit = some m ∧ (slice b 2 32 ≠ genDigest s.dev 0 ∨ slice b 34 32 ≠ genDigest s.dev 1) ∧ (∃ r ∈ s.dev.cascade.resyncs, r.1 = key) ∧
          beAt b 1 1 ≠ 0 ∧ sends ∧ (∀ u ∈ s.dev.cascade.unacked, u.subtype = 0x46 → u.member ≠ key)) ∧
    (∃ s : State, ∃ port : Nat, ∃ msg : CMsg, ∃ m : Member, Hears s.dev port msg ∧ manages s.dev = true ∧ memberAt s.dev msg.src msg.srcUnit = some m)
          ∧
    (∃ s : State, manages s.dev = true ∧ s.dev.dma.links.length < 65536) :=
  ⟨⟨(st
         { ready with cascade := { cascadeId := 7, role := 2, own := some 5, push := true }, ports := [(0, { mode := 6, state := 4, flags := 32 })], time := { sources := [{ kind := 4, qualify := 3, port := 0, resolve := 0xFFFF, refAccuracy := 0, asymmetry := 0, domain := 0 }], entry := some 0, src := 4 } }),
         0, { subtype := 0x46, cascadeId := 7, src := 0, srcUnit := 0, dst := 5, dstUnit := 0xFF, seq := 0, body := [] }, some snap0,
         by decide +kernel, by decide +kernel, by decide +kernel, by decide +kernel, by decide +kernel, snap0, by decide +kernel⟩,
   ⟨(st
         { ready with cascade := { cascadeId := 7, role := 2, own := some 5, push := true, pushNext := 4 }, ports := [(0, { mode := 6, state := 4, flags := 32 })], time := { sources := [{ kind := 4, qualify := 3, port := 0, resolve := 0xFFFF, refAccuracy := 0, asymmetry := 0, domain := 0 }], entry := some 0, src := 4 } }),
         0, { subtype := 0x46, cascadeId := 7, src := 0, srcUnit := 0, dst := 5, dstUnit := 0xFF, seq := 3, body := [] }, none, by decide +kernel⟩,
   ⟨(st
         { ready with cascade := { cascadeId := 7, role := 1, unacked := [{ subtype := 0x46, seq := 3, body := [1], sentAt := 0, firstAt := 0, member := 1280 }] }, ports := [(0, { mode := 6, state := 4, flags := 32 })] }),
         0, { subtype := 0x47, cascadeId := 7, src := 5, srcUnit := 0, dst := 0, dstUnit := 0xFF, seq := 0, body := (be 2 0x46 ++ be 4 3) },
         by decide +kernel⟩,
   ⟨st ready, by decide +kernel⟩,
   ⟨(st
         { ready with cascade := { cascadeId := 7, role := 1, unacked := [{ subtype := 0x46, seq := 3, body := [1], sentAt := 0, firstAt := 0, member := 1280 }], members := [{ num := 5, unit := 0, serial := List.replicate 16 9, pairId := 0, role := 0, port := 0, statusAt := 0 }] }, ports := [(0, { mode := 6, state := 4, flags := 32 })] }),
         by decide +kernel⟩,
   ⟨(st
         { ready with cascade := { cascadeId := 7, role := 2, own := some 5, unacked := [{ subtype := 0x4A, seq := 3, body := [1], sentAt := 0, firstAt := 0, member := 1280 }] }, ports := [(0, { mode := 6, state := 4, flags := 32 })], time := { sources := [{ kind := 4, qualify := 3, port := 0, resolve := 0xFFFF, refAccuracy := 0, asymmetry := 0, domain := 0 }], entry := some 0, src := 4 } }),
         by decide +kernel⟩,
   ⟨(st
         { ready with cascade := { cascadeId := 7, role := 2, own := some 5 }, ports := [(0, { mode := 6, state := 4, flags := 32 })], time := { sources := [{ kind := 4, qualify := 3, port := 0, resolve := 0xFFFF, refAccuracy := 0, asymmetry := 0, domain := 0 }], entry := some 0, src := 4 } }),
         0, by decide +kernel⟩,
   ⟨(st
         { ready with cascade := { cascadeId := 7, role := 1, members := [{ num := 5, unit := 0, serial := List.replicate 16 9, pairId := 0, role := 0, port := 0, statusAt := 0 }] }, ports := [(0, { mode := 6, state := 4, flags := 32 })] }),
         0, { subtype := 0x49, cascadeId := 7, src := 5, srcUnit := 0, dst := 0, dstUnit := 0xFF, seq := 0, body := [1, 1] },
         { num := 5, unit := 0, serial := List.replicate 16 9, pairId := 0, role := 0, port := 0, statusAt := 0 }, by decide +kernel⟩,
   ⟨(st
         { ready with cascade := { cascadeId := 7, role := 1, members := [{ num := 5, unit := 0, serial := List.replicate 16 9, pairId := 0, role := 0, port := 0, statusAt := 0 }] }, ports := [(0, { mode := 6, state := 4, flags := 32 })] }),
         0,
         { subtype := 0x49, cascadeId := 7, src := 5, srcUnit := 0, dst := 0, dstUnit := 0xFF, seq := 0, body := ([1, 1] ++ genDigest (st { ready with cascade := { cascadeId := 7, role := 1, members := [{ num := 5, unit := 0, serial := List.replicate 16 9, pairId := 0, role := 0, port := 0, statusAt := 0 }] }, ports := [(0, { mode := 6, state := 4, flags := 32 })] }).dev 0 ++ genDigest (st { ready with cascade := { cascadeId := 7, role := 1, members := [{ num := 5, unit := 0, serial := List.replicate 16 9, pairId := 0, role := 0, port := 0, statusAt := 0 }] }, ports := [(0, { mode := 6, state := 4, flags := 32 })] }).dev 1) },
         { num := 5, unit := 0, serial := List.replicate 16 9, pairId := 0, role := 0, port := 0, statusAt := 0 }, by decide +kernel,
         by decide +kernel, by decide +kernel, by decide +kernel, slice_first (sha256_length _), slice_second (sha256_length _) (sha256_length _),
         by decide +kernel⟩,
   ⟨(st
         { ready with cascade := { cascadeId := 7, role := 1, members := [{ num := 5, unit := 0, serial := List.replicate 16 9, pairId := 0, role := 0, port := 0, statusAt := 0 }], resyncs := [(1280, 0)] }, ports := [(0, { mode := 6, state := 4, flags := 32 })] }),
         0,
         { subtype := 0x49, cascadeId := 7, src := 5, srcUnit := 0, dst := 0, dstUnit := 0xFF, seq := 0, body := ([1, 1] ++ (genDigest (st { ready with cascade := { cascadeId := 7, role := 1, members := [{ num := 5, unit := 0, serial := List.replicate 16 9, pairId := 0, role := 0, port := 0, statusAt := 0 }], resyncs := [(1280, 0)] }, ports := [(0, { mode := 6, state := 4, flags := 32 })] }).dev 0).map (~~~ ·) ++ []) },
         { num := 5, unit := 0, serial := List.replicate 16 9, pairId := 0, role := 0, port := 0, statusAt := 0 }, by decide +kernel,
         by decide +kernel, by decide +kernel, by decide +kernel, Or.inl (slice_not (sha256_length _)), by decide +kernel⟩,
   ⟨(st
         { ready with cascade := { cascadeId := 7, role := 1, members := [{ num := 5, unit := 0, serial := List.replicate 16 9, pairId := 0, role := 0, port := 0, statusAt := 0 }] }, ports := [(0, { mode := 6, state := 4, flags := 32 })] }),
         0, { subtype := 0x4A, cascadeId := 7, src := 5, srcUnit := 0, dst := 0, dstUnit := 0xFF, seq := 0, body := [1] },
         { num := 5, unit := 0, serial := List.replicate 16 9, pairId := 0, role := 0, port := 0, statusAt := 0 }, by decide +kernel⟩,
   ⟨(st { ready with cascade := { cascadeId := 7, role := 1, linkRing := some 3 }, ports := [(0, { mode := 6, state := 4, flags := 32 })] }),
         by decide +kernel⟩⟩

theorem witness_PowerCommandsComplete :
    (∃ s : State, ∃ c : Cmd, ∃ u : Nat,
      let q := c.req; Takes s c 4 ∧ unitNamed (u8 q 0) (u8 q 1) = some u ∧ u8 q 2 ≤ 5 ∧ (u = 72 → u8 q 2 = 0 ∨ u8 q 2 = 4) ∧ u8 q 3 ≤ 1 ∧ stepConflict
          s.dev u (u8 q 2) = false ∧ s.dev.helm.open_.length < 1024) ∧
    (∃ s : State, ∃ c : Cmd, ∃ u : Nat,
      let q := c.req; Takes s c 4 ∧ unitNamed (u8 q 0) (u8 q 1) = some u ∧ u8 q 2 ≤ 5 ∧ (u = 72 → u8 q 2 = 0 ∨ u8 q 2 = 4) ∧ u8 q 3 ≤ 1 ∧ stepConflict
          s.dev u (u8 q 2) = true) ∧
    (∃ s : State, ∃ c : Cmd,
      let q := c.req;
      let i := u16 q 2; Takes s c 4 ∧ u8 q 1 ≤ 1 ∧ u8 q 0 ≤ 1 ∧ i = 0 ∧ s.dev.power.tripAt = none ∧ (u8 q 0 = 1 → s.dev.power.warm = false)) ∧
    (∃ s : State, ∃ c : Cmd,
      let q := c.req;
      let i := u16 q 2; Takes s c 4 ∧ u8 q 1 ≤ 1 ∧ u8 q 0 = 2 ∧ i ≤ 7 ∧ guardedBasin s.dev i = false ∧ s.dev.helm.open_.length < 1024) ∧
    (∃ s : State, ∃ c : Cmd,
      let q := c.req;
      let i := u16 q 2; Takes s c 4 ∧ u8 q 1 ≤ 1 ∧ u8 q 0 = 2 ∧ i ≤ 7 ∧ guardedBasin s.dev i = true ∧ u8 q 1 = 1 ∧ s.dev.helm.open_.length < 1024) ∧
    (∃ s : State, ∃ c : Cmd,
      let q := c.req;
      let i := u16 q 2; Takes s c 4 ∧ u8 q 1 ≤ 1 ∧ u8 q 0 = 2 ∧ i ≤ 7 ∧ guardedBasin s.dev i = true ∧ u8 q 1 = 0) ∧
    (∃ s : State, ∃ c : Cmd,
      let q := c.req;
      let i := u16 q 2; Takes s c 4 ∧ u8 q 1 ≤ 1 ∧ u8 q 0 = 3 ∧ portUnused s.dev i = false ∧ (portOf s.dev i).drain = none ∧ guardedPort s.dev i =
          false ∧ s.dev.helm.open_.length < 1024) ∧
    (∃ s : State, ∃ c : Cmd,
      let q := c.req;
      let i := u16 q 2; Takes s c 4 ∧ u8 q 1 ≤ 1 ∧ u8 q 0 = 3 ∧ portUnused s.dev i = false ∧ (portOf s.dev i).drain = none ∧ guardedPort s.dev i =
          true ∧ u8 q 1 = 1 ∧ s.dev.helm.open_.length < 1024) ∧
    (∃ s : State, ∃ c : Cmd,
      let q := c.req;
      let i := u16 q 2; Takes s c 4 ∧ u8 q 1 ≤ 1 ∧ u8 q 0 = 3 ∧ portUnused s.dev i = false ∧ (portOf s.dev i).drain = none ∧ guardedPort s.dev i =
          true ∧ u8 q 1 = 0) ∧
    (∃ s : State, ∃ c : Cmd,
      let q := c.req; Takes s c 4 ∧ u8 q 0 ≤ 1 ∧ leAt q 1 3 = 0 ∧ s.dev.power.bringup = true) ∧
    (∃ s : State, ∃ c : Cmd,
      let q := c.req; Takes s c 4 ∧ u8 q 0 ≤ 1 ∧ leAt q 1 3 = 0 ∧ s.dev.power.bringup = false) :=
  ⟨⟨st ready, (rq 4 [(0, le 1 1), (1, le 1 7), (2, le 1 5)]), 71, by decide +kernel⟩,
   ⟨(st { ready with ports := [(0, { mode := 2, state := 4 })] }), (rq 4 [(0, le 1 0), (1, le 1 0), (2, le 1 2)]), 0, by decide +kernel⟩,
   ⟨st ready, (rq 4 []), by decide +kernel⟩,
   ⟨st ready, (rq 4 [(0, le 1 2), (2, le 2 7)]), by decide +kernel⟩,
   ⟨(st { ready with guard := { streams := [(5, { slots := [{ port := 0, queue := 0, lastSent := 0 }], ingress := 0 })] } }), (rq 4 [(0, le 1 2), (1,
         le 1 1)]), by decide +kernel⟩,
   ⟨(st { ready with guard := { streams := [(5, { slots := [{ port := 0, queue := 0, lastSent := 0 }], ingress := 0 })] } }), (rq 4 [(0, le 1 2)]),
         by decide +kernel⟩,
   ⟨(st { ready with ports := [(0, { mode := 2, state := 4 })] }), (rq 4 [(0, le 1 3)]), by decide +kernel⟩,
   ⟨(st
         { ready with ports := [(0, { mode := 2, state := 4 })], guard := { streams := [(5, { slots := [{ port := 0, queue := 0, lastSent := 0 }], ingress := 0 })] } }),
         (rq 4 [(0, le 1 3), (1, le 1 1)]), by decide +kernel⟩,
   ⟨(st
         { ready with ports := [(0, { mode := 2, state := 4 })], guard := { streams := [(5, { slots := [{ port := 0, queue := 0, lastSent := 0 }], ingress := 0 })] } }),
         (rq 4 [(0, le 1 3)]), by decide +kernel⟩,
   ⟨(st { ready with power := { bringup := true } }), (rq 4 []), by decide +kernel⟩,
   ⟨st ready, (rq 4 [(0, le 1 1)]), by decide +kernel⟩⟩

theorem witness_ResetsComplete :
    (∃ s : State, ∃ t : Nat, resetDue (now t s) 0 = true) ∧
    (∃ s : State, ∃ t : Nat, resetDue (now t s) 1 = true ∧ s.dev.power.tripAt = none ∧ s.dev.power.resetFreeze = none) ∧
    (∃ s : State, ∃ t : Nat, resetDue (now t s) 1 = true ∧ s.dev.power.tripAt = none ∧ ∃ a, s.dev.power.resetFreeze = some a ∧ (now t s).clock < a +
          1600000) ∧
    (∃ s : State, ∃ t a : Nat, resetDue (now t s) 1 = true ∧ s.dev.power.tripAt = none ∧ s.dev.power.resetFreeze = some a ∧ a + 1600000 ≤ (now t
          s).clock) ∧
    (∃ s : State, s.dev.power.vin = false) ∧
    (∃ s : State, s.dev.power.held = true ∧ s.dev.power.vin = true ∧ s.dev.power.groupsUp < 4) ∧
    (∃ s : State, s.dev.power.held = true ∧ s.dev.power.vin = true ∧ s.dev.power.groupsUp = 4) ∧
    (∃ s : State, s.dev.power.held = false) ∧
    (∃ s : State, ∃ reads other : Bool,
      let m := s.dev.helm.marked % 2; s.dev.helm.state = 0 ∧ s.dev.power.held = false ∧ ((bankOf s.dev m).image = none ∨ reads = false) ∧ ((bankOf
          s.dev (1 - m)).image = none ∨ other = false)) ∧
    (∃ s : State, s.dev.power.warm = true ∧ (∀ o ∈ s.dev.steward.ops, o.code ≠ 0x0D)) ∧
    (∃ s : State, ∃ b n : Nat, s.dev.power.resets = [(2, b, n)] ∧ b < 8) ∧
    (∃ s : State, ∃ p n : Nat, s.dev.power.resets = [(3, p, n)]) :=
  ⟨⟨(st { ready with power := { asked := [(0, 0)] } }), 16000000, by decide +kernel⟩,
   ⟨(st { ready with power := { asked := [(1, 0)] }, cistern := { mem := [(5, 7)] } }), 16000000, by decide +kernel⟩,
   ⟨(st { ready with power := { asked := [(1, 0)], resetFreeze := some 15000000 } }), 16000000, by decide +kernel, by decide +kernel, 15000000,
         by decide +kernel⟩,
   ⟨(st { ready with power := { asked := [(1, 0)], resetFreeze := some 0 }, cistern := { mem := [(5, 7)] } }), 16000000, 0, by decide +kernel⟩,
   ⟨(st { ready with power := { vin := false } }), by decide +kernel⟩,
   ⟨(st { ready with power := { held := true, groupsUp := 3 } }), by decide +kernel⟩,
   ⟨(st { ready with power := { held := true } }), by decide +kernel⟩,
   ⟨st ready, by decide +kernel⟩,
   ⟨{}, true, true, by decide +kernel⟩,
   ⟨(st { ready with power := { warm := true } }), by decide +kernel⟩,
   ⟨(st { ready with power := { resets := [(2, 3, 1)] } }), 3, 1, by decide +kernel⟩,
   ⟨(st { ready with power := { resets := [(3, 0, 1)] }, ports := [(0, { mode := 2, state := 4 })] }), 0, 1, by decide +kernel⟩⟩

theorem witness_PowerEventsComplete :
    (∃ s : State, ∃ t a : Nat, s.dev.power.tripAt = some a ∧ s.dev.power.tripped = false ∧ a + 16000000 ≤ (now t s).clock) ∧
    (∃ s : State, ∃ u : Nat,
      let x := unitOf s.dev u; u ≤ 72 ∧ ((64 ≤ u ∧ u ≤ 71 ∧ x.commanded < 4) → (unitOf s.dev 72).step = 0) ∧ (u = 72 → x.commanded = 4 → x.step ≠ 4 →
          writersBusy s.dev = false)) ∧
    (∃ s : State,
      let x := unitOf s.dev 72; x.commanded = 4 ∧ x.step ≠ 4 ∧ writersBusy s.dev = true) ∧
    (∃ s : State, ∃ t u : Nat,
      let x := unitOf s.dev u; u < 72 ∧ x.autoRipple = true ∧ x.commanded = 0 ∧ x.step = 0 ∧ x.workAt + 3200 ≤ (now t s).clock ∧ rippleBarred s.dev u
          = false ∧ unitBusy s.dev u = false) ∧
    (∃ s : State, ∃ t u : Nat,
      let x := unitOf s.dev u; u < 72 ∧ x.autoRipple = true ∧ x.commanded = 0 ∧ x.step = 0 ∧ x.workAt + 3200 ≤ (now t s).clock ∧ (rippleBarred s.dev u
          = true ∨ unitBusy s.dev u = true)) ∧
    (∃ s : State, ∃ u : Nat,
      let x := unitOf s.dev u; (u < 72 ∧ x.step = 1 ∧ x.commanded = 0 ∨ 64 ≤ u ∧ u ≤ 71 ∧ 2 ≤ x.step ∧ x.step ≤ 4)) ∧
    (∃ s : State, ∃ t u : Nat,
      let x := unitOf s.dev u; 64 ≤ u ∧ u ≤ 71 ∧ x.step = 0 ∧ 2 ≤ x.commanded ∧ x.commanded ≤ 4 ∧ x.tickets = [] ∧ x.workAt + 16000 ≤ (now t s).clock
          ∧ unitBusy s.dev u = false) ∧
    (∃ s : State,
      let x := unitOf s.dev 72; x.step = 4) ∧
    (∃ s : State, ∃ t : Nat,
      let x := unitOf s.dev 72; x.step = 0 ∧ x.commanded = 4 ∧ x.tickets = [] ∧ x.workAt + 160000 ≤ (now t s).clock ∧ s.dev.cistern.askedAt + 160000 ≤
          (now t s).clock ∧ writersBusy s.dev = false) :=
  ⟨⟨(st { ready with power := { tripAt := some 0 } }), 16000000, 0, by decide +kernel⟩,
   ⟨(st { ready with power := { units := [(72, { commanded := 4 })] } }), 72, by decide +kernel⟩,
   ⟨(st { ready with power := { units := [(72, { commanded := 4 })] }, ledger := { queue := [{ source := 1, bytes := [1, 2, 3] }] } }),
         by decide +kernel⟩,
   ⟨(st { ready with power := { units := [(3, { autoRipple := true })] } }), 3200, 3, by decide +kernel⟩,
   ⟨(st { ready with power := { units := [(0, { autoRipple := true })] }, ports := [(0, { mode := 2, state := 4, flags := 2 })] }), 3200, 0,
         by decide +kernel⟩,
   ⟨(st { ready with power := { units := [(64, { step := 4, commanded := 4 })] } }), 64, by decide +kernel⟩,
   ⟨(st { ready with power := { units := [(64, { commanded := 4 })] } }), 16000, 64, by decide +kernel⟩,
   ⟨(st { ready with power := { units := [(72, { step := 4 })] } }), by decide +kernel⟩,
   ⟨(st { ready with power := { units := [(72, { commanded := 4 })] } }), 160000, by decide +kernel⟩⟩

theorem witness_RegisterWriteCompletes :
    (∃ s : State, ∃ m : Nat, m < 16 ∧ s.dev.helm.bifurcated = false) ∧
    (∃ s : State, ∃ m : Nat, m < 16 ∧ s.dev.helm.bifurcated = false ∧ ∃ w, w < 1024) ∧
    (∃ s : State, ∃ r, r < 2048 ∧ ((ringOf s.dev r).state = 0 ∨ (ringOf s.dev r).fn = 0)) ∧
    (∃ s : State, ∃ k, k < 64 ∧ ((cqOf s.dev k).enabled = false ∨ (cqOf s.dev k).fn = 0) ∧ (∀ e ∈ s.dev.dma.rings, e.2.state ≠ 5)) ∧
    (∃ fn, ∃ off, (off < 0x1000 ∨ off % 4 ≠ 0 ∨ 0x504000 ≤ off ∨ 2 ≤ fn)) :=
  ⟨⟨st ready, 15, by decide +kernel⟩,
   ⟨st ready, 15, by decide +kernel, by decide +kernel, 1023, by decide +kernel⟩,
   ⟨st ready, 2047, by decide +kernel⟩,
   ⟨st ready, 63, by decide +kernel⟩,
   ⟨0, 0x0FFC, by decide +kernel⟩⟩

theorem witness_CisternWrite :
    (∃ d : Dev, Memory.wf d.cistern.mem = true) ∧
    (∃ bs : List Byte, ∃ k, k < bs.length) ∧
    (∃ addr : Nat, ∃ bs : List Byte, ∃ a, (a < addr ∨ addr + bs.length ≤ a)) ∧
    (∃ addr : Nat, ∃ bs : List Byte, ∃ w, addr ≤ 8 * w ∧ 8 * w + 8 ≤ addr + bs.length) ∧
    (∃ d : Dev, ∃ a, a < usableBytes ∧ tget 0 d.cistern.flips (a / 8) = 0) ∧
    (∃ d : Dev, ∃ a, a < usableBytes ∧ tget 0 d.cistern.flips (a / 8) = 0 ∧ ∃ j, j < 2) :=
  ⟨⟨ready, by decide +kernel⟩,
   ⟨[1], 0, by decide +kernel⟩,
   ⟨3, [1], 4, by decide +kernel⟩,
   ⟨0, List.replicate 8 1, 0, by decide +kernel⟩,
   ⟨ready, 4, by decide +kernel⟩,
   ⟨ready, 4, by decide +kernel, by decide +kernel, 1, by decide +kernel⟩⟩

theorem witness_CisternStaysCanonical :
    ∃ s : State, ∃ s' : State, Memory.wf s.dev.cistern.mem = true ∧ step s = .next s' :=
  ⟨{ pending := [.perstDeassert 0] }, {}, by decide +kernel, rfl⟩

theorem witness_EventConfigureRule :
    (∃ s : State, ∃ c : Cmd, Takes s c 4 ∧ u16 c.req 2 = 0 ∧ nameable s.dev (boxFn s.dev c.box) (u16 c.req 0) (fnOf s.dev (boxFn s.dev c.box)).evRing
          = true) ∧
    (∃ s : State, ∃ c : Cmd, Takes s c 4 ∧ u16 c.req 0 ≠ 0xFFFF ∧ (1024 ≤ u16 c.req 0 ∨ (ringOf s.dev (u16 c.req 0)).kind ≠ 0 ∨ (ringOf s.dev (u16
          c.req 0)).fn ≠ boxFn s.dev c.box)) ∧
    (∃ d : Dev, ∃ f : Nat, (fnOf d f).evRing = none) :=
  ⟨⟨st ready, (rq 4 [(0, le 2 65535)]), by decide +kernel⟩,
   ⟨st ready, (rq 4 [(0, le 2 1024)]), by decide +kernel⟩,
   ⟨ready, 0, by decide +kernel⟩⟩

theorem witness_TicketStatusRule :
    (∃ s : State, ∃ c : Cmd,
      let n := u32 c.req 0; Takes s c 4 ∧ ∃ x : DoneTicket, (s.dev.helm.done.find? fun x => x.num == n) = some x) ∧
    (∃ s : State, ∃ c : Cmd,
      let n := u32 c.req 0; Takes s c 4 ∧ (∀ x ∈ s.dev.helm.done, x.num ≠ n) ∧ (∃ x ∈ s.dev.helm.open_, x.num = n)) ∧
    (∃ s : State, ∃ c : Cmd,
      let n := u32 c.req 0; Takes s c 4 ∧ (∀ x ∈ s.dev.helm.done, x.num ≠ n) ∧ (∀ x ∈ s.dev.helm.open_, x.num ≠ n)) :=
  ⟨⟨(st { ready with helm := { state := 1, fwRelease := 0x0301, done := [{ num := 7, bytes := List.replicate 32 5 }] } }), (rq 4 [(0, le 4 7)]),
         by decide +kernel, { num := 7, bytes := List.replicate 32 5 }, by decide +kernel⟩,
   ⟨(st { ready with helm := { state := 1, fwRelease := 0x0301, open_ := [{ num := 7, fn := 0 }] } }), (rq 4 [(0, le 4 7)]), by decide +kernel⟩,
   ⟨st ready, (rq 4 [(0, le 4 7)]), by decide +kernel⟩⟩

theorem witness_CollectorThresholdRule :
    (∃ s : State, ∃ c : Cmd,
      let k := u8 c.req 0;
      let n := u8 c.req 1;
      let w := u32 c.req 4; Takes s c 8 ∧ k ≤ 15 ∧ n ≠ 0 ∧ u16 c.req 2 = 0 ∧ 1 ≤ w ∧ w ≤ 10000000) ∧
    (∃ s : State, ∃ c : Cmd,
      let k := u8 c.req 0;
      let n := u8 c.req 1;
      let w := u32 c.req 4; Takes s c 8 ∧ (15 < k ∨ n = 0 ∨ u16 c.req 2 ≠ 0 ∨ w = 0 ∨ 10000000 < w)) :=
  ⟨⟨st ready, (rq 8 [(0, le 1 15), (1, le 1 255), (4, le 4 10000000)]), by decide +kernel⟩,
   ⟨st ready, (rq 8 [(0, le 1 15), (1, le 1 255), (4, le 4 10000001)]), by decide +kernel⟩⟩

theorem witness_ColourMapRule :
    (∃ s : State, ∃ c : Cmd, Takes s c 16 ∧ (∀ k < 64, bitsOf (byteAt c.req (k / 4)) (2 * (k % 4) + 1) (2 * (k % 4)) ≠ 3)) ∧
    (∃ s : State, ∃ c : Cmd, Takes s c 16 ∧ (∃ k < 64, bitsOf (byteAt c.req (k / 4)) (2 * (k % 4) + 1) (2 * (k % 4)) = 3)) ∧
    (∃ p : Policer, ∃ fv : List Byte, ∃ b : List Byte, ∃ o : Nat, ∃ v4 : Bool, p.mode = 2 ∧ p.src = 1 ∧ ipHeader fv b = some (o, v4)) :=
  ⟨⟨st ready, (rq 16 [(0, le 1 36), (15, le 1 128)]), by decide +kernel⟩,
   ⟨st ready, (rq 16 [(15, le 1 192)]), by decide +kernel⟩,
   ⟨{ mode := 2, src := 1 }, (overwrite (List.replicate 96 0) 6 [14, 0, 0, 0, 1]), (List.replicate 14 0 ++ [0x45, 0xB8] ++ List.replicate 44 0), 14,
         true, by decide +kernel⟩⟩

theorem witness_MatchRegistersRule :
    (∃ d : Dev, ∃ k : Nat,
      let reg := fun j => tget 0 d.steward.matches_ j;
      let hit := fun j => bitOf (reg j) 23 = true ∧ bitsOf (reg j) 13 0 = d.steward.pc; d.steward.pc < 0x4000 ∧ k < 32 ∧ hit k ∧ (∀ j < k, ¬ hit j)) ∧
    (∃ d : Dev, d.steward.pc < 0x4000 ∧ (∀ j < 32, ¬ (bitOf (tget 0 d.steward.matches_ j) 23 = true ∧ bitsOf (tget 0 d.steward.matches_ j) 13 0 =
          d.steward.pc))) ∧
    (∃ d : Dev, 0x4000 ≤ d.steward.pc) ∧
    (∃ s : State, ∃ t : Nat, AtWord (now t s) .nop) :=
  ⟨⟨{ ready with steward := { pc := 0x100, matches_ := [(3, 0x800100), (31, 0x814100)] } }, 3, by decide +kernel⟩,
   ⟨{ ready with steward := { pc := 0x101, matches_ := [(3, 0x800100)] } }, by decide +kernel⟩,
   ⟨{ ready with steward := { pc := 0x4000, matches_ := [] } }, by decide +kernel⟩,
   ⟨(st
         { ready with steward := { ops := [{ id := 4, code := 9, ticket := 6, state := 1 }], nextOp := 9, pc := 0x4000, patch := [(0, storeWord (encodeMicro (.nop)).toNat)], regs := [(1, 5), (2, 7), (3, 0x0721), (60, 0x1234), (61, 1), (63, 0x200)] } }),
         0, by decide +kernel⟩⟩

theorem witness_FirstLaneRule :
    ∃ s : State, ∃ c : Cmd, ∃ speed lanes : Nat, ∃ r : Nat, ∃ fecs : List Nat, Takes s c 24 ∧ s.dev.power.bringup = true ∧ modeInfo (u8 c.req 2) =
          some (speed, lanes, r, fecs) ∧ aligned (u16 c.req 0) lanes = false :=
  ⟨(st { ready with power := { bringup := true } }), (rq 24 [(0, le 2 4), (2, le 1 11)]), 800, 8, 1062500, [3], by decide +kernel⟩

end Sys2Proof.Tests
end

section
/-!
SUPPORT. A mailbox command that its body turns away: what it answers, and that it leaves the rest of the device as it was (R14).
-/

namespace Sys2Proof.Machine

/-- The doorbell of a command moves time to its instant and changes no part of the device but the mailboxes (R411). -/
theorem begun_frame (op : Nat) (c : Cmd) (s : State) :
    ({ begun op c s.dev with boxes := [], out := [] } : Dev) = { now c.t s with boxes := [], out := [] } := rfl

/-- R14: a command that its mailbox takes and its body turns away answers the status alone, and nothing but the mailbox and what the device
has sent differs from the device at that instant. -/
theorem cmd_rejected {s : State} {c : Cmd} {op minLen respLen status : Nat} {body : List Byte → Nat → Dev → Reply} (h : Takes s c minLen)
    (hrej : body c.req (boxFn s.dev c.box) (begun op c s.dev) = rej status (begun op c s.dev)) :
    ∃ d, cmd op minLen respLen c body s = .next { s with dev := d } ∧ Answers d c status respLen []
      ∧ ({ d with boxes := [], out := [] } : Dev) = { now c.t s with boxes := [], out := [] } := by
  refine ⟨respond c.box respLen (rej status (begun op c s.dev)), ?_, answers_respond c respLen _, ?_⟩
  · simp only [cmd_takes h, hrej, rej, ite_self]
  · exact (respond_only ..).trans (begun_frame op c s)

end Sys2Proof.Machine
end

section
/-!
PROOF. Where a Port may start in its Nozzle, and the mode that its first lane does not allow (R20, R63).
-/

namespace Sys2Proof.Machine

theorem aligned_iff (p lanes : Nat) : aligned p lanes = true ↔ p % lanes = 0 := by simp [aligned]

/-- R63, R20: the lanes of its Nozzle on which a Port of each lane count may start. -/
theorem aligned_starts (p : Nat) :
    aligned p 1 = true ∧ (aligned p 2 = true ↔ p % 8 ∈ [0, 2, 4, 6]) ∧ (aligned p 4 = true ↔ p % 8 ∈ [0, 4])
      ∧ (aligned p 8 = true ↔ p % 8 = 0) ∧ (aligned p 16 = true ↔ p % 8 = 0 ∧ p / 8 % 2 = 0) := by
  simp only [aligned_iff, Nat.mod_one, List.mem_cons, List.not_mem_nil, or_false, true_and]
  refine ⟨?_, ?_, ?_⟩ <;> omega

/-- A request whose mode's lanes may not start at the Port's lane has a field outside its limits (R63, R83). -/
theorem portFieldsOk_of_misaligned {p speed lanes r : Nat} {fecs : List Nat} {q : List Byte}
    (hmode : modeInfo (u8 q 2) = some (speed, lanes, r, fecs)) (halign : aligned p lanes = false) : portFieldsOk p q = false := by
  simp [portFieldsOk, portIn, hmode, halign]

/-- port.configure of a request with a field outside its limits ends ST_RANGE and changes nothing else (R83, R14). -/
theorem portConfigure_fields_range {s : State} {c : Cmd} (htakes : Takes s c 24) (hup : s.dev.power.bringup = true)
    (hbad : portFieldsOk (u16 c.req 0) c.req = false) :
    ∃ d, exec (.portConfigure c) s = .next { s with dev := d } ∧ Answers d c stRange 4 []
      ∧ ({ d with boxes := [], out := [] } : Dev) = { now c.t s with boxes := [], out := [] } := by
  apply cmd_rejected htakes
  simp [hup, hbad]

/-- Settles O60: alignment to a lane count is divisibility, which depends on the lane's place in its Nozzle, and for 16 lanes on the Nozzle's
too; and a misaligned mode is a field outside its limits. -/
theorem firstLaneRule : Obligations.FirstLaneRule :=
  ⟨aligned_starts, fun _ _ _ _ _ _ htakes hup hmode halign =>
    portConfigure_fields_range htakes hup (portFieldsOk_of_misaligned hmode halign)⟩

end Sys2Proof.Machine
end

section
/-!
PROOF. The colour map: what policer.map loads and what it turns away, and the colour that a frame takes from it (R250, R234).
-/

namespace Sys2Proof.Machine

/-- A mailbox command that its mailbox takes and that is done as requested ends with its answer on the device that its body leaves. -/
theorem cmd_okay {s : State} {c : Cmd} {op minLen respLen : Nat} {body : List Byte → Nat → Dev → Reply} {d : Dev} (h : Takes s c minLen)
    (hok : body c.req (boxFn s.dev c.box) (begun op c s.dev) = okay d) :
    cmd op minLen respLen c body s = .next { s with dev := respond c.box respLen (okay d) } := by
  simp [cmd_takes h, hok, okay, effective]

/-- The colour map that a request of policer.map spells (R250): 64 values of two bits. -/
def requestMap (q : List Byte) : List Nat :=
  (List.range 64).map fun k => bitsOf (byteAt q (k / 4)) (2 * (k % 4) + 1) (2 * (k % 4))

@[simp] theorem requestMap_length (q : List Byte) : (requestMap q).length = 64 := by simp [requestMap]

/-- The value of DSCP `k` in the map that a request spells. -/
theorem requestMap_getD {q : List Byte} {k : Nat} (hk : k < 64) :
    (requestMap q).getD k 0 = bitsOf (byteAt q (k / 4)) (2 * (k % 4) + 1) (2 * (k % 4)) := by
  simp [requestMap, hk]

theorem mem_requestMap (q : List Byte) (v : Nat) :
    v ∈ requestMap q ↔ ∃ k < 64, bitsOf (byteAt q (k / 4)) (2 * (k % 4) + 1) (2 * (k % 4)) = v := by
  simp [requestMap]

/-- Two bits at an even place are a base-4 digit, as policer.map reads them. -/
theorem bitsOf_pair (n i : Nat) : bitsOf n (2 * i + 1) (2 * i) = n / 4 ^ i % 4 := by
  have hwidth : 2 * i + 1 + 1 - 2 * i = 2 := by omega
  have hplace : 2 ^ (2 * i) = 4 ^ i := Nat.pow_mul 2 2 i
  have hdigit : 2 ^ 2 = 4 := rfl
  rw [bitsOf, hwidth, hplace, hdigit]

/-- policer.map as a mailbox command: it loads the map that its request spells, or turns it away for a value 3 (R250). -/
theorem exec_policerMap (c : Cmd) (s : State) :
    exec (.policerMap c) s = cmd 0x0908 16 4 c (fun q _ d =>
      if (requestMap q).contains 3 then rej stRange d else okay { d with tm := { d.tm with colourMap := requestMap q } }) s := by
  simp only [requestMap, bitsOf_pair]
  rfl

/-- R250: policer.map with no value 3 loads the map, and nothing else changes. -/
theorem policerMap_loads {s : State} {c : Cmd} (htakes : Takes s c 16) (hvalues : 3 ∉ requestMap c.req) :
    ∃ d, exec (.policerMap c) s = .next { s with dev := d } ∧ Answers d c stOk 4 []
      ∧ d.tm = { s.dev.tm with colourMap := requestMap c.req }
      ∧ ({ d with tm := {}, boxes := [], out := [] } : Dev) = { now c.t s with tm := {}, boxes := [], out := [] } := by
  have hexec := (exec_policerMap c s).trans
    (cmd_okay htakes (d := { begun 0x0908 c s.dev with tm := { s.dev.tm with colourMap := requestMap c.req } }) (by simp [hvalues]))
  exact ⟨_, hexec, answers_respond .., rfl, rfl⟩

/-- R250: policer.map with a value 3 ends ST_RANGE and changes nothing. -/
theorem policerMap_range {s : State} {c : Cmd} (htakes : Takes s c 16) (hvalue : 3 ∈ requestMap c.req) :
    ∃ d, exec (.policerMap c) s = .next { s with dev := d } ∧ Answers d c stRange 4 []
      ∧ ({ d with boxes := [], out := [] } : Dev) = { now c.t s with boxes := [], out := [] } := by
  rw [exec_policerMap]
  apply cmd_rejected htakes
  simp [hvalue]

theorem byteAt_lt (b : List Byte) (o : Nat) : byteAt b o < 256 := (b.getD o 0).isLt

/-- R234, R250: under a colour-aware policer of source 1 a frame with an IP header is coloured by the map at its DSCP: the upper six bits of
an IPv4 header's second byte, or bits 11 to 6 of an IPv6 header's first two. -/
theorem preColour_of_ip {d : Dev} {p : Policer} {fv b : List Byte} {o : Nat} {v4 : Bool} (hmode : p.mode = 2) (hsrc : p.src = 1)
    (hip : ipHeader fv b = some (o, v4)) :
    preColour d p fv b = d.tm.colourMap.getD (if v4 then bitsOf (byteAt b (o + 1)) 7 2 else bitsOf (beAt b o 2) 11 6) 0 := by
  cases v4 with
  | true =>
    have hdscp : bitsOf (byteAt b (o + 1)) 7 2 = byteAt b (o + 1) / 4 :=
      Nat.mod_eq_of_lt (Nat.div_lt_of_lt_mul (byteAt_lt b (o + 1)))
    simp [preColour, hmode, hsrc, hip, hdscp]
  | false => simp [preColour, hmode, hsrc, hip, bitsOf]

/-- Settles O58: the request's map is loaded or turned away whole, and the colour of an IP frame is the loaded map's value at its DSCP. -/
theorem colourMapRule : Obligations.ColourMapRule := by
  refine ⟨fun s c htakes hvalues => ?_, fun s c htakes hvalue => policerMap_range htakes ((mem_requestMap _ _).mpr hvalue),
    fun _ _ _ _ _ _ => preColour_of_ip⟩
  have hno : 3 ∉ requestMap c.req := fun hmem =>
    let ⟨k, hk, hthree⟩ := (mem_requestMap _ _).mp hmem
    hvalues k hk hthree
  obtain ⟨d, hexec, hanswers, htm, hframe⟩ := policerMap_loads htakes hno
  have hmap : d.tm.colourMap = requestMap c.req := by rw [htm]
  refine ⟨d, hexec, hanswers, ?_, ?_, ?_, hframe⟩
  · rw [hmap, requestMap_length]
  · intro k hk
    rw [hmap, requestMap_getD hk]
  · rw [hmap, htm]

end Sys2Proof.Machine
end

section
/-!
PROOF. The threshold of a class: what collector.threshold sets, and the requests that it turns away (R357, R370).
-/

namespace Sys2Proof.Machine

/-- Two bytes are zeros where the 16-bit field they hold is 0 (R370). -/
theorem zerosAt_two (q : List Byte) (o : Nat) : zerosAt q o 2 = true ↔ u16 q o = 0 := by simp [zerosAt, u16]

theorem within_iff (v lo hi : Nat) : within v lo hi = true ↔ lo ≤ v ∧ v ≤ hi := by simp [within]

/-- Whether the class, N, W and the reserved field of a request of collector.threshold are within their limits (R370). -/
def thresholdFieldsOk (q : List Byte) : Bool :=
  decide (u8 q 0 ≤ 15) && decide (u8 q 1 ≠ 0) && zerosAt q 2 2 && within (u32 q 4) 1 10000000

theorem thresholdFieldsOk_iff (q : List Byte) :
    thresholdFieldsOk q = true ↔ u8 q 0 ≤ 15 ∧ u8 q 1 ≠ 0 ∧ u16 q 2 = 0 ∧ 1 ≤ u32 q 4 ∧ u32 q 4 ≤ 10000000 := by
  simp [thresholdFieldsOk, zerosAt_two, within_iff, and_assoc]

/-- collector.threshold turns away what is not within the limits (R370). -/
theorem thresholdRefused_eq (q : List Byte) :
    (decide (u8 q 0 > 15) || decide (u8 q 1 = 0) || !zerosAt q 2 2 || !within (u32 q 4) 1 10000000) = !thresholdFieldsOk q := by
  simp only [thresholdFieldsOk, Bool.not_and, ← decide_not, Nat.not_le, ne_eq, Decidable.not_not, gt_iff_lt]

/-- A class with the N and W of a request, its window restarted (R357, R370). -/
def withThreshold (q : List Byte) (x : Class) : Class := { x with n := u8 q 1, w := u32 q 4, openAt := none, seen := 0 }

/-- collector.threshold as a mailbox command: it sets the class that its request names, or turns the request away (R370). -/
theorem exec_collectorThreshold (c : Cmd) (s : State) :
    exec (.collectorThreshold c) s = cmd 0x0E03 8 4 c (fun q _ d =>
      if thresholdFieldsOk q then okay (setClass (u8 q 0) (withThreshold q (classOf d (u8 q 0))) d) else rej stRange d) s := by
  change execCollectorThreshold c s = _
  simp only [execCollectorThreshold, thresholdRefused_eq, Bool.not_eq_true', ← Bool.not_eq_true, ite_not]
  rfl

/-- R370: collector.threshold with its fields within their limits sets N and W of the class that it names and restarts its window; no other
class changes, and nothing but the classes. -/
theorem collectorThreshold_sets {s : State} {c : Cmd} (htakes : Takes s c 8) (hfields : thresholdFieldsOk c.req = true) :
    ∃ d, exec (.collectorThreshold c) s = .next { s with dev := d } ∧ Answers d c stOk 4 []
      ∧ (∀ j, classOf d j = if j = u8 c.req 0 then withThreshold c.req (classOf s.dev j) else classOf s.dev j)
      ∧ ({ d with coll := { d.coll with classes := [] }, boxes := [], out := [] } : Dev)
        = { now c.t s with coll := { s.dev.coll with classes := [] }, boxes := [], out := [] } := by
  have hexec := (exec_collectorThreshold c s).trans (cmd_okay htakes (if_pos hfields))
  refine ⟨_, hexec, answers_respond .., fun j => ?_, rfl⟩
  refine (classOf_setClass (u8 c.req 0) j _ (begun 0x0E03 c s.dev)).trans ?_
  split
  · next hj => subst hj; rfl
  · rfl

/-- R370: collector.threshold with a field outside its limits ends ST_RANGE and changes nothing (R14). -/
theorem collectorThreshold_range {s : State} {c : Cmd} (htakes : Takes s c 8) (hfields : thresholdFieldsOk c.req = false) :
    ∃ d, exec (.collectorThreshold c) s = .next { s with dev := d } ∧ Answers d c stRange 4 []
      ∧ ({ d with boxes := [], out := [] } : Dev) = { now c.t s with boxes := [], out := [] } := by
  rw [exec_collectorThreshold]
  apply cmd_rejected htakes
  simp [hfields]

/-- Settles O57: the fields of the request are all within their limits, and its class alone is set, or one is not, and nothing is. -/
theorem collectorThresholdRule : Obligations.CollectorThresholdRule := by
  intro s c k n w htakes
  refine ⟨fun hk hn hz hlo hhi => ?_, fun hbad => collectorThreshold_range htakes ?_⟩
  · have hfields := (thresholdFieldsOk_iff c.req).mpr ⟨hk, hn, hz, hlo, hhi⟩
    obtain ⟨d, hexec, hanswers, hclasses, hframe⟩ := collectorThreshold_sets htakes hfields
    exact ⟨d, hexec, hanswers, (hclasses k).trans (if_pos rfl), fun j hj => (hclasses j).trans (if_neg hj), hframe⟩
  · rw [← Bool.not_eq_true, thresholdFieldsOk_iff]
    rintro ⟨hk, hn, hz, hlo, hhi⟩
    omega

end Sys2Proof.Machine
end

section
/-!
PROOF. The match registers: where a fetch goes, and where the PC is after the word fetched there has executed (R376, R379).
-/

namespace Sys2Proof.Machine

-- Where a fetch goes -------------------------------------------------------------------------------------------------------------------

/-- Match register `k` is valid and holds the address at which the PC is (R376). -/
def redirects (d : Dev) (k : Nat) : Bool :=
  bitOf (tget 0 d.steward.matches_ k) 23 && bitsOf (tget 0 d.steward.matches_ k) 13 0 == d.steward.pc

theorem redirects_iff (d : Dev) (k : Nat) :
    redirects d k = true ↔
      bitOf (tget 0 d.steward.matches_ k) 23 = true ∧ bitsOf (tget 0 d.steward.matches_ k) 13 0 = d.steward.pc := by
  simp [redirects]

/-- R376: at a ROM address the lowest register that redirects names the word fetched, and where none does the PC itself. -/
theorem fetchAt_of_rom {d : Dev} (hrom : d.steward.pc < 0x4000) :
    fetchAt d = ((List.range 32).find? (redirects d)).elim d.steward.pc
      fun k => 0x4000 + bitsOf (tget 0 d.steward.matches_ k) 22 14 := by
  refine (if_pos hrom).trans ?_
  unfold redirects
  generalize List.find? _ (List.range 32) = found
  cases found <;> rfl

theorem fetchAt_of_redirects {d : Dev} {k : Nat} (hrom : d.steward.pc < 0x4000) (hk : k < 32) (hhit : redirects d k = true)
    (hlowest : ∀ j < k, redirects d j = false) : fetchAt d = 0x4000 + bitsOf (tget 0 d.steward.matches_ k) 22 14 := by
  have hfind : (List.range 32).find? (redirects d) = some k :=
    List.find?_range_eq_some.mpr ⟨hhit, List.mem_range.mpr hk, by simpa using hlowest⟩
  rw [fetchAt_of_rom hrom, hfind, Option.elim_some]

theorem fetchAt_of_no_redirect {d : Dev} (hrom : d.steward.pc < 0x4000) (hnone : ∀ j < 32, redirects d j = false) :
    fetchAt d = d.steward.pc := by
  have hfind : (List.range 32).find? (redirects d) = none := List.find?_range_eq_none.mpr (by simpa using hnone)
  rw [fetchAt_of_rom hrom, hfind, Option.elim_none]

theorem fetchAt_of_patch {d : Dev} (hpatch : 0x4000 ≤ d.steward.pc) : fetchAt d = d.steward.pc :=
  if_neg (Nat.not_lt.mpr hpatch)

/-- The address fetched is the Steward's alone: the instant does not change it. -/
theorem fetchAt_now (t : Nat) (s : State) : fetchAt (now t s) = fetchAt s.dev := rfl

-- A microword in its place -----------------------------------------------------------------------------------------------------------

/-- The device as a word's effect finds it: the PC at the word's own address, and one more word run since the last safe point (R376, R379). -/
def wordBegun (d : Dev) : Dev :=
  let d := setPc (fetchAt d) d
  setSteward { d.steward with words := d.steward.words + 1, safe := false } d

/-- R375: the PC is at the word fetched, in the 2^15 addresses of the control store. -/
@[simp] theorem wordBegun_pc (d : Dev) : (wordBegun d).steward.pc = fetchAt d % 2 ^ 15 := rfl

@[simp] theorem setPc_pc (n : Nat) (d : Dev) : (setPc n d).steward.pc = n % 2 ^ 15 := rfl

/-- A word that passed parity, where the Steward stands at it, has its effect. -/
theorem word_atWord {s : State} {t : Nat} {i : Micro} {safe : Bool} {f : Op → Dev → Option Dev} {d : Dev} (hat : AtWord (now t s) i)
    (heff : ∀ o, f o (wordBegun (now t s)) = some d) : word i t true safe f s = .next { s with dev := d } := by
  obtain ⟨⟨o, hrun, hstay⟩, hidle, hword, hfew⟩ := hat
  have hnow : advance t s.dev = now t s := rfl
  have heffect := heff o
  simp only [wordBegun] at heffect
  simp only [word, act, hnow, hrun]
  rw [if_neg (by simp [hidle, hstay]), if_neg (by simp [hword]), if_neg (by simp [hword]), if_neg (by simp; omega), heffect]

/-- A word that goes on to the next address does so, where the Steward stands at it. -/
theorem plain_atWord {s : State} {t : Nat} {i : Micro} (f : Dev → Dev) (hat : AtWord (now t s) i) :
    plain i t true f s =
      .next { s with dev := f (setPc ((wordBegun (now t s)).steward.pc + 1) (wordBegun (now t s))) } :=
  word_atWord hat fun _ => rfl

/-- A NOP leaves the PC at the address after the one it was fetched from (R374, R376). -/
theorem nop_moves_on {s : State} {t : Nat} (hat : AtWord (now t s) .nop) :
    ∃ d, exec (.nop t true) s = .next { s with dev := d } ∧ d.steward.pc = (fetchAt s.dev + 1) % 2 ^ 15 := by
  refine ⟨_, plain_atWord id hat, ?_⟩
  simp only [id, setPc_pc, wordBegun_pc, fetchAt_now, Nat.mod_add_mod]

/-- Settles O59: the first register that redirects a ROM address is the one that `find?` answers, and the PC goes on from the word fetched. -/
theorem matchRegistersRule : Obligations.MatchRegistersRule := by
  refine ⟨fun d k => ?_, fun d hrom hnone => ?_, fun _ => fetchAt_of_patch, fun _ _ => nop_moves_on⟩
  · intro reg hit hrom hk hhit hlowest
    exact fetchAt_of_redirects hrom hk ((redirects_iff d k).mpr hhit) fun j hj =>
      Bool.eq_false_iff.mpr fun h => hlowest j hj ((redirects_iff d j).mp h)
  · exact fetchAt_of_no_redirect hrom fun j hj =>
      Bool.eq_false_iff.mpr fun h => hnone j hj ((redirects_iff d j).mp h)

end Sys2Proof.Machine
end

section
/-!
PROOF. ticket.status: the completed ticket, the open one and the unknown one that it tells apart (R423), as a command that only reads.
-/

namespace Sys2Proof.Machine

/-- A command that its mailbox takes and whose body only reads gives the body's answer, whatever its status, and nothing but the mailbox and
what the device has sent differs from the device at that instant. -/
theorem cmd_reads {s : State} {c : Cmd} {op minLen respLen status : Nat} {bytes : List Byte} {body : List Byte → Nat → Dev → Reply}
    (h : Takes s c minLen)
    (hreads : body c.req (boxFn s.dev c.box) (begun op c s.dev) = { dev := begun op c s.dev, status, body := bytes }) :
    ∃ d, cmd op minLen respLen c body s = .next { s with dev := d } ∧ Answers d c status respLen bytes
      ∧ ({ d with boxes := [], out := [] } : Dev) = { now c.t s with boxes := [], out := [] } := by
  refine ⟨respond c.box respLen { dev := begun op c s.dev, status, body := bytes }, ?_, answers_respond c respLen _, ?_⟩
  · simp only [cmd_takes h, hreads, ite_self]
  · exact (respond_only ..).trans (begun_frame op c s)

/-- What ticket.status answers of ticket `n` (R423). -/
def ticketReply (n : Nat) (d : Dev) : Reply :=
  match d.helm.done.find? (fun x => x.num == n) with
  | some x => { dev := d, status := stOk, body := [1, 0] ++ x.bytes }
  | none => if d.helm.open_.any (fun x => x.num == n) then { dev := d, status := stOk, body := [0, 0] } else rej stRange d

theorem exec_ticketStatus (c : Cmd) (s : State) :
    exec (.ticketStatus c) s = cmd 0x0004 4 36 c (fun q _ d => ticketReply (u32 q 0) d) s := rfl

theorem ticketReply_of_done {n : Nat} {d : Dev} {x : DoneTicket} (hdone : (d.helm.done.find? fun x => x.num == n) = some x) :
    ticketReply n d = { dev := d, status := stOk, body := [1, 0] ++ x.bytes } := by
  simp only [ticketReply, hdone]

/-- Of a ticket that has not completed, the answer depends on whether it is open. -/
theorem ticketReply_of_not_done {n : Nat} {d : Dev} (hdone : ∀ x ∈ d.helm.done, x.num ≠ n) :
    ticketReply n d = if ∃ x ∈ d.helm.open_, x.num = n then { dev := d, status := stOk, body := [0, 0] } else rej stRange d := by
  have hnone : (d.helm.done.find? fun x => x.num == n) = none := by simpa using hdone
  simp only [ticketReply, hnone, List.any_eq_true, beq_iff_eq]

/-- R423: ticket.status gives the answer of the ticket that its request names, and changes nothing. -/
theorem ticketStatus_answers {s : State} {c : Cmd} {status : Nat} {bytes : List Byte} (htakes : Takes s c 4)
    (hreply : ticketReply (u32 c.req 0) (begun 0x0004 c s.dev) = { dev := begun 0x0004 c s.dev, status, body := bytes }) :
    ∃ d, exec (.ticketStatus c) s = .next { s with dev := d } ∧ Answers d c status 36 bytes
      ∧ ({ d with boxes := [], out := [] } : Dev) = { now c.t s with boxes := [], out := [] } := by
  rw [exec_ticketStatus]
  exact cmd_reads htakes hreply

/-- Settles O56: the ticket is completed, or open, or neither, and Helm's tickets at the command's instant are those of the state. -/
theorem ticketStatusRule : Obligations.TicketStatusRule := by
  intro s c n htakes
  have hhelm : (begun 0x0004 c s.dev).helm = s.dev.helm := begun_helm ..
  refine ⟨fun x hdone => ?_, fun hdone hopen => ?_, fun hdone hopen => ?_⟩
  · exact ticketStatus_answers htakes (ticketReply_of_done (hhelm ▸ hdone))
  · exact ticketStatus_answers htakes ((ticketReply_of_not_done (hhelm ▸ hdone)).trans (if_pos (hhelm ▸ hopen)))
  · refine ticketStatus_answers htakes ((ticketReply_of_not_done (hhelm ▸ hdone)).trans (if_neg ?_))
    rintro ⟨x, hx, hnum⟩
    exact hopen x (hhelm ▸ hx) hnum

end Sys2Proof.Machine
end

section
/-!
PROOF. A function's event ring: what event.configure sets and turns away (R421, R428), and the record of a function that has no ring.
-/

namespace Sys2Proof.Machine

/-- A ring may be named at a command's instant where it may before it. -/
theorem nameable_begun (op : Nat) (c : Cmd) (d : Dev) (fn r : Nat) (ring : Option Nat) :
    nameable (begun op c d) fn r ring = nameable d fn r ring := rfl

theorem fnOf_begun (op : Nat) (c : Cmd) (d : Dev) (f : Nat) : fnOf (begun op c d) f = fnOf d f := rfl

/-- R421: no function may name what is not a to-host ring of its own. -/
theorem nameable_of_foreign {d : Dev} {fn r : Nat} {ring : Option Nat} (hr : r ≠ 0xFFFF)
    (hforeign : 1024 ≤ r ∨ (ringOf d r).kind ≠ 0 ∨ (ringOf d r).fn ≠ fn) : nameable d fn r ring = false := by
  rw [nameable, beq_false_of_ne hr, Bool.false_or]
  rcases hforeign with hlarge | hkind | hfn
  · simp [Nat.not_lt.mpr hlarge]
  · simp [hkind]
  · simp [hfn]

/-- A function with the event ring that a request names, or none (R421). -/
def withEventRing (q : List Byte) (x : Fn) : Fn := { x with evRing := ringName (u16 q 0) }

/-- R421: event.configure with a ring that its function may name, or none, sets that function's event ring and nothing else. -/
theorem eventConfigure_sets {s : State} {c : Cmd} (htakes : Takes s c 4) (hreserved : u16 c.req 2 = 0)
    (hring : nameable s.dev (boxFn s.dev c.box) (u16 c.req 0) (fnOf s.dev (boxFn s.dev c.box)).evRing = true) :
    ∃ d, exec (.eventConfigure c) s = .next { s with dev := d } ∧ Answers d c stOk 4 []
      ∧ (∀ f, fnOf d f = if f = boxFn s.dev c.box then withEventRing c.req (fnOf s.dev f) else fnOf s.dev f)
      ∧ ({ d with fns := [], boxes := [], out := [] } : Dev) = { now c.t s with fns := [], boxes := [], out := [] } := by
  have hexec : exec (.eventConfigure c) s = .next { s with dev := respond c.box 4 (okay (setFn (boxFn s.dev c.box)
      (withEventRing c.req (fnOf s.dev (boxFn s.dev c.box))) (begun 0x0002 c s.dev))) } := by
    refine cmd_okay htakes (if_neg ?_)
    simp [hreserved, nameable_begun, fnOf_begun, hring]
  refine ⟨_, hexec, answers_respond .., fun f => ?_, rfl⟩
  refine (fnOf_setFn _ f _ (begun 0x0002 c s.dev)).trans ?_
  split
  · next hf => subst hf; rfl
  · rfl

/-- R421: event.configure with a ring that is not a to-host ring of its function ends ST_RANGE and changes nothing (R14). -/
theorem eventConfigure_range {s : State} {c : Cmd} (htakes : Takes s c 4) (hr : u16 c.req 0 ≠ 0xFFFF)
    (hforeign : 1024 ≤ u16 c.req 0 ∨ (ringOf s.dev (u16 c.req 0)).kind ≠ 0 ∨ (ringOf s.dev (u16 c.req 0)).fn ≠ boxFn s.dev c.box) :
    ∃ d, exec (.eventConfigure c) s = .next { s with dev := d } ∧ Answers d c stRange 4 []
      ∧ ({ d with boxes := [], out := [] } : Dev) = { now c.t s with boxes := [], out := [] } := by
  refine cmd_rejected htakes (if_pos ?_)
  simp [nameable_begun, nameable_of_foreign hr hforeign]

/-- The counters do not depend on what a function holds. -/
theorem addCounter_setFn (k n f : Nat) (x : Fn) (d : Dev) : addCounter k n (setFn f x d) = setFn f x (addCounter k n d) := by
  rw [addCounter, addCounter, apply_ite (setFn f x)]
  rfl

theorem count_setFn (event inst f : Nat) (x : Fn) (d : Dev) : count event inst (setFn f x d) = setFn f x (count event inst d) := by
  refine List.foldl_hom (setFn f x) fun e k => ?_
  rw [addCounter_setFn, apply_ite (setFn f x)]
  rfl

/-- R421: a record for a function without a ring is lost to it, and counted. -/
theorem raiseTo_of_no_ring {d : Dev} {f : Nat} (e : EvRec) (hring : (fnOf d f).evRing = none) :
    raiseTo f e d = setFn f { fnOf d f with evLost := (fnOf d f).evLost + 1 } (count 0x80C 0 d) := by
  rw [← count_setFn]
  exact if_pos (by simp [hring])

/-- Settles O55: the ring that the request names is set or turned away, and a record that has no ring to go to leaves the queue as it was. -/
theorem eventConfigureRule : Obligations.EventConfigureRule := by
  refine ⟨fun s c htakes hreserved hring => ?_, fun s c => eventConfigure_range, fun d f e hring => ?_⟩
  · obtain ⟨d, hexec, hanswers, hfns, hframe⟩ := eventConfigure_sets htakes hreserved hring
    exact ⟨d, hexec, hanswers, by rw [hfns, if_pos rfl]; rfl, fun f hf => (hfns f).trans (if_neg hf), hframe⟩
  · rw [raiseTo_of_no_ring e hring]
    exact ⟨by simp, setFn_counters ..⟩

end Sys2Proof.Machine
end
